-- ==== Sys2Proof/Word.lean ====
section
/-!
DEFINITION. The word types of the IX7420 and their plainest arithmetic: a 64-bit record word, a byte,
the 64-byte payload, the 128-bit course flit and the 256-bit port beat (R36, R99, R110).
-/

namespace Sys2Proof

/-- One byte of a payload, a blob or a message. -/
abbrev Byte := BitVec 8

/-- A 64-bit word: a handle, an operand, a cookie, a token or a beacon word. -/
abbrev Word := BitVec 64

/-- The 64-byte payload of a record; bit 511 is the top bit of the byte at the lowest address (R99, R319). -/
abbrev Payload := BitVec 512

/-- A course or caravan flit's 128 data bits (R36, R420). -/
abbrev Flit := BitVec 128

/-- A 32-byte beat of a crossbar port (R523). -/
abbrev Beat := BitVec 256

end Sys2Proof
end

