-- ==== Sys2Proof/Syntax.lean ====
section
/-!
DEFINITION. The commands of the engine: one constructor of `Instr` for each row of the table of
operations and events. An operation carries the record its engine interface wrote (Table 3.2 with the
request header of Table 16.3); a course message's arrival names the two stations; a deadline names what
it belongs to; a management command carries the host that sends it.
-/

namespace Sys2Proof

/-- A record written to an op window (Tables 3.2 and 16.3), without its opcode, which the command gives.
`station` is the port that receives the write; `aux` and `initId` are init_aux and init_id; `wide` says
that the write is 128 bytes; `rsv` holds the reserved record bits 467:464 and 159:0. `badCode` is the opcode field's
value where Table 3.4 defines no opcode for it (check 5.2): the record is then no operation of the command's. `busy` is 1 when
the station does not take the operation onward in the fc of its acceptance (R77), so that it waits in its path's budget
queue or in the excess buffer. `corrected` is how many of its beats had a byte corrected (R524). -/
structure OpRec where
  station    : Nat
  aux        : Bool
  initId     : BitVec 12
  xtag       : BitVec 12
  wide       : Bool
  busy       : Bool
  badCode    : Option (BitVec 8)
  release    : BitVec 2
  acquire    : BitVec 2
  scope      : BitVec 3
  hold       : Bool
  payload    : Bool
  supervisor : Bool
  fnStamp    : BitVec 12
  agent      : BitVec 14
  rsv        : BitVec 164
  opTag      : BitVec 16
  handle     : Word
  operandA   : Word
  operandB   : Word
  cookie     : Word
  waitLimit  : BitVec 32
  data       : Payload
  corrected  : Nat
  deriving DecidableEq, Repr

/-- A read of the beacon page through the crossbar (R125, R126): `word` is the first word's index and
`wide` says that the read is 32 bytes, four words. -/
structure ApertureRead where
  station : Nat
  aux     : Bool
  initId  : BitVec 12
  xtag    : BitVec 12
  fnStamp : BitVec 12
  word    : Nat
  wide    : Bool
  deriving DecidableEq, Repr

/-- Why an aperture access is not parsed (R96, R521, Table 16.1). -/
inductive ApertureFault where
  | unaccepted
  | headerParity
  | uncorrectable
  | withoutCredit
  deriving DecidableEq, Repr

/-- An access that is not parsed: why, the lane that carried it, whether it came as the two transfers of a write of 128
bytes (R525), and whether each of the two fails so, not one alone (R521, R524). -/
structure AccessFault where
  cause : ApertureFault
  lane  : BitVec 1
  wide  : Bool
  both  : Bool
  deriving DecidableEq, Repr

/-- The port on which a landing report is presented (R220). -/
inductive ReportPort where
  | landing (n : Nat)
  | link (n : Nat)
  deriving DecidableEq, Repr

/-- A landing report as it arrives (Table 7.2 with the high bits of R538); `codeBad` says that its flit is
uncorrectable, `noCredit` that it was sent without credit, and `corrected` that a byte of it was corrected (R521, R524). -/
structure ReportIn where
  port     : ReportPort
  handle   : Word
  fnStamp  : BitVec 12
  rsv      : BitVec 35
  bytes    : BitVec 17
  codeBad  : Bool
  noCredit : Bool
  corrected : Bool
  deriving DecidableEq, Repr

/-- A caravan presented on a link port's receive side: head flit, body flits, how many of the flits that came with credit fail
their code, how many were sent without credit, and how many had a byte corrected (Table 13.1, R424, R521, R524). -/
structure CaravanIn where
  port      : Nat
  head      : Flit
  bodies    : List Flit
  bad       : Nat
  noCredit  : Nat
  corrected : Nat
  deriving DecidableEq, Repr

/-- How a caravan reaches the engine's logic: on a link port, or as course message type 0x0B between a link's attach station
and another station (R422). -/
inductive Carried where
  | link (c : CaravanIn)
  | course (src dst : Nat)
  deriving DecidableEq, Repr

/-- One response transfer on a ferry initiator (Table 16.8): `bad` says that its beat is uncorrectable, `headerBad` that its
header fails its parity, and `corrected` that a byte of the beat was corrected (R524). -/
structure XiRsp where
  initiator : Nat
  tag       : Nat
  read      : Bool
  err       : Bool
  last      : Bool
  bad       : Bool
  headerBad : Bool
  corrected : Bool
  data      : Beat
  deriving DecidableEq, Repr

/-- The transaction classes of R301; compaction issues in slots that no other class claims. -/
inductive FerryClass where
  | refill
  | spill
  | shadow
  | capture
  | compaction
  deriving DecidableEq, Repr

/-- A management request: its host and the owner epoch that it carries (Table 15.7). -/
structure HostReq where
  host  : Nat
  epoch : Nat
  deriving DecidableEq, Repr

/-- An access to a dictionary entry (R489). -/
structure EntryRef where
  index    : BitVec 16
  subindex : BitVec 8
  offset   : Nat
  length   : Nat
  deriving DecidableEq, Repr

/-- What an access names: a range of a dictionary entry (R489), or for the register window's host one of the window's own
registers, by bits 10:2 of its byte address (R500, Table 16.11). -/
inductive AccessAt where
  | entry (e : EntryRef)
  | register (addr : BitVec 9)
  deriving DecidableEq, Repr

/-- Source endpoint, message tag and instance identifier of an MCTP control request (R496). -/
structure MctpCtl where
  srcEid     : BitVec 8
  messageTag : BitVec 3
  instanceId : BitVec 5
  deriving DecidableEq, Repr

/-- How a finding was made (R582, R584, R586): by the scrubber, by a foreground access to a row, by a course router that
receives a flit, by the byte parity of state in flip-flops, which belongs to the store that the finding names, or by the byte
parity of the always-on control bus: there `corrected` says that the transfer, sent once more, passed. -/
inductive FoundBy where
  | scrub
  | access
  | course
  | parity
  | bus
  deriving DecidableEq, Repr

/-- What a scrub read, a foreground access or a router finds (R584, R586, R587): a corrected word, or an
uncorrectable row of a store of Table 18.3. `unit` is a station, 66 + j for slice j, or 127 for the
control station; `attributionBad` says that the attribution word is uncorrectable too. -/
structure RowFinding where
  source         : FoundBy
  unit           : Nat
  store          : Nat
  row            : Nat
  corrected      : Bool
  attributionBad : Bool
  deriving DecidableEq, Repr

/-- A lane of a fast-clock channel whose receiver returns a credit (R520). -/
inductive Channel where
  | xpResponse (station lane : Nat)
  | xpPush (station lane : Nat)
  | xiRequest (initiator : Nat)
  | xiWrite (initiator : Nat)
  | kpTransmit (port : Nat)
  deriving DecidableEq, Repr

/-- The commands: every row of the table of operations and events, in the table's order. -/
inductive Instr where
  -- operations written to an op window (Table 3.4)
  | nop (r : OpRec)
  | cancel (r : OpRec)
  | destroy (r : OpRec)
  | ctrCreate (r : OpRec)
  | ctrAdd (r : OpRec)
  | ctrSub (r : OpRec)
  | ctrSet (r : OpRec)
  | ctrRead (r : OpRec)
  | ctrAcquire (r : OpRec)
  | ctrWaitGe (r : OpRec)
  | weirCreate (r : OpRec)
  | weirArrive (r : OpRec)
  | weirWait (r : OpRec)
  | weirArriveWait (r : OpRec)
  | weirRead (r : OpRec)
  | weirPolicy (r : OpRec)
  | landCreate (r : OpRec)
  | landExpect (r : OpRec)
  | landWait (r : OpRec)
  | landRead (r : OpRec)
  | landSeal (r : OpRec)
  | landRenew (r : OpRec)
  | qCreate (r : OpRec)
  | qPush (r : OpRec)
  | qPop (r : OpRec)
  | qMark (r : OpRec)
  | qRewind (r : OpRec)
  | qRelease (r : OpRec)
  | qToll (r : OpRec)
  | qRead (r : OpRec)
  | qPolicy (r : OpRec)
  | frCreate (r : OpRec)
  | frArm (r : OpRec)
  | frDisarm (r : OpRec)
  | frRead (r : OpRec)
  | loadReport (r : OpRec)
  | skCreate (r : OpRec)
  | skReport (r : OpRec)
  | skRead (r : OpRec)
  | skExport (r : OpRec)
  | skImport (r : OpRec)
  | skPolicy (r : OpRec)
  | bcnCreate (r : OpRec)
  | bcnWrite (r : OpRec)
  | bcnRead (r : OpRec)
  -- other accesses to a station aperture
  | beaconRead (a : ApertureRead)
  | apertureError (station : Nat) (aux : Bool) (initId xtag : BitVec 12) (why : AccessFault)
  -- course messages and deadlines of the operation interface
  | forwardedOperation (src dst : Nat)
  | operationResponse (src dst : Nat)
  | chartCommit (src dst : Nat)
  | wakeRequest (src dst : Nat)
  | withdrawal (src dst : Nat)
  | waitTimeout (station wait : Nat)
  | pushMessage (station : Nat)
  | pushCreditReturn (station : Nat) (agent : BitVec 14) (beats : BitVec 4) (rsv : BitVec 6) (parityBad : Bool)
  | beaconUpdate (src dst : Nat)
  | beaconUpdateAck (src dst : Nat)
  -- weirs
  | weirSetup (src dst : Nat)
  | setupAcknowledgement (src dst : Nat)
  | combinedArrival (src dst : Nat)
  | epochCompletion (src dst : Nat)
  | weirSubscribe (src dst : Nat)
  | subscribeReply (src dst : Nat)
  | teardown (src dst : Nat)
  | teardownAck (src dst : Nat)
  | hintOverdue (station index : Nat)
  | hintMax (station : Nat)
  -- landing counters and seals
  | landingReport (p : ReportIn)
  | reportCredit (src dst : Nat)
  | sealDeposit (src dst : Nat)
  | sealRelease (src dst : Nat)
  | sealDiscard (src dst : Nat)
  | sealRegister (src dst : Nat)
  | freeNotice (src dst : Nat)
  -- queues and ferry
  | idleTimeout (station index : Nat)
  | spillSegment (src dst : Nat)
  | spillAccepted (src dst : Nat)
  | spillRefused (src dst : Nat)
  | spillRetry (station index : Nat)
  | refillRequest (src dst : Nat)
  | refillSegment (src dst : Nat)
  | reserveExtent (src dst : Nat)
  | extentReserved (src dst : Nat)
  | releaseExtent (src dst : Nat)
  | ferryIssue (slice : Nat) (cls : FerryClass)
  | xiResponse (x : XiRsp)
  | ferrySlow (slice tag : Nat)
  | compactionMove (slice : Nat)
  | shadowRecord (src dst : Nat)
  | shadowRecordWritten (src dst : Nat)
  -- fire rules and placement
  | register (src dst : Nat)
  | feedRegister (src dst : Nat)
  | registered (src dst : Nat)
  | activate (src dst : Nat)
  | deactivate (src dst : Nat)
  | consume (src dst : Nat)
  | consumeDormant (src dst : Nat)
  | releaseWatch (src dst : Nat)
  | released (src dst : Nat)
  | met (src dst : Nat)
  | lapsed (src dst : Nat)
  | feedPush (src dst : Nat)
  | pushed (src dst : Nat)
  | launch (src dst : Nat)
  | launchAnswer (src dst : Nat)
  | arriveAction (src dst : Nat)
  | arriveRetry (station index : Nat)
  | loadSubscribe (src dst : Nat)
  | digestPeriod (station : Nat)
  | digest (src dst : Nat)
  | migrateWindowEnd (station : Nat)
  | migrationCopy (src dst : Nat)
  | copyAccepted (src dst : Nat)
  | rebind (src dst : Nat)
  | rebindAck (src dst : Nat)
  | migrationCommit (station : Nat)
  | flush (src dst : Nat)
  | forwardDone (src dst : Nat)
  -- caravans and links
  | caravanSend (port : Nat)
  | ack (c : CaravanIn)
  | ackDue (port : Nat)
  | retxTimeout (port : Nat)
  | credit (c : CaravanIn)
  | resync (c : CaravanIn)
  | bind (u : Carried)
  | bindReply (u : Carried)
  | bindRetry (station index : Nat)
  | weirUp (u : Carried)
  | weirDown (u : Carried)
  | op (u : Carried) (payload : Option CaravanIn)
  | reply (u : Carried)
  | tokens (u : Carried)
  | tokenAck (u : Carried)
  | bridgeOpSend (bridge : Nat)
  | bridgeTokensSend (bridge : Nat)
  | linkReady (port : Nat)
  | linkNotReady (port : Nat)
  | linkLostTimeout (port : Nat)
  -- dictionary accesses and functions
  | read (q : HostReq) (e : AccessAt)
  | write (q : HostReq) (e : AccessAt) (data : List Byte)
  | enable (q : HostReq) (fn : BitVec 12)
  | disable (q : HostReq) (fn : BitVec 12)
  | shareWrite (q : HostReq) (fn : BitVec 12) (burst : Bool) (value : BitVec 8)
  | drainStepDone (fn : BitVec 12)
  | flightWaitEnd (fn : BitVec 12)
  | sliceDrainDone (slice : Nat) (fn : BitVec 12)
  -- recovery
  | heartbeatRead (partition : BitVec 6)
  | partitionFreeze (q : HostReq) (partition : BitVec 6)
  | partitionReady (q : HostReq) (partition : BitVec 6)
  | partitionFault (partition : BitVec 6)
  | interfaceReset (q : HostReq) (phys : BitVec 12)
  | interfaceResetAck (phys : BitVec 12) (block : BitVec 256)
  | interfaceResetTimeout (phys : BitVec 12)
  | captureEntry (src dst : Nat)
  | captureLimit (partition : BitVec 6)
  | fence (q : HostReq) (phys : BitVec 12)
  | fenceAck (phys : BitVec 12)
  | fenceTimeout (phys : BitVec 12)
  | unfence (q : HostReq) (phys : BitVec 12)
  | unfenceAck (phys : BitVec 12)
  | prstAck (partition : BitVec 6)
  | partitionResetTimeout (partition : BitVec 6)
  | reset (q : HostReq)
  | clearOos (q : HostReq)
  | engineReset
  | mcWatchdogExpiry
  | restart (q : HostReq)
  | mcResumed
  -- management transports
  | mctpPacket (bytes : List Byte)
  | setEndpointId (c : MctpCtl) (eid : BitVec 8)
  | getEndpointId (c : MctpCtl)
  | getEndpointUuid (c : MctpCtl)
  | getMctpVersionSupport (c : MctpCtl) (messageType : BitVec 8)
  | getMessageTypeSupport (c : MctpCtl)
  | getVendorDefinedMessageSupport (c : MctpCtl) (selector : BitVec 8)
  | mpPrivateRead (lastTaken : Bool)
  | ibiAnswer (accepted : Bool)
  | ibiRetry
  -- ownership and events
  | claim (host : Nat) (priority : BitVec 8) (nonce : BitVec 32)
  | claimWindowEnd
  | renew (q : HostReq)
  | release (q : HostReq)
  | handover (q : HostReq) (target : Nat)
  | accept (host offering : Nat)
  | leaseExpiry
  | handoverDeadline
  | subscribe (host : Nat) (mask : BitVec 128)
  | event
  | eventAck (host : Nat) (sequence : BitVec 32)
  | eventSend (host : Nat)
  | eventRetry (host : Nat)
  -- debug access
  | unlock (q : HostReq)
  | unlockInstruction
  | lock (q : HostReq)
  | lockInstruction
  -- online service
  | drain (q : HostReq) (kind number : BitVec 8)
  | test (q : HostReq) (kind number : BitVec 8)
  | return_ (q : HostReq) (kind number : BitVec 8)
  | powerOff (q : HostReq) (kind number : BitVec 8)
  | powerOn (q : HostReq) (kind number : BitVec 8)
  | serviceStepDone (failing : BitVec 8)
  | serviceStepTimeout
  | clear (q : HostReq)
  -- power, clock, reset and entropy ports
  | aonResetRelease
  | aonReset
  | clamp
  | fcAckRise
  | fcClockLost
  | pdAck (domain : Nat) (level : Bool)
  | pdAckTimeout (domain : Nat)
  | entropyWord (word : Word)
  | entropyError
  | entropyRetry
  -- doze, integrity and telemetry
  | dozeEntry (station : Nat)
  | stationWake (station : Nat)
  | towpathHoldExpiry (station : Nat)
  | scrubBurst (unit : Nat) (findings : List RowFinding)
  | courseReplay (station link : Nat)
  | calibrationWindow (khz : BitVec 32)
  | extentReleased (src dst : Nat)
  | mcRestartTimeout
  | clampRelease
  | channelCreditReturn (c : Channel)
  | occupancySample
  | prstAckFall (partition : BitVec 6)
  deriving DecidableEq, Repr

end Sys2Proof
end

