-- ==== Sys2Proof/Machine/State.lean ====
section
/-!
DEFINITION. The state of the engine as plain data: what every station, slice, port and the control station
hold between two commands, and the state after reset. A field's docstring names the table of the manual that
gives it. Tables keyed by a number are association lists in rising order of the key; an absent key stands for
the default that the accessor in `Machine/Ops.lean` names.
-/

namespace Sys2Proof.Machine

/-- Why a step could fault. The manual lets the engine end no step in a fault (every refusal is a status, an
error response or an event), so no meaning answers with it: safe. -/
inductive Fault where
  /-- Raised by no meaning; it exists because the interface asks for a type of faults. -/
  | none
  deriving DecidableEq, Repr

/-- Why a command has no meaning. -/
inductive Refusal where
  /-- The command's arm in `exec` is not written yet: safe, the machine stops. -/
  | notModelled (mnemonic : String)
  deriving DecidableEq, Repr

/-- A table from numbers, keys strictly rising. -/
abbrev Table (α : Type) := List (Nat × α)

/-- A run of a byte table: keys `first` to `first + count - 1` hold `base + mul * (key - first)`. -/
structure Run where
  first : Nat
  count : Nat
  base  : Nat
  mul   : Nat
  deriving DecidableEq, Repr

/-- A large table of numbers (entry_map, routing_table, distance_table): the first run that holds a key gives
its value; a key in no run has the entry's absent value. -/
abbrev RunMap := List Run

/-- Status codes (Table 0.5). -/
inductive Status where
  | ok | parked | retry | stale | ahead | broken | fenced | draining | nofunc
  | badhandle | quota | scope | idleTail | integrity | linklost | timeout | unavailable | privilege
  deriving DecidableEq, Repr

/-- Opcodes (Table 3.4). -/
inductive Opcode where
  | nop | cancel | destroy
  | ctrCreate | ctrAdd | ctrSub | ctrSet | ctrRead | ctrAcquire | ctrWaitGe
  | weirCreate | weirArrive | weirWait | weirArriveWait | weirRead | weirPolicy
  | landCreate | landExpect | landWait | landRead | landSeal | landRenew
  | qCreate | qPush | qPop | qMark | qRewind | qRelease | qToll | qRead | qPolicy
  | frCreate | frArm | frDisarm | frRead | loadReport
  | skCreate | skReport | skRead | skExport | skImport | skPolicy
  | bcnCreate | bcnWrite | bcnRead
  deriving DecidableEq, Repr

/-! ## Configuration -/

/-- The maps of Gelari that the engine rewrites: entry_map (Table 1.12), site_map (Table 10.17), row_remap
and spare_map (Table 14.14), and core_partition_map (Table 2.8). -/
structure Maps where
  entry     : RunMap
  site      : RunMap
  rowRemap  : RunMap
  spare     : RunMap
  spareUsed : List Nat
  partition : RunMap
  deriving DecidableEq, Repr

/-- What Gelari fixed in the netlist (Tables 0.1 and 17.10). The maps that recovery and service change
(entry_map, site_map, row_remap, spare_map) are in `Maps`; `maps` are their values as Gelari gave them. -/
structure Gelari where
  stations         : Nat
  spares           : Nat
  landingPorts     : Nat
  linkPorts        : Nat
  initiators       : Nat
  stages           : Nat
  fastKhz          : Nat
  mailboxDepth     : Nat
  xpReqCredits     : Nat
  lpCredits        : Nat
  kpRxCredits      : Nat
  landingFlightAc  : Nat
  stackShift       : Nat
  groupShift       : Nat
  groupsPerStack   : Nat
  stackCount       : Nat
  stagesRequired   : Nat
  version          : Nat
  buildId          : Nat
  apertureBase     : RunMap
  attachLanding    : List Nat
  attachLink       : List Nat
  attachFerry      : List Nat
  landingGroup     : List Nat
  spareAnchors     : List (Nat × Nat)
  spareSite        : RunMap
  distance         : RunMap
  coreRow          : RunMap
  configName       : List Nat
  maps             : Maps
  deriving DecidableEq, Repr

/-- The two clocks: fc since reset, ac since always-on reset, the part of an ac that the fc since the last ac make up, and the
frequency of the fast clock in kHz, which the clock generator may change (R558, R559, R562; log entry 4). -/
structure Clock where
  fc   : Nat
  ac   : Nat
  frac : Nat
  khz  : Nat
  deriving DecidableEq, Repr

/-! ## Objects -/

/-- A home eddy (Table 4.4). `members` are the registered waits, oldest first, each as its entry station and
the waiter record there: station_count of a station is the number of its members, and station_map the stations
that have one. -/
structure Eddy where
  ref       : Nat
  threshold : Word
  acquire   : Bool
  cursor    : Nat
  members   : List (Nat × Nat)
  deriving DecidableEq, Repr

/-- A watch or feed record (Table 10.8); `handle` is the watched object's own handle bits. A feed of a
bridge's reply queue has no rule: `ruleHi` is 0 (R443). -/
structure Watch where
  feed      : Bool
  ruleHi    : BitVec 40
  slot      : Nat
  phase     : Nat
  threshold : Word
  step      : Nat
  credit    : Nat
  armSeq    : Nat
  endMark   : Bool
  deriving DecidableEq, Repr

/-- A counter (Table 4.1). -/
structure Counter where
  value  : Word
  eddies : List Eddy
  wraps  : Nat
  deriving DecidableEq, Repr

/-- A held-seal record (Table 7.8). -/
structure HeldSeal where
  xgen   : BitVec 8
  buffer : Nat
  entry  : Nat
  deriving DecidableEq, Repr

/-- A landing counter (Table 7.1); `seals` is the list of held-seal records, oldest first. -/
structure Landing where
  landed   : Word
  expect   : Word
  xgen     : BitVec 8
  eddies   : List Eddy
  seals    : List HeldSeal
  overruns : Nat
  deriving DecidableEq, Repr

/-- A token and its end mark (R250). -/
structure Token where
  word    : Word
  endMark : Bool
  deriving DecidableEq, Repr

/-- How the participants of a weir are given (R159). -/
inductive Participants where
  | range (firstCore coreCount : Nat) (mask : BitVec 4)
  | list (agents : List Nat)
  deriving DecidableEq, Repr

/-- One lane of a partial (R194 to R203): the exact sum or count, the flags, the selected element's bits and
the participant index that selects it. -/
structure Lane where
  sum   : Int
  nan   : Bool
  pinf  : Bool
  ninf  : Bool
  bits  : Nat
  index : Nat
  deriving DecidableEq, Repr

/-- A bank's accumulator: no lanes while nothing is merged, and the non-finite count (R205). -/
structure Partial where
  lanes : List Lane
  nf    : Nat
  deriving DecidableEq, Repr

/-- What a weir's setup carries to every station (R163); `keeper` gives a keeper weir's keeper and G (R351). -/
structure WeirParams where
  parts      : Participants
  scope      : Nat
  publish    : Option Nat
  redOp      : Nat
  inFormat   : Nat
  outFormat  : Nat
  stochastic : Bool
  remote     : Nat
  keeper     : Option (BitVec 40 × Nat)
  deriving DecidableEq, Repr

/-- One of the two banks of a node (Table 5.3): children and remote arrivals reported, sent bit, agents whose
epoch bit is set, what the slot has merged and not sent up, and what it has sent up, which stays in the slot until the node
advances (R215). -/
structure Bank where
  kids    : Nat
  rem     : Nat
  sent    : Bool
  arrived : List Nat
  acc     : Partial
  kept    : Partial
  deriving DecidableEq, Repr

/-- Segments of a combined arrival received so far from one sender for one bank (R168). -/
structure SegmentSet where
  sender : Nat
  parity : Bool
  segs   : List Payload
  deriving DecidableEq, Repr

/-- A weir node record with its map, slot and overflow records (Tables 5.3 and 6.8). `role`: 0 listener,
1 member, 2 home. `pendingReply` holds while a listener awaits its subscribe reply. `hintSince` is the fc since
which the open bank has been nearly full (R187), `hintKept` the hint_missing, hint_overdue_fc and hint_max_fc of a bank that
was overdue when one of them was written (R189), `due` at a home the combined arrivals, by member and parity, that travelled
as the weir moved and are still to come (R182), `lastArrival` the fc of each bank's last local arrival (R607),
`failed` whether its weir has been purged as FAILED (R588), `keeperLost` whether the keeper of a keeper weir has (R373). -/
structure Node where
  hi           : BitVec 40
  home         : Nat
  params       : WeirParams
  open_        : BitVec 32
  role         : Nat
  broken       : Bool
  lost         : Bool
  parent       : Nat
  children     : Nat
  local_       : Nat
  bank0        : Bank
  bank1        : Bank
  segments     : List SegmentSet
  hintEnable   : Bool
  overdueFc    : Nat
  hintSince    : Option Nat
  hintKept     : Option (Nat × Nat × Nat)
  due          : List (Nat × Bool)
  pendingReply : Bool
  failed       : Bool
  keeperLost   : Bool
  lastResult   : Payload
  lastArrival  : Table Nat
  deriving DecidableEq, Repr

/-- The system record of a scope-5 weir (Table 13.3); `bind`: 0 UNBOUND, 1 BOUND, 2 ROOT. -/
structure SysRecord where
  sysNum     : Nat
  parentChip : Nat
  parentRef  : BitVec 24
  bind       : Nat
  lost       : Bool
  children   : List (Nat × BitVec 24)
  retryAt    : Option Nat
  deriving DecidableEq, Repr

/-- A weir at its home (Table 5.1). `result` is the rounded result of the latest completed epoch (R215) and
`resultCount` its non-finite or saturated count (R205); `seed` is the captured riffle seed (R212); `heldDown` are the
results from the parent chip whose completion waits for a keeper's transfer (R372). -/
structure Weir where
  params      : WeirParams
  openEpoch   : BitVec 32
  state       : Nat
  members     : List Nat
  listeners   : List Nat
  seed        : Word
  result      : Payload
  resultCount : Nat
  sys         : Option SysRecord
  heldDown    : List Payload
  deriving DecidableEq, Repr

/-- A push that has not written all its tokens (R256, R267), with the tokens left and its first position. -/
structure Pushing where
  agent   : Nat
  entry   : Nat
  tag     : Nat
  release : Nat
  scope   : Nat
  first   : Nat
  ends    : Nat
  rest    : List Token
  deriving DecidableEq, Repr

/-- A token queue: object entry and both window headers and windows (Tables 8.1 to 8.3). `head` is the head
window's block and its tokens, `tail` the tail window's tokens of block `tailBlock`. `spillTail` and `spillHead` tell of a
spill of a window: 0 none, 1 sent, 2 refused and to be sent again. `refills` are the blocks requested with the
segments received, `refilled` a block that waits to enter the head window, `pushing` the push that waits for the tail
window, and `bwBlocks` the blocks in the backwater. `quals` tells of each push, while a token of it is unreleased, its first
position, the position after its last token, its scope and its release (Table 13.1; log entry 10). `returned` are granted tokens
that came back after read had moved on, each with its position (R270; log entry 71). -/
structure Queue where
  push         : Nat
  read         : Nat
  rel          : Nat
  mark         : Nat
  markValid    : Bool
  capacity     : Nat
  tollOut      : Nat
  packets      : Nat
  marksSince   : Nat
  popEddies    : List Eddy
  tollEddies   : List Eddy
  headCopy     : Bool
  head         : Option (Nat × List Token)
  tailBlock    : Nat
  tail         : List Token
  spillTail    : Nat
  spillHead    : Nat
  refills      : List (Nat × List Payload)
  refilled     : Option (Nat × List Token)
  pushing      : Option Pushing
  bwBlocks     : List Nat
  bwReserved   : Nat
  idleAc       : Nat
  idleDeadline : Option Nat
  idleDue      : Bool
  faultAt      : Option Nat
  quals        : List (Nat × Nat × Nat × Nat)
  returned     : List (Nat × Token)
  deriving DecidableEq, Repr

/-- An input of a fire rule: the object's handle. -/
structure RuleInput where
  handle    : Word
  threshold : Nat
  step      : Nat
  deriving DecidableEq, Repr

/-- A fire rule: object entry and extension record (Tables 10.6 and 10.7). `state`: 0 DISARMED, 1 ARMED,
2 FIRING, 3 SPENT, 4 LAPSED. `refused` lists the engines that answered FENCED in this firing (R329), and
`lapsedInputs` the input slots whose watch has been freed, `retry` whether its arrival returned AHEAD and is to be
sent again (R318). -/
structure Rule where
  argument      : Word
  state         : Nat
  action        : Nat
  rearm         : Bool
  inputs        : List RuleInput
  met           : List Nat
  locality      : Nat
  scope         : Nat
  engineMask    : BitVec 4
  coreCount     : Nat
  firstCore     : Nat
  lastTarget    : Nat
  lapse         : Option Status
  armSeq        : Nat
  disarmPending : Bool
  target        : Word
  kernel        : BitVec 128
  fireSeq       : Nat
  refused       : List Nat
  lapsedInputs  : List Nat
  retry         : Bool
  deriving DecidableEq, Repr

/-- A group record of a keeper (Table 11.3); `history` is decision entry 0 to 127, 2 bits each. -/
structure Group where
  history         : BitVec 256
  nonfinite       : Nat
  flushed         : Nat
  nonzero         : Nat
  stalled         : Nat
  s               : Int
  cleanRun        : Nat
  ufCount         : Nat
  silentCount     : Nat
  histHead        : Nat
  anchored        : Bool
  anchorIntervals : Nat
  interval        : Nat
  backoff         : Nat
  ufShift         : Nat
  ufRun           : Nat
  silentRun       : Nat
  restartExp      : Int
  autoRaise       : Bool
  ufEvent         : Bool
  deriving DecidableEq, Repr

/-- A scale keeper (Table 11.2); `transfer`: 0 none, 1 export, 2 import. `epochs` counts the epochs of its weir that it has
taken since creation (R352: n·B + j before the reduction modulo 2^32). -/
structure Keeper where
  steps           : Word
  weirHi          : BitVec 40
  lastSkipped     : Bool
  episode         : Bool
  episodeStart    : BitVec 32
  episodeBackoffs : Nat
  transfer        : Nat
  epochs          : Nat
  groups          : List Group
  deriving DecidableEq, Repr

/-- A beacon slot (R134). -/
structure Beacon where
  word  : Nat
  value : Word
  deriving DecidableEq, Repr

/-- What an object is (Table 2.3). -/
inductive Body where
  | counter (c : Counter)
  | weir (w : Weir)
  | landing (l : Landing)
  | queue (q : Queue)
  | rule (r : Rule)
  | keeper (k : Keeper)
  | beacon (b : Beacon)
  deriving DecidableEq, Repr

/-- A migration tracker (R342). -/
structure Tracker where
  candidate : Nat
  votes     : Nat
  ops       : Nat
  cooldown  : Nat
  deriving DecidableEq, Repr

/-- An object entry at its home: bits 63:24 of its handle, its class state, its watch and feed records
(R322), whether it is FAILED (R588), and its tracker. -/
structure Obj where
  hi      : BitVec 40
  body    : Body
  failed  : Bool
  watches : List Watch
  tracker : Tracker
  deriving DecidableEq, Repr

/-! ## Operations and waits in progress -/

/-- Where an operation's answer goes: the crossbar transaction of a record, the REPLY of an OP caravan
(R444), or the attach station's toll and push for a TOKENS caravan (R445: stage 0 toll, 1 push). -/
inductive ReplyTo where
  | port (aux : Bool) (initId xtag : BitVec 12)
  | link (port : Nat) (srcChip fn : Nat) (opTag : BitVec 16) (bridge : Nat)
  | tokens (port : Nat) (srcChip fn : Nat) (bridge n : Nat) (marks : BitVec 8) (data : Payload)
      (handle : Word) (scope release : Nat) (stage : Nat)
  | closed
  deriving DecidableEq, Repr

/-- An operation as it crosses the course (R102): what the head flit and body flits carry, the entry
station, the tag it assigned, the waiter record that a waiting opcode took there, and the forwards made so far
(R29). -/
structure FwdOp where
  op      : Opcode
  agent   : Nat
  entry   : Nat
  tag     : Nat
  wait    : Nat
  handle  : Word
  a       : Word
  b       : Word
  data    : Option Payload
  release : Nat
  acquire : Nat
  scope   : Nat
  hold    : Bool
  hops    : Nat
  deriving DecidableEq, Repr

/-- An operation that an entry station has admitted and not answered, with the waiter record it took. `handle` and
`amount` (operand_a) say what a wait that is purged before its answer comes has to give back (R117). -/
structure OpenOp where
  tag     : Nat
  op      : Opcode
  agent   : Nat
  reply   : ReplyTo
  opTag   : BitVec 16
  acquire : Nat
  scope   : Nat
  fn      : Nat
  wait    : Option Nat
  handle  : Word
  amount  : Word
  deriving DecidableEq, Repr

/-- An operation that has passed checks 1 to 8 (or a caravan's, under R444), with what its entry station keeps
(R102). -/
structure Adm where
  n         : Nat
  op        : Opcode
  agent     : Nat
  via       : ReplyTo
  opTag     : BitVec 16
  handle    : Word
  a         : Word
  b         : Word
  data      : Option Payload
  release   : Nat
  acquire   : Nat
  scope     : Nat
  hold      : Bool
  cookie    : Word
  waitLimit : Nat
  fn        : Nat
  deriving DecidableEq, Repr

/-- Phases of a waiter record (Table 4.5). -/
inductive Phase where
  | pending | joined | withdrawing | ended
  deriving DecidableEq, Repr

/-- Where a wait is held: at a home eddy, in a bank of a weir node (epoch given), or at a listener node that
awaits its subscribe reply (R173). -/
inductive Place where
  | eddy (home ref : Nat)
  | weir (index : Nat) (epoch : BitVec 32)
  | listener (index : Nat) (epoch : BitVec 32)
  deriving DecidableEq, Repr

/-- How a wait ends: status, the two values, the tokens of a pop, and the changing agent where the message
names one (R151, R270, R395). -/
structure EndInfo where
  status : Status
  a      : Word
  b      : Word
  data   : Option Payload
  agent  : Option Nat
  deriving DecidableEq, Repr

/-- A waiter record at the entry station (Table 4.5). `id` tells the waits of a station apart, `tag` the ingress tag while
the wait is PENDING, `ended` how a wait in phase ENDED ends once its registration response arrives (R151),
`cancel` the CANCEL that its withdrawal answers (R152), `granted` the amount of a grant that covered it,
and `failed` a record that has failed (R589). -/
structure Waiter where
  id       : Nat
  tag      : Nat
  cookie   : Word
  handle   : Word
  deadline : Option Nat
  opTag    : BitVec 16
  agent    : Nat
  opcode   : Opcode
  acquire  : Nat
  scope    : Nat
  hold     : Bool
  phase    : Phase
  place    : Place
  reply    : ReplyTo
  ended    : Option EndInfo
  cancel   : Option OpenOp
  granted  : Option Word
  failed   : Bool
  deriving DecidableEq, Repr

/-- A message ready to be pushed (R118, R120): a wake held by a waiter record, or a launch held by its rule
(home and handle bits of the rule, for its answer). -/
structure PushMsg where
  agent      : Nat
  wait       : Option Nat
  cookie     : Word
  handle     : Word
  value      : Word
  status     : Status
  opcode     : Opcode
  invalidate : Bool
  scope      : Nat
  launch     : Option (Nat × BitVec 40 × Payload)
  deriving DecidableEq, Repr

/-- A response beat (Table 3.6) with the 64 bytes that may follow it. -/
structure Rsp where
  valueA     : Word
  valueB     : Word
  opTag      : BitVec 16
  status     : Status
  invalidate : Bool
  scope      : BitVec 3
  data       : Option Payload
  deriving DecidableEq, Repr

/-- A response waiting for a lane's credit (R520, R526): an operation's, or an aperture access's data beat
or error response, with the lane that it must take where there is one (Table 16.1). -/
inductive RspOut where
  | op (aux : Bool) (initId xtag : BitVec 12) (r : Rsp)
  | access (aux : Bool) (initId xtag : BitVec 12) (lane : Option Nat) (err : Bool) (data : Beat)
  deriving DecidableEq, Repr

/-- An access of the aperture that is not parsed, at its station's port (Table 16.3). -/
structure AccessIn where
  station : Nat
  aux     : Bool
  initId  : BitVec 12
  xtag    : BitVec 12
  fault   : AccessFault
  deriving DecidableEq, Repr

/-- A request in the receive buffer of a station's port (R531). -/
inductive RxItem where
  | record (op : Opcode) (r : OpRec)
  | beacon (a : ApertureRead)
  | access (a : AccessIn)
  deriving DecidableEq, Repr

/-- A receiver of the engine that returns credits, beside the reports' (R520): a lane of a station's request channel, or the
receive side of a link port. -/
inductive RxChannel where
  | xpRequest (station lane : Nat)
  | kpReceive (port : Nat)
  deriving DecidableEq, Repr

/-- What an operation of two or more steps at its home still waits for. The answer goes to `entry`, `tag`;
an entry of 127 means that nobody waits for it (a destruction within a drain). `created` returns its two values, and
`retired` its index, once the chart commit has reached every replica (R28, R611). -/
inductive JobKind where
  | weirCreate (waiting : List Nat) (refused : Bool)
  | weirDestroy (waiting : List Nat) (word : Option Nat) (keeper : Option (BitVec 40))
  | beaconDestroy (word : Nat) (waiting : List Nat)
  | queueCreate
  | queueDestroy
  | ruleCreate (waiting : Nat) (refusal : Option Status) (granted : List (Nat × Nat × Bool))
  | ruleDestroy (waiting : Nat)
  | keeperExport (left : Nat) (image : List Byte)
  | keeperImport (left total : Nat) (parts : Table (List Byte)) (sumWord : BitVec 32) (bad : Bool)
  | created (a b : Word)
  | retired
  deriving DecidableEq, Repr

/-- A job at a home. -/
structure Job where
  hi    : BitVec 40
  kind  : JobKind
  entry : Nat
  tag   : Nat
  agent : Nat
  deriving DecidableEq, Repr

/-! ## Course messages -/

/-- A released or discarded seal's identity on the course (R235). -/
structure SealRef where
  hi     : BitVec 40
  xgen   : BitVec 8
  buffer : Nat
  entry  : Nat
  deriving DecidableEq, Repr

/-- A landing report on the course or kept at a station (R222, R224): how many stations have forwarded it after its attach
station, and the port whose credit it still holds (R538). -/
structure Report where
  handle  : Word
  fnStamp : Nat
  bytes   : Nat
  hops    : Nat
  port    : Option ReportPort
  deriving DecidableEq, Repr

/-- A shadow record without its seq (Table 12.8). -/
structure Shadow where
  handle  : Word
  valueA  : Word
  valueB  : Word
  valueC  : Word
  event   : Nat
  outcome : Status
  agent   : Nat
  deriving DecidableEq, Repr

/-- A capture entry (R468). -/
structure CaptureEntry where
  partition : Nat
  entry     : Payload
  deriving DecidableEq, Repr

/-- What moves in a migration's copy step (R349): the object with its eddies and watches, and a weir's home node. -/
structure CopyState where
  obj  : Obj
  node : Option Node
  deriving DecidableEq, Repr

/-- The body of a course message (Tables 1.5, 5.5, 9.3, 10.13). A `caravan` goes out from a station to a link's attach station,
or in from it (R422); an OP and its OP_PAYLOAD stand in one body, as two messages with nothing between them (R426). `all` tells
of a wake-all (R150) or a teardown (R180) that goes out with dest 127; `roles` is what a drained station's substitute takes
over in step V2 (R594). -/
inductive MsgBody where
  | fwdOp (f : FwdOp)
  | withdraw (entry wait : Nat) (handle : Word) (ref : Nat)
  | sealDeposit (r : SealRef) (address mask : Word) (data : Payload)
  | sealRelease (r : SealRef)
  | sealDiscard (r : SealRef)
  | sealRegister (r : SealRef) (reply : FwdOp)
  | refillRequest (handle : Word) (block : Nat)
  | reserveExtent (handle : Word) (length : Nat)
  | releaseExtent (handle : Word)
  | shadowRecord (s : Shadow)
  | imageRequest (handle : Word) (address length part : Nat) (data : Option (List Byte))
  | captureEntry (e : CaptureEntry)
  | register (object : Word) (slot threshold step : Nat) (rule : Word)
  | feedRegister (object : Word) (rule : Word)
  | validate (object : Word) (agent : Nat) (rule : Word)
  | activate (object : Word) (rule : Word) (slot armSeq : Nat)
  | deactivate (object : Word) (rule : Word) (slot : Nat)
  | consume (object : Word) (rule : Word) (slot armSeq : Nat)
  | consumeDormant (object : Word) (rule : Word) (slot armSeq : Nat)
  | releaseWatch (object : Word) (rule : Word) (slot : Nat) (feed : Bool)
  | feedPush (object : Word) (rule : Word) (token : Token)
  | registered (rule : Word) (refusal : Option Status) (slot : Nat) (src : Nat) (feed : Bool)
  | met (rule : Word) (slot armSeq : Nat)
  | lapsed (rule : Word) (slot : Nat) (feed : Bool) (status : Status)
  | released (rule : Word)
  | pushed (rule : Word) (status : Option Status)
  | launch (rule : Word) (engine : Nat) (scope fireSeq : Nat) (descriptor : Payload)
  | arrive (rule : Word) (weir : Word) (agent : Nat) (epoch : BitVec 32) (release scope : Nat)
  | loadSubscribe (subscribe : Bool)
  | digest (first : Nat) (loads : Table Nat)
  | rebindAck (handle : Word)
  | flush (handle : Word)
  | forwardDone (handle : Word)
  | report (r : Report)
  | copy (c : CopyState) (handle : Word) (segment last : Nat)
  | roles (station : Nat) (segment last : Nat)
  | spillSegment (handle : Word) (block segment : Nat) (data : Payload)
  | response (tag : Nat) (status : Status) (a b : Word) (data : Option Payload)
  | registeredWait (tag ref : Nat)
  | withdrawn (wait : Nat) (removed : Bool)
  | popGrant (handle : Word) (ref wait : Nat) (info : EndInfo)
  | beaconAck (word : Nat) (handle : Word)
  | freeNotice (buffer entry : Nat)
  | spillAccepted (handle : Word) (block : Nat)
  | spillRefused (handle : Word) (block : Nat)
  | extentReserved (handle : Word)
  | extentRefused (handle : Word)
  | extentReleased (handle : Word)
  | shadowWritten (handle : Word) (seq : Nat)
  | imagePart (handle : Word) (part : Nat) (bad : Bool) (data : List Byte)
  | launchAnswer (rule : Word) (status : Status) (engine : Nat)
  | copyAnswer (handle : Word) (accepted : Option (List (Nat × Nat)))
  | rolesTaken (station : Nat)
  | refillSegment (handle : Word) (block segment : Nat) (fail : Bool) (data : Payload)
  | combined (weir : Word) (parity break_ lost : Bool) (segment last : Nat) (data : Option Payload)
  | combinedMoved (weir : Word) (origin : Nat) (parity : Bool) (segment last : Nat) (data : Option Payload)
  | setupAck (weir : Word) (refused : Bool)
  | subscribe (weir : Word)
  | teardownAck (weir : Word)
  | completion (weir : Word) (outcome : Status) (parity : Bool) (result : Payload)
  | setup (weir : Word) (params : WeirParams) (home : Nat) (moving : Bool)
  | teardown (weir : Word) (all : Bool)
  | subscribeReply (weir : Word) (params : WeirParams) (open_ : BitVec 32) (state : Nat) (result : Payload)
  | chartCommit (index : Nat) (move home : Nat) (journaled : Bool)
  | chartClear (index : Nat)
  | caravan (out isSeal : Bool) (parts : List (Flit × List Flit))
  | wake (handle : Word) (ref : Nat) (grant : Option Word) (all : Bool) (waits : List Nat) (info : EndInfo)
  | rebind (handle : Word) (oldRef newRef newHome : Nat)
  | beaconUpdate (word : Nat) (value : Word) (free weir : Bool) (handle : Word)
  deriving DecidableEq, Repr

/-- A message on the course. -/
structure Msg where
  src  : Nat
  dst  : Nat
  body : MsgBody
  deriving DecidableEq, Repr

/-! ## A station -/

/-- station_state (Table 1.12). -/
inductive StationState where
  | active | dozing | reset | fenced | off | absent
  deriving DecidableEq, Repr

/-- A chart entry that is valid (Table 1.2). -/
structure ChartEntry where
  move : Nat
  home : Nat
  deriving DecidableEq, Repr

/-- The bucket of a function at a station: its level in 1/256 operation at an fc (R75). -/
structure Bucket where
  level : Nat
  at_   : Nat
  deriving DecidableEq, Repr

/-- The outgoing migration of a station (R344): index, new home, step of Table 10.14, stations still to
answer, and the object's eddy references at the old and the new home. -/
structure Migration where
  index    : Nat
  newHome  : Nat
  step     : Nat
  waiting  : List Nat
  handle   : Word
  drain    : Bool
  refs     : List (Nat × Nat)
  deriving DecidableEq, Repr

/-- The incoming migration of a station: index, old home, old and new eddy references, and until a weir's home node has
come, that node, for which the station keeps its records and slot free (R346). -/
structure Incoming where
  index   : Nat
  oldHome : Nat
  refs    : List (Nat × Nat)
  node    : Option Node
  deriving DecidableEq, Repr

/-- The throttle-hint output of a station (R187): its level, the fc of its last edge at hint_max_fc, and the
fc since which it is asserted. -/
structure Hint where
  level       : Bool
  since       : Nat
  blockedTill : Nat
  longest     : Nat
  deriving DecidableEq, Repr

/-- Messages that a home holds until shadow records are written (R408): the objects whose order they keep, the
records still to be written, and the messages. -/
structure ShadowHold where
  objs    : List (BitVec 40)
  waiting : List (BitVec 40)
  msgs    : List Msg
  deriving DecidableEq, Repr

/-- What waits behind an unfinished push on a queue (R256, R267): an operation, or a bridge's release of `n` tokens (R441). -/
inductive Held where
  | op (f : FwdOp)
  | release (bridge n : Nat)
  deriving DecidableEq, Repr

/-- A station (Table 1.1 and the state the chapters add to it). `budget` are the budget operations of both paths that wait to
be taken, oldest first, each with the number of excess operations that it waits behind (R45), and `excess` the excess
buffer (R77). `isolated` is the isolation of its power domain (R564), `migrateAt` the migrate_min_ops and migrate_votes
of the running tracker window where one of them has been written in it (R350), `holdPassed` whether
a request has once waited towpath_hold_fc for it (R572), `holdUntil` the fc at which the first of the requests in its receive
buffer has waited so long, under the limit of its acceptance (R531, R557). `sealsUsed` lists the seal entries of the
station's allotment that it has given out, each as 256·buffer + entry (R231);
`idleSince` is the fc of its latest foreground work, or of its doze entry while it dozes (R569, R570). -/
structure Station where
  state       : StationState
  isolated    : Bool
  holdPassed  : Bool
  objects     : Table Obj
  nodes       : Table Node
  chart       : Table ChartEntry
  buckets     : Table Bucket
  waiters     : List Waiter
  nextWait    : Nat
  openOps     : List OpenOp
  jobs        : List Job
  budget      : List (Nat × Adm)
  excess      : List Adm
  rx          : List RxItem
  holdUntil   : Nat
  blocked     : Table (List Held)
  ready       : List PushMsg
  pushUsed    : Table Nat
  pushSeq     : Table Nat
  beacon      : Table Word
  rspQueue    : List RspOut
  rspCredit   : Nat × Nat
  pushCredit  : Nat × Nat
  loads       : Table Nat
  mirror      : Table Nat
  subscribers : List Nat
  digestDue   : Table (List Nat)
  migrateAt   : Option (Nat × Nat)
  hint        : Hint
  heldReports : List Report
  outgoing    : Option Migration
  incoming    : Option Incoming
  frozen      : List FwdOp
  hold        : List FwdOp
  shadowHolds : List ShadowHold
  sealsUsed   : List Nat
  idleSince   : Nat
  deriving DecidableEq, Repr

/-! ## The ferry -/

/-- An extent entry (Table 9.1) less its seq, which outlives it. `releasing` is the home that waits for the extent's
release while transactions are outstanding (R311). -/
structure Extent where
  fn      : Nat
  gen     : Nat
  length  : Nat
  base    : Nat
  moving  : Bool
  newBase : Nat
  cursor  : Nat
  releasing : Option Nat
  deriving DecidableEq, Repr

/-- What a ferry transaction is for. `keeper` reads or writes byte 256·n of an image for the home; `capture`
is header zero (0), entries (1) or header (2). -/
inductive Purpose where
  | refill (handle : Word) (block : Nat) (home : Nat) (second : Bool)
  | spill (handle : Word) (block : Nat)
  | shadow (home : Nat) (handle : Word) (fn seq : Nat)
  | capture (partition part : Nat)
  | moveRead (index slot : Nat)
  | moveWrite (index slot : Nat)
  | keeper (handle : Word) (home : Nat) (n : Nat) (write : Bool)
  deriving DecidableEq, Repr

/-- A transaction of a slice: class, function charged, address, beats, data of a write (its bytes in address
order), stamp, and purpose. -/
structure Xact where
  cls     : FerryClass
  fn      : Nat
  address : Nat
  beats   : Nat
  data    : List Byte
  stamp   : Nat
  purpose : Purpose
  deriving DecidableEq, Repr

/-- A tag in use (R299): its transaction, when it is slow (R304), the beats received, an error seen, whether ferry_slow
was raised for it, and whether its result is to be discarded (R310, R537). -/
structure TagUse where
  tag     : Nat
  due     : Nat
  xact    : Xact
  beats   : List Beat
  bad     : Bool
  slow    : Bool
  discard : Bool
  deriving DecidableEq, Repr

/-- A spill whose four segments a slice is collecting: whether it accepted at segment 0, the segments, and
the sender (R297). -/
structure SpillIn where
  handle   : Word
  block    : Nat
  home     : Nat
  accepted : Bool
  segs     : List Payload
  deriving DecidableEq, Repr

/-- A shadow record issued and not yet answered (R409). -/
structure ShadowOut where
  fn     : Nat
  seq    : Nat
  home   : Nat
  handle : Word
  acked  : Bool
  deriving DecidableEq, Repr

/-- A capture (R466 to R470). `step`: 0 header being zeroed, 1 entries, 2 header being written, 3 done. `left` counts the
entries that have not arrived; `closed` tells that capture_limit_ac has passed. -/
structure Capture where
  partition : Nat
  step      : Nat
  start     : Nat
  buffer    : List Payload
  entries   : Nat
  omitted   : Nat
  left      : Nat
  crc       : BitVec 32
  closed    : Bool
  truncated : Bool
  acked     : Nat
  deriving DecidableEq, Repr

/-- A ferry slice (R284): extents and seqs by object index, spill buffers (each by its handle and block),
spills being received, waiting transactions oldest first, tags in use, slots used in the current window of 8
issue slots (R301), shadow records not answered, the running capture, and the functions whose drain it has not
reported (R310). -/
structure Slice where
  extents   : Table Extent
  seqs      : Table Nat
  spillBufs : List (Word × Nat)
  spillIn   : List SpillIn
  waiting   : List Xact
  tags      : List TagUse
  window    : List FerryClass
  shadowOut : List ShadowOut
  capture   : Option Capture
  draining  : List Nat
  deriving DecidableEq, Repr

/-- A seal entry in use (Table 7.7); `state`: 1 HELD, 2 WRITING. -/
structure SealEntry where
  data    : Payload
  mask    : Word
  address : Word
  hi      : BitVec 40
  xgen    : BitVec 8
  state   : Nat
  owner   : Nat
  deriving DecidableEq, Repr

/-- The credits of a ferry initiator's port, the seal writes outstanding on it by tag, and those waiting for credit,
each entry as 256·buffer + entry (R236, R535). -/
structure XiPort where
  reqCredit : Nat
  wrCredit  : Nat
  sealsOut  : Table Nat
  sealsWait : List Nat
  deriving DecidableEq, Repr

/-! ## Links -/

/-- A caravan to be sent: its head (seq and ack still zero) and bodies; an OP and its OP_PAYLOAD are one
unit of two caravans. `isSeal` says that it takes a seal credit; `relay` is the port on which a relayed one
arrived, whose credits return when it leaves (R428). -/
structure CaravanOut where
  parts  : List (Flit × List Flit)
  isSeal : Bool
  relay  : Option Nat
  deriving DecidableEq, Repr

/-- Link port states (Table 13.5). -/
inductive LinkState where
  | absent | down | up | lost
  deriving DecidableEq, Repr

/-- A link port (R423 to R429, R447). `unitOpen` holds from an OP's presentation until that of its OP_PAYLOAD, `opPart` is an
OP accepted whose OP_PAYLOAD has not come (R426). `lossDue` is the ac at which the port becomes LOST unless it is ready or an ack
advances before, `retxDue` the fc at which it sends its held caravans again, and `ackBy` the fc by which it owes an ack (R425,
R447). `owedFlits` and `owedReports` are the receive credits that a drain withholds (R602). -/
structure Link where
  state      : LinkState
  everUp     : Bool
  ready      : Bool
  txSeq      : Nat
  rxSeq      : Nat
  ackSent    : Nat
  discarding : Bool
  ackDue     : Bool
  held       : List (Nat × Flit × List Flit)
  resend     : List (Nat × Flit × List Flit)
  control    : List (Flit × List Flit)
  weirWait   : List CaravanOut
  opWait     : List CaravanOut
  weirCredit : Nat
  opCredit   : Nat
  sealCredit : Nat
  budget     : Nat
  budgetAt   : Nat
  flitCredit : Nat
  peer       : Nat
  unitOpen   : Bool
  opPart     : Option (Flit × List Flit)
  lossDue    : Nat
  retxDue    : Nat
  ackBy      : Nat
  owedFlits  : Nat
  owedReports : Nat
  deriving DecidableEq, Repr

/-- An outstanding operation or token group of a bridge: op_tag, tokens it covers, chip it went to. -/
structure BridgeItem where
  opTag  : BitVec 16
  tokens : Nat
  dest   : Nat
  deriving DecidableEq, Repr

/-- A bridge's work (R441 to R445): what it has sent and not released, the tokens popped of a packet that is not whole yet,
and the releases that wait for its queue's migration to end (R345). -/
structure Bridge where
  items   : List BridgeItem
  partial_ : List Token
  owed     : List Nat
  deriving DecidableEq, Repr

/-! ## Functions, partitions, cores -/

/-- Function states (Table 2.6). -/
inductive FnState where
  | disabled | enabled | draining | retired
  deriving DecidableEq, Repr

/-- A function drain in progress (Table 14.5): step 1 to 7, its partition's reset or an owner disable, whether
the flight wait has ended, the slices still to report in D5, and the ac at which D1 began. -/
structure FnDrain where
  step       : Nat
  forReset   : Bool
  flightDone : Bool
  slices     : List Nat
  began      : Nat
  owed       : List (Nat × ReplyTo)
  deriving DecidableEq, Repr

/-- What the control station holds of a function: state, fn_generation, backwater key, drain, the enable
that waits for entropy, and the seq of its shadow records. -/
structure Fn where
  state      : FnState
  generation : Nat
  key        : Option (BitVec 256)
  drain      : Option FnDrain
  enabling   : Option HostReq
  shadowNext : Nat
  deriving DecidableEq, Repr

/-- Partition states (Table 14.6). -/
inductive PartState where
  | ready | frozen | resetting | outOfService
  deriving DecidableEq, Repr

/-- A partition's reset sequence (Tables 14.6 and 14.7): step P1 to P5, cores whose interface reset is
outstanding, state blocks taken, times of its entries to FROZEN, the request and acknowledge lines, the
heartbeat watch's last value and next read, the time limit of the reset request, its captures since power-up (R469), and
its fault record (Table 14.3). Step 6 is a request that an engine reset has met (R482). -/
structure Partition where
  state    : PartState
  step     : Nat
  waiting  : List Nat
  blocks   : Table (BitVec 256)
  entries  : List Nat
  req      : Bool
  ack      : Bool
  lastBeat : Option Word
  beatDue  : Nat
  due      : Nat
  captures : Nat
  fault    : BitVec 256
  deriving DecidableEq, Repr

/-- A core command outstanding on the cp port (R546): kind 1 interface reset, 2 fence, 3 unfence; the spare
named; the logical core; for a partition's sequence, its partition; and the ac of its time limit. -/
structure CoreCmd where
  kind      : Nat
  phys      : Nat
  spare     : Option Nat
  logical   : Option Nat
  partition : Option Nat
  due       : Nat
  deriving DecidableEq, Repr

/-! ## Management -/

/-- Ownership states (Table 15.10). -/
inductive OwnerState where
  | unowned | electing | owned | handing
  deriving DecidableEq, Repr

/-- A claim held in an election (R502). -/
structure Claim where
  host     : Nat
  priority : Nat
  nonce    : Nat
  deriving DecidableEq, Repr

/-- The ownership state (R501). -/
structure Owner where
  state     : OwnerState
  host      : Nat
  epoch     : Nat
  priority  : Nat
  deadline  : Nat
  remaining : Nat
  claims    : List Claim
  target    : Nat
  deriving DecidableEq, Repr

/-- An entry of the event log (R507). -/
structure Event where
  seq     : Nat
  code    : Nat
  fixed   : Bool
  time    : Nat
  record  : BitVec 256
  deriving DecidableEq, Repr

/-- A subscription slot (R509) with its delivery state (R511, R512): the sequences acknowledged or raised
before it (everything below `next` is done), the event outstanding, its sends, and when it is sent again. -/
structure Sub where
  host        : Nat
  mask        : BitVec 128
  next        : Nat
  outstanding : Option Nat
  sends       : Nat
  due         : Nat
  deriving DecidableEq, Repr

/-- MCTP message assembly: source, tag, owner bit, next packet sequence, bytes so far (R497). -/
structure Assembly where
  src   : Nat
  tag   : Nat
  next  : Nat
  bytes : List Byte
  deriving DecidableEq, Repr

/-- The management transport (R496 to R499, R543, R544): messages being assembled, packets waiting to be read, the
interrupt request and its mandatory byte, whether one for the first packet has been accepted, when a refused one is made again, for each host
whose request came as a message and is not answered yet its message tag and instance tag, and the answers that wait for
the management controller's restart to end (R605): host, command, result code and body. -/
structure Transport where
  assembly   : List Assembly
  txQueue    : List (List Byte)
  ibiReq     : Bool
  ibiMdb     : Nat
  ibiTaken   : Bool
  ibiRetryAt : Option Nat
  requests   : Table (Nat × Nat)
  held       : List (Nat × Nat × Nat × List Byte)
  deriving DecidableEq, Repr

/-- The register window (Table 15.9). -/
structure Window where
  go        : Bool
  command   : BitVec 8
  result    : BitVec 8
  index     : BitVec 16
  subindex  : BitVec 8
  offset    : BitVec 32
  length    : BitVec 11
  epoch     : BitVec 32
  arg0      : BitVec 32
  arg1      : BitVec 32
  irqEnable : Bool
  data      : List Byte
  deriving DecidableEq, Repr

/-- What the control station draws entropy for (R548): the endpoint UUID, the engine tag key, or a
function's backwater key. -/
inductive Need where
  | uuid
  | tagKey
  | fnKey (fn : Nat)
  deriving DecidableEq, Repr

/-- The entropy port (R548): needs oldest first, words taken for the first of them, the request line, consecutive
failed attempts, and when a request lowered by an error is made again. -/
structure Entropy where
  needs   : List Need
  words   : List Word
  req     : Bool
  fails   : Nat
  retryAt : Nat
  deriving DecidableEq, Repr

/-- debug_state (R513). -/
inductive DebugState where
  | locked | zeroising | unlocked
  deriving DecidableEq, Repr

/-- The running service command (R592): unit kind, number, action, step of Tables 18.4 to 18.6, whether the engine
started it itself (R590), the time limit of its step, and whether the substitute has acknowledged the roles of step V2
(R594): 0 not sent, 1 sent, 2 acknowledged. -/
structure Service where
  kind    : Nat
  number  : Nat
  action  : Nat
  step    : Nat
  auto    : Bool
  due     : Nat
  roles   : Nat
  deriving DecidableEq, Repr

/-- Power, clock and reset pins and the power-up sequence (Tables 16.19 and 17.3). `phase`: 0 running, 1 held
in always-on reset, 2 between its release and the end of step U4. `pdDue` gives the time limit of each domain
handshake outstanding, and `resetting` holds while an engine reset waits for its tag key or for station domains (R481,
R567). `cmdFree` is the first ac in which the cp port has no core command on it (R546). -/
structure Power where
  phase     : Nat
  aonRstN   : Bool
  clamp     : Bool
  present   : Bool
  fcReq     : Bool
  fcAck     : Bool
  pdReq     : List Nat
  pdAck     : List Nat
  pdDue     : Table Nat
  resetting : Bool
  engineOos : Bool
  cmdFree   : Nat
  deriving DecidableEq, Repr

/-- A transfer that the engine drives onto a port. -/
inductive Output where
  | response (station lane : Nat) (r : RspOut)
  | push (station lane : Nat) (m : PushMsg) (pushSeq : Nat)
  | xiRequest (initiator : Nat) (write : Bool) (beats : Nat) (address : Nat) (stamp tag : Nat)
  | xiWrite (initiator : Nat) (data : List Byte) (mask : Nat)
  | caravan (port : Nat) (head : Flit) (bodies : List Flit)
  | coreCommand (kind : Nat) (spare : Option Nat) (phys logical : Nat)
  | hostAnswer (host : Nat) (command : Nat) (result : Nat) (body : List Byte)
  | mctp (bytes : List Byte)
  | reportCredit (port : ReportPort)
  | credit (c : RxChannel)
  | windowAck (data : BitVec 32)
  deriving DecidableEq, Repr

/-- The index keeper of a station (R64): indices put back at the head, how many never-issued indices have been
issued, and the tail of returned indices. -/
structure IndexKeeper where
  head  : List Nat
  fresh : Nat
  tail  : List Nat
  deriving DecidableEq, Repr

/-- The engine. -/
structure State where
  /-- Commands that wait, first in, first out. -/
  pending    : List Instr
  /-- Transfers driven onto the ports since reset, oldest first. -/
  outputs    : List Output
  gelari     : Gelari
  maps       : Maps
  clock      : Clock
  /-- Dictionary values and counters, keyed by 256·index + subindex; absent means the entry's default. -/
  dict       : Table Nat
  /-- Per-function values and counters, keyed by 256·function + subindex; absent means the default. -/
  fnDict     : Table Nat
  /-- routing_table of each link port (R417). -/
  routes     : Table RunMap
  fns        : Table Fn
  tagKey     : BitVec 128
  stations   : Table Station
  course     : List Msg
  /-- Requests on functions that wait while an enable waits for its key, oldest first (R93): each a WRITE, its entry and its
  data. -/
  fnQueue    : List (HostReq × EntryRef × List Byte)
  /-- Answers to operations that came from a link, until the attach station acts on them in the same step. -/
  linkWork   : List (Nat × ReplyTo × Rsp)
  /-- Shadow records that the home step in progress has caused (R407); empty between steps. -/
  shadowDue  : List Shadow
  keepers    : Table IndexKeeper
  indexGen   : Table Nat
  /-- Owner of each allocated beacon word: the function (R123, R126). -/
  words      : Table Nat
  /-- Journal records (Table 10.15): station to (function, index, old home, new home, state). -/
  journal    : Table (Nat × Nat × Nat × Nat × Nat)
  slices     : Table Slice
  xi         : Table XiPort
  seals      : Table SealEntry
  links      : Table Link
  bridges    : Table Bridge
  partitions : Table Partition
  fenced     : List Nat
  /-- The logical number that a physical core had before it moved to another (R474). -/
  moved      : Table Nat
  coreCmds   : List CoreCmd
  /-- Times of the advances of the engine count (R477). -/
  advances   : List Nat
  owner      : Owner
  log        : List Event
  lossOpen   : Bool
  subs       : Table Sub
  transport  : Transport
  window     : Window
  entropy    : Entropy
  debug      : DebugState
  service    : Option Service
  /-- Substitutes of drained stations (R593): station to substitute. -/
  substitute : Table Nat
  /-- Service state of initiators, landing ports and link ports, keyed by 256·kind + number: 1 DRAINING,
  2 OUT_OF_SERVICE, 3 TESTING; absent means IN_SERVICE (R599). -/
  unitState  : Table Nat
  /-- Whether the management controller restarts: why, 1 watchdog, 2 owner, and since when (R605). -/
  restarting : Option (Nat × Nat)
  /-- The ac at which the watchdog's running window ends, where no heartbeat has started another (R454; log entry 51). -/
  watchdogDue : Nat
  /-- Stations whose drain after a wake fault has not begun, oldest first (R597). -/
  drainsOwed : List Nat
  /-- Wrapper instruction registers that do not hold the functional instruction, keyed by station: 1 INTEST, 2 EXTEST (R604). -/
  wrappers   : Table Nat
  /-- Histogram bins, keyed by 16·histogram + bin (Table 18.8). -/
  bins       : Table Nat
  /-- Consecutive replays of the flit at each link and the fc of the latest, keyed by 4·station + link (R590). -/
  replays    : Table (Nat × Nat)
  /-- Calibration windows until clock_drift may be raised again (R606). -/
  driftAge   : Nat
  power      : Power
  deriving DecidableEq, Repr

/-! ## Reset -/

/-- A station with nothing in it (R481: an engine reset clears every store of a station). -/
def Station.empty (st : StationState) : Station where
  state       := st
  isolated    := false
  holdPassed  := false
  objects     := []
  nodes       := []
  chart       := []
  buckets     := []
  waiters     := []
  nextWait    := 0
  openOps     := []
  jobs        := []
  budget      := []
  excess      := []
  rx          := []
  holdUntil   := 0
  blocked     := []
  ready       := []
  pushUsed    := []
  pushSeq     := []
  beacon      := []
  rspQueue    := []
  rspCredit   := (0, 0)
  pushCredit  := (0, 0)
  loads       := []
  mirror      := []
  subscribers := []
  digestDue   := []
  migrateAt   := none
  hint        := ⟨false, 0, 0, 0⟩
  heldReports := []
  outgoing    := none
  incoming    := none
  frozen      := []
  hold        := []
  shadowHolds := []
  sealsUsed   := []
  idleSince   := 0

/-- The maps of the reference floorplan (32 rows of 33 cores, one spare a row). DESIGN CHOICE (log entry 2):
core `n` enters at station `n / 32` and is physical core `33 * (n / 32) + n % 32`; auxiliary agent `m` below
12 is link port `m` and enters at its attach station; every row's spare is its last core. -/
def Maps.reference : Maps where
  entry := ((List.range 32).map fun k => ⟨32 * k, 32, k, 0⟩) ++
    ((List.range 12).map fun m => ⟨2048 + m, 1, 4 * (m % 8), 0⟩)
  site := ((List.range 32).map fun k => ⟨32 * k, 32, k, 0⟩) ++
    ((List.range 12).map fun m => ⟨2048 + m, 1, 4 * (m % 8), 0⟩)
  rowRemap := (List.range 32).map fun k => ⟨32 * k, 32, 33 * k, 1⟩
  spare := [⟨0, 32, 32, 33⟩]
  spareUsed := []
  partition := []

/-- The reference configuration IX7420-32/24/12 (R8, Table 0.1) with the reference decode and depths
(Tables 16.12 and 16.13). DESIGN CHOICE (log entry 2): attach stations, aperture bases, distances,
gelari_version, build_id and landing_flight_max_ac, which the integrator gives. -/
def Gelari.reference : Gelari where
  stations := 32
  spares := 0
  landingPorts := 24
  linkPorts := 12
  initiators := 8
  stages := 2
  fastKhz := 1750000
  mailboxDepth := 8
  xpReqCredits := 8
  lpCredits := 4
  kpRxCredits := 32
  landingFlightAc := 500
  stackShift := 12
  groupShift := 8
  groupsPerStack := 16
  stackCount := 24
  stagesRequired := 2
  version := 1
  buildId := 1
  apertureBase := [⟨0, 32, 0x100000000, 0x10000⟩]
  attachLanding := List.range 24
  attachLink := (List.range 12).map fun k => 4 * (k % 8)
  attachFerry := (List.range 8).map (4 * ·)
  landingGroup := (List.range 24).map (· / 3)
  spareAnchors := []
  spareSite := (List.range 32).map fun r => ⟨r, 1, r, 0⟩
  distance := (List.range 32).flatMap fun i =>
    [⟨128 * i, i, 10 + 2 * (32 - i), 2⟩, ⟨129 * i, 32 - i, 10, 2⟩, ⟨128 * i + 96, 24, 30, 0⟩]
  coreRow := (List.range 32).map fun r => ⟨32 * r, 32, r, 0⟩
  maps := Maps.reference
  configName := [0x49, 0x58, 0x37, 0x34, 0x32, 0x30, 0x2D, 0x33, 0x32, 0x2F, 0x32, 0x34, 0x2F, 0x31, 0x32]

/-- A link port after reset (R447, R449). -/
def Link.initial : Link where
  state      := .down
  everUp     := false
  ready      := false
  txSeq      := 0
  rxSeq      := 0
  ackSent    := 0
  discarding := false
  ackDue     := false
  held       := []
  resend     := []
  control    := []
  weirWait   := []
  opWait     := []
  weirCredit := 0
  opCredit   := 0
  sealCredit := 0
  budget     := 0
  budgetAt   := 0
  flitCredit := 0
  peer       := 0xFFFF
  unitOpen   := false
  opPart     := none
  lossDue    := 250000
  retxDue    := 0
  ackBy      := 0
  owedFlits  := 0
  owedReports := 0

/-- A partition after reset (R461). -/
def Partition.initial : Partition := ⟨.ready, 0, [], [], [], false, false, none, 0, 0, 0, 0⟩

/-- A ferry slice after reset (R289, R299). -/
def Slice.initial : Slice where
  extents   := []
  seqs      := []
  spillBufs := []
  spillIn   := []
  waiting   := []
  tags      := []
  window    := []
  shadowOut := []
  capture   := none
  draining  := []

/-- The register window after reset (Table 15.9). -/
def Window.initial : Window :=
  ⟨false, 0, 0, 0, 0, 0, 0, 0, 0, 0, false, []⟩

/-- The ownership state after always-on reset (R501). -/
def Owner.initial : Owner :=
  ⟨.unowned, 0, 0, 0, 0, 0, [], 0⟩

/-- Power, clock and reset pins of a running engine (steps U1 to U6 done). -/
def Power.running (g : Gelari) : Power where
  phase     := 0
  aonRstN   := true
  clamp     := false
  present   := true
  fcReq     := true
  fcAck     := true
  pdReq     := List.range g.stations
  pdAck     := List.range g.stations
  pdDue     := []
  resetting := false
  engineOos := false
  cmdFree   := 0

/-- The machine right after its power-up sequence (Table 16.19) in the reference configuration: stations
ACTIVE, every function DISABLED, no owner, every table empty and every setting at its default. DESIGN CHOICE
(log entry 3): both clocks at 0, the fast clock at its nominal frequency, and the tag key and the endpoint UUID, which are drawn from the entropy port
during power-up, at 0. -/
def State.reset : State where
  pending    := []
  outputs    := []
  gelari     := Gelari.reference
  maps       := Gelari.reference.maps
  clock      := ⟨0, 0, 0, 1750000⟩
  dict       := []
  fnDict     := []
  routes     := []
  fns        := []
  tagKey     := 0
  stations   := (List.range 32).map fun n => (n, Station.empty .active)
  course     := []
  fnQueue    := []
  linkWork   := []
  shadowDue  := []
  keepers    := []
  indexGen   := []
  words      := []
  journal    := []
  slices     := (List.range 8).map fun j => (j, Slice.initial)
  xi         := (List.range 8).map fun j => (j, ⟨0, 0, [], []⟩)
  seals      := []
  links      := (List.range 12).map fun k => (k, Link.initial)
  bridges    := []
  partitions := []
  fenced     := []
  moved      := []
  coreCmds   := []
  advances   := []
  owner      := Owner.initial
  log        := []
  lossOpen   := false
  subs       := []
  transport  := ⟨[], [], false, 0, false, none, [], []⟩
  window     := Window.initial
  entropy    := ⟨[], [], false, 0, 0⟩
  debug      := .locked
  service    := none
  substitute := []
  unitState  := []
  restarting := none
  watchdogDue := 2500000
  drainsOwed := []
  wrappers   := []
  bins       := []
  replays    := []
  driftAge   := 0
  power      := Power.running Gelari.reference

end Sys2Proof.Machine
end

