-- ==== Sys2Proof/Machine/Entries.lean ====
section
/-!
DEFINITION. The object dictionary's entries as the chapters' tables list them (R484): key (256 times the index
plus the subindex), type, right, size in bytes, default and range. The defaults of entries that the model
computes from its state (counts of live records, states of units, the constants of the configuration) stand as 0
here and are read through `Machine/Dictionary.lean`.
-/

namespace Sys2Proof.Machine

/-- Entry types (Table 15.1). -/
inductive EntryType where
  | u8 | u16 | u32 | u64 | bool | enum | bitset | handle | blob
  deriving DecidableEq, Repr

/-- Entry rights (Table 15.2). -/
inductive EntryRight where
  | ro | rw | wo
  deriving DecidableEq, Repr

/-- A row of a dictionary table: the keys `first` to `last` share it. Of a per-function row the keys are
subindices. `lo` and `hi` are the least and the greatest value of a scalar. -/
structure EntryRow where
  first   : Nat
  last    : Nat
  type    : EntryType
  right   : EntryRight
  size    : Nat
  default : Nat
  lo      : Nat
  hi      : Nat
  deriving DecidableEq, Repr

/-- Entries of one index range (R484): vendor_pen, product, hw_release, contract_edition, gelari_version,
config_name, build_id, stations, spare_stations, landing_ports, link_ports, ferry_initiators,
course_stages, course_columns, course_rows, course_diameter, fast_clock_khz, cores_present. -/
def dictRows10 : List EntryRow := [
  ⟨0x100001, 0x100001, .u32, .ro, 4, 115955, 0, 4294967295⟩,
  ⟨0x100002, 0x100002, .u16, .ro, 2, 29728, 0, 65535⟩,
  ⟨0x100003, 0x100003, .u16, .ro, 2, 512, 0, 65535⟩,
  ⟨0x100004, 0x100004, .u8, .ro, 1, 3, 0, 255⟩,
  ⟨0x100005, 0x100005, .u32, .ro, 4, 0, 0, 4294967295⟩,
  ⟨0x100006, 0x100006, .blob, .ro, 16, 0, 0, 0⟩,
  ⟨0x100007, 0x100007, .blob, .ro, 16, 0, 0, 0⟩,
  ⟨0x100010, 0x100010, .u8, .ro, 1, 0, 0, 255⟩,
  ⟨0x100011, 0x100011, .u8, .ro, 1, 0, 0, 255⟩,
  ⟨0x100012, 0x100012, .u8, .ro, 1, 0, 0, 255⟩,
  ⟨0x100013, 0x100013, .u8, .ro, 1, 0, 0, 255⟩,
  ⟨0x100014, 0x100014, .u8, .ro, 1, 0, 0, 255⟩,
  ⟨0x100015, 0x100015, .u8, .ro, 1, 0, 0, 255⟩,
  ⟨0x100016, 0x100016, .u8, .ro, 1, 0, 0, 255⟩,
  ⟨0x100017, 0x100017, .u8, .ro, 1, 0, 0, 255⟩,
  ⟨0x100018, 0x100018, .u8, .ro, 1, 0, 0, 255⟩,
  ⟨0x100019, 0x100019, .u32, .ro, 4, 0, 0, 4294967295⟩,
  ⟨0x10001A, 0x10001A, .u16, .ro, 2, 0, 0, 65535⟩]

/-- Entries of one index range (R484): owner_host, owner_epoch, owner_priority, lease_remaining_ac,
owner_state, lease_ac, claim_window_ac, handover_ac, engine_eid, endpoint_uuid, subscription,
event_retry_ac, event_retry_limit, event_log, event_seq, events_replaced, events_unlogged, packets_bad,
requests_refused, debug_command, debug_state, zeroisations, debug_record. -/
def dictRows20 : List EntryRow := [
  ⟨0x200101, 0x200101, .u16, .ro, 2, 0, 0, 65535⟩,
  ⟨0x200102, 0x200102, .u32, .ro, 4, 0, 0, 4294967295⟩,
  ⟨0x200103, 0x200103, .u8, .ro, 1, 0, 0, 255⟩,
  ⟨0x200104, 0x200104, .u32, .ro, 4, 0, 0, 4294967295⟩,
  ⟨0x200105, 0x200105, .enum, .ro, 1, 0, 0, 3⟩,
  ⟨0x200201, 0x200201, .u32, .rw, 4, 25000000, 25, 4294967295⟩,
  ⟨0x200202, 0x200202, .u32, .rw, 4, 2500, 1, 25000000⟩,
  ⟨0x200203, 0x200203, .u32, .rw, 4, 250000, 0, 4294967295⟩,
  ⟨0x200300, 0x200300, .u8, .ro, 1, 0, 0, 255⟩,
  ⟨0x200301, 0x200301, .blob, .ro, 16, 0, 0, 0⟩,
  ⟨0x200400, 0x200407, .blob, .ro, 20, 0, 0, 0⟩,
  ⟨0x200501, 0x200501, .u32, .rw, 4, 25000, 0, 4294967295⟩,
  ⟨0x200502, 0x200502, .u8, .rw, 1, 8, 1, 255⟩,
  ⟨0x200600, 0x200600, .blob, .ro, 12288, 0, 0, 0⟩,
  ⟨0x200601, 0x200601, .u32, .ro, 4, 1, 0, 4294967295⟩,
  ⟨0x200602, 0x200602, .u64, .ro, 8, 0, 0, 18446744073709551615⟩,
  ⟨0x200603, 0x200603, .u32, .ro, 4, 0, 0, 4294967295⟩,
  ⟨0x200701, 0x200701, .u64, .ro, 8, 0, 0, 18446744073709551615⟩,
  ⟨0x200702, 0x200702, .u64, .ro, 8, 0, 0, 18446744073709551615⟩,
  ⟨0x200800, 0x200800, .enum, .wo, 1, 0, 0, 1⟩,
  ⟨0x200801, 0x200801, .enum, .ro, 1, 0, 0, 2⟩,
  ⟨0x200802, 0x200802, .u32, .ro, 4, 0, 0, 4294967295⟩,
  ⟨0x200803, 0x200803, .blob, .ro, 32, 0, 0, 0⟩]

/-- Entries of one index range (R484): station_state, spare_state, chart_version, doze_enable,
station_doze_cycles, station_wake_fc, station_wake_faults, station_wakes, doze_fc, forward_retry_count,
course_credit_stall_fc, entry_map. -/
def dictRows21 : List EntryRow := [
  ⟨0x210200, 0x21023F, .enum, .ro, 1, 0, 0, 5⟩,
  ⟨0x210240, 0x210241, .enum, .ro, 1, 0, 0, 5⟩,
  ⟨0x210300, 0x210300, .u64, .ro, 8, 0, 0, 18446744073709551615⟩,
  ⟨0x210401, 0x210401, .bool, .rw, 1, 1, 0, 1⟩,
  ⟨0x210402, 0x210402, .u32, .rw, 4, 4096, 64, 1048576⟩,
  ⟨0x210403, 0x210403, .u8, .ro, 1, 24, 0, 255⟩,
  ⟨0x210404, 0x210404, .u32, .ro, 4, 0, 0, 4294967295⟩,
  ⟨0x210405, 0x210405, .u64, .ro, 8, 0, 0, 18446744073709551615⟩,
  ⟨0x210406, 0x210406, .u64, .ro, 8, 0, 0, 18446744073709551615⟩,
  ⟨0x210501, 0x210501, .u64, .ro, 8, 0, 0, 18446744073709551615⟩,
  ⟨0x210502, 0x210502, .u64, .ro, 8, 0, 0, 18446744073709551615⟩,
  ⟨0x210600, 0x210600, .blob, .ro, 2112, 0, 0, 0⟩]

/-- Entries of one index range (R484): core_partition_map, reserve_totals, share_rate_total,
share_burst_total, retired_functions, badhandle_event_step. -/
def dictRows22 : List EntryRow := [
  ⟨0x220100, 0x220100, .blob, .rw, 2048, 0, 0, 0⟩,
  ⟨0x220201, 0x220205, .u32, .ro, 4, 0, 0, 4294967295⟩,
  ⟨0x220301, 0x220301, .u16, .ro, 2, 0, 0, 65535⟩,
  ⟨0x220302, 0x220302, .u16, .ro, 2, 0, 0, 65535⟩,
  ⟨0x220400, 0x220400, .bitset, .ro, 512, 0, 0, 0⟩,
  ⟨0x220500, 0x220500, .u32, .rw, 4, 256, 0, 4294967295⟩]

/-- Entries of one index range (R484): aperture_base, wake_mailbox_depth, hold_cap_ac, beacon_words_free,
ops_accepted, ops_refused, messages_pushed, push_credit_stall_fc, aperture_errors, held_reads_open,
timeouts. -/
def dictRows23 : List EntryRow := [
  ⟨0x230100, 0x230141, .u64, .ro, 8, 0, 0, 18446744073709551615⟩,
  ⟨0x230200, 0x230200, .u8, .ro, 1, 0, 0, 255⟩,
  ⟨0x230300, 0x230300, .u32, .rw, 4, 0, 0, 4294967295⟩,
  ⟨0x230400, 0x230400, .u16, .ro, 2, 512, 0, 65535⟩,
  ⟨0x230501, 0x230501, .u64, .ro, 8, 0, 0, 18446744073709551615⟩,
  ⟨0x230502, 0x230502, .u64, .ro, 8, 0, 0, 18446744073709551615⟩,
  ⟨0x230503, 0x230503, .u64, .ro, 8, 0, 0, 18446744073709551615⟩,
  ⟨0x230504, 0x230504, .u64, .ro, 8, 0, 0, 18446744073709551615⟩,
  ⟨0x230505, 0x230505, .u32, .ro, 4, 0, 0, 4294967295⟩,
  ⟨0x230506, 0x230506, .u32, .ro, 4, 0, 0, 4294967295⟩,
  ⟨0x230507, 0x230507, .u64, .ro, 8, 0, 0, 18446744073709551615⟩]

/-- Entries of one index range (R484): eddies_per_counter, wake_broadcast_threshold, counters_live,
eddies_live, eddy_refusals, grants, withdraw_races. -/
def dictRows24 : List EntryRow := [
  ⟨0x240100, 0x240100, .u8, .ro, 1, 8, 0, 255⟩,
  ⟨0x240200, 0x240200, .u8, .rw, 1, 8, 0, 255⟩,
  ⟨0x240301, 0x240301, .u32, .ro, 4, 0, 0, 4294967295⟩,
  ⟨0x240302, 0x240302, .u32, .ro, 4, 0, 0, 4294967295⟩,
  ⟨0x240303, 0x240303, .u64, .ro, 8, 0, 0, 18446744073709551615⟩,
  ⟨0x240304, 0x240304, .u64, .ro, 8, 0, 0, 18446744073709551615⟩,
  ⟨0x240305, 0x240305, .u64, .ro, 8, 0, 0, 18446744073709551615⟩]

/-- Entries of one index range (R484): weirs_live, weir_nodes_live, throttle_hint_enable, hint_missing,
hint_overdue_fc, hint_max_fc, completions, weirs_broken, hints_asserted. -/
def dictRows25 : List EntryRow := [
  ⟨0x250101, 0x250101, .u32, .ro, 4, 0, 0, 4294967295⟩,
  ⟨0x250102, 0x250102, .u32, .ro, 4, 0, 0, 4294967295⟩,
  ⟨0x250200, 0x250200, .bool, .rw, 1, 0, 0, 1⟩,
  ⟨0x250201, 0x250201, .u8, .rw, 1, 1, 0, 255⟩,
  ⟨0x250202, 0x250202, .u16, .rw, 2, 256, 0, 65535⟩,
  ⟨0x250203, 0x250203, .u16, .rw, 2, 2048, 0, 65535⟩,
  ⟨0x250301, 0x250301, .u64, .ro, 8, 0, 0, 18446744073709551615⟩,
  ⟨0x250302, 0x250302, .u64, .ro, 8, 0, 0, 18446744073709551615⟩,
  ⟨0x250303, 0x250303, .u64, .ro, 8, 0, 0, 18446744073709551615⟩]

/-- Entries of one index range (R484): slots_in_use, slot_refusals, nonfinite_epochs, int_saturations. -/
def dictRows26 : List EntryRow := [
  ⟨0x260101, 0x260101, .u32, .ro, 4, 0, 0, 4294967295⟩,
  ⟨0x260102, 0x260102, .u64, .ro, 8, 0, 0, 18446744073709551615⟩,
  ⟨0x260103, 0x260103, .u64, .ro, 8, 0, 0, 18446744073709551615⟩,
  ⟨0x260104, 0x260104, .u64, .ro, 8, 0, 0, 18446744073709551615⟩]

/-- Entries of one index range (R484): landing_live, reports_credited, discard_fn_state, discard_malformed,
discard_tag, discard_object, discard_late, seal_groups, seal_share, landing_group_map,
landing_flight_max_ac, seals_written, seals_discarded_total, seal_entries_held. -/
def dictRows27 : List EntryRow := [
  ⟨0x270101, 0x270101, .u32, .ro, 4, 0, 0, 4294967295⟩,
  ⟨0x270102, 0x270102, .u64, .ro, 8, 0, 0, 18446744073709551615⟩,
  ⟨0x270201, 0x270201, .u64, .ro, 8, 0, 0, 18446744073709551615⟩,
  ⟨0x270202, 0x270202, .u64, .ro, 8, 0, 0, 18446744073709551615⟩,
  ⟨0x270203, 0x270203, .u64, .ro, 8, 0, 0, 18446744073709551615⟩,
  ⟨0x270204, 0x270204, .u64, .ro, 8, 0, 0, 18446744073709551615⟩,
  ⟨0x270205, 0x270205, .u64, .ro, 8, 0, 0, 18446744073709551615⟩,
  ⟨0x270300, 0x270300, .u8, .ro, 1, 0, 0, 255⟩,
  ⟨0x270301, 0x270301, .u8, .ro, 1, 0, 0, 255⟩,
  ⟨0x270302, 0x270302, .blob, .ro, 32, 0, 0, 0⟩,
  ⟨0x270400, 0x270400, .u32, .ro, 4, 0, 0, 4294967295⟩,
  ⟨0x270501, 0x270501, .u64, .ro, 8, 0, 0, 18446744073709551615⟩,
  ⟨0x270502, 0x270502, .u64, .ro, 8, 0, 0, 18446744073709551615⟩,
  ⟨0x270503, 0x270503, .u32, .ro, 4, 0, 0, 4294967295⟩]

/-- Entries of one index range (R484): queues_live, tokens_pushed, tokens_popped, q_idle_default_ac,
refill_ahead, spills, retained_spills, refills, idle_tails, spill_wait_fc, queue_faults. -/
def dictRows28 : List EntryRow := [
  ⟨0x280101, 0x280101, .u32, .ro, 4, 0, 0, 4294967295⟩,
  ⟨0x280102, 0x280102, .u64, .ro, 8, 0, 0, 18446744073709551615⟩,
  ⟨0x280103, 0x280103, .u64, .ro, 8, 0, 0, 18446744073709551615⟩,
  ⟨0x280200, 0x280200, .u32, .rw, 4, 250, 0, 4294967295⟩,
  ⟨0x280300, 0x280300, .u8, .rw, 1, 8, 1, 15⟩,
  ⟨0x280401, 0x280401, .u64, .ro, 8, 0, 0, 18446744073709551615⟩,
  ⟨0x280402, 0x280402, .u64, .ro, 8, 0, 0, 18446744073709551615⟩,
  ⟨0x280403, 0x280403, .u64, .ro, 8, 0, 0, 18446744073709551615⟩,
  ⟨0x280404, 0x280404, .u64, .ro, 8, 0, 0, 18446744073709551615⟩,
  ⟨0x280405, 0x280405, .u64, .ro, 8, 0, 0, 18446744073709551615⟩,
  ⟨0x280406, 0x280406, .u64, .ro, 8, 0, 0, 18446744073709551615⟩]

/-- Entries of one index range (R484): tags_per_slice, group_tag_share, stack_tag_share, capture_tags,
stack_shift, group_shift, groups_per_stack, stacks, ferry_slow_ac, spill_retry_fc, compaction_enable,
compaction_tags, spill_blocks, refill_blocks, integrity_faults, reread_recovered, spill_refusals,
compaction_moves, tags_in_use. -/
def dictRows29 : List EntryRow := [
  ⟨0x290101, 0x290101, .u16, .ro, 2, 0, 0, 65535⟩,
  ⟨0x290102, 0x290102, .u8, .ro, 1, 0, 0, 255⟩,
  ⟨0x290103, 0x290103, .u16, .ro, 2, 0, 0, 65535⟩,
  ⟨0x290104, 0x290104, .u8, .ro, 1, 16, 0, 255⟩,
  ⟨0x290201, 0x290201, .u8, .ro, 1, 0, 0, 255⟩,
  ⟨0x290202, 0x290202, .u8, .ro, 1, 0, 0, 255⟩,
  ⟨0x290203, 0x290203, .u8, .ro, 1, 0, 0, 255⟩,
  ⟨0x290204, 0x290204, .u8, .ro, 1, 0, 0, 255⟩,
  ⟨0x290300, 0x290300, .u32, .rw, 4, 2500, 0, 4294967295⟩,
  ⟨0x290301, 0x290301, .u16, .rw, 2, 64, 0, 65535⟩,
  ⟨0x290400, 0x290400, .bool, .rw, 1, 1, 0, 1⟩,
  ⟨0x290401, 0x290401, .u8, .rw, 1, 8, 0, 16⟩,
  ⟨0x290501, 0x290501, .u64, .ro, 8, 0, 0, 18446744073709551615⟩,
  ⟨0x290502, 0x290502, .u64, .ro, 8, 0, 0, 18446744073709551615⟩,
  ⟨0x290503, 0x290503, .u64, .ro, 8, 0, 0, 18446744073709551615⟩,
  ⟨0x290504, 0x290504, .u64, .ro, 8, 0, 0, 18446744073709551615⟩,
  ⟨0x290505, 0x290505, .u64, .ro, 8, 0, 0, 18446744073709551615⟩,
  ⟨0x290506, 0x290506, .u64, .ro, 8, 0, 0, 18446744073709551615⟩,
  ⟨0x290507, 0x290507, .u16, .ro, 2, 0, 0, 65535⟩]

/-- Entries of one index range (R484): site_map, spare_site_map, distance_table, load_digest_fc,
arrive_retry_fc, migrate_enable, migrate_window_fc, migrate_min_ops, migrate_votes, migrate_cooldown,
rules_live, firings, rules_lapsed, migrations, migrations_refused, migration_retries, migration_journal. -/
def dictRows2A : List EntryRow := [
  ⟨0x2A0100, 0x2A0100, .blob, .ro, 2112, 0, 0, 0⟩,
  ⟨0x2A0101, 0x2A0101, .blob, .ro, 64, 0, 0, 0⟩,
  ⟨0x2A0200, 0x2A0200, .blob, .ro, 8192, 0, 0, 0⟩,
  ⟨0x2A0300, 0x2A0300, .u16, .rw, 2, 1024, 0, 65535⟩,
  ⟨0x2A0301, 0x2A0301, .u16, .rw, 2, 64, 0, 65535⟩,
  ⟨0x2A0400, 0x2A0400, .bool, .rw, 1, 1, 0, 1⟩,
  ⟨0x2A0401, 0x2A0401, .u32, .rw, 4, 65536, 0, 4294967295⟩,
  ⟨0x2A0402, 0x2A0402, .u16, .rw, 2, 256, 0, 65535⟩,
  ⟨0x2A0403, 0x2A0403, .u16, .rw, 2, 128, 0, 65535⟩,
  ⟨0x2A0404, 0x2A0404, .u8, .rw, 1, 4, 0, 255⟩,
  ⟨0x2A0501, 0x2A0501, .u32, .ro, 4, 0, 0, 4294967295⟩,
  ⟨0x2A0502, 0x2A0502, .u64, .ro, 8, 0, 0, 18446744073709551615⟩,
  ⟨0x2A0503, 0x2A0503, .u64, .ro, 8, 0, 0, 18446744073709551615⟩,
  ⟨0x2A0504, 0x2A0504, .u64, .ro, 8, 0, 0, 18446744073709551615⟩,
  ⟨0x2A0505, 0x2A0505, .u64, .ro, 8, 0, 0, 18446744073709551615⟩,
  ⟨0x2A0506, 0x2A0506, .u64, .ro, 8, 0, 0, 18446744073709551615⟩,
  ⟨0x2A0600, 0x2A0600, .blob, .ro, 528, 0, 0, 0⟩]

/-- Entries of one index range (R484): keepers_live, sk_initial_exp, sk_restart_exp, sk_interval,
sk_backoff, sk_uf_shift, sk_uf_run, sk_silent_run, sk_unanchored_backoff, sk_unanchored_interval,
sk_anchor_intervals, steps_decided, steps_skipped, underflow_alarms, silent_notices,
unanchored_episodes, imports_failed. -/
def dictRows2B : List EntryRow := [
  ⟨0x2B0101, 0x2B0101, .u32, .ro, 4, 0, 0, 4294967295⟩,
  ⟨0x2B0201, 0x2B0201, .u8, .rw, 1, 16, 0, 255⟩,
  ⟨0x2B0202, 0x2B0202, .u8, .rw, 1, 16, 0, 255⟩,
  ⟨0x2B0203, 0x2B0203, .u16, .rw, 2, 2000, 0, 65535⟩,
  ⟨0x2B0204, 0x2B0204, .u8, .rw, 1, 1, 1, 15⟩,
  ⟨0x2B0205, 0x2B0205, .u8, .rw, 1, 6, 1, 20⟩,
  ⟨0x2B0206, 0x2B0206, .u16, .rw, 2, 64, 0, 65535⟩,
  ⟨0x2B0207, 0x2B0207, .u16, .rw, 2, 1024, 1, 1024⟩,
  ⟨0x2B0208, 0x2B0208, .u8, .ro, 1, 4, 0, 255⟩,
  ⟨0x2B0209, 0x2B0209, .u8, .ro, 1, 64, 0, 255⟩,
  ⟨0x2B020A, 0x2B020A, .u8, .ro, 1, 4, 0, 255⟩,
  ⟨0x2B0301, 0x2B0301, .u64, .ro, 8, 0, 0, 18446744073709551615⟩,
  ⟨0x2B0302, 0x2B0302, .u64, .ro, 8, 0, 0, 18446744073709551615⟩,
  ⟨0x2B0303, 0x2B0303, .u64, .ro, 8, 0, 0, 18446744073709551615⟩,
  ⟨0x2B0304, 0x2B0304, .u64, .ro, 8, 0, 0, 18446744073709551615⟩,
  ⟨0x2B0305, 0x2B0305, .u64, .ro, 8, 0, 0, 18446744073709551615⟩,
  ⟨0x2B0306, 0x2B0306, .u64, .ro, 8, 0, 0, 18446744073709551615⟩]

/-- Entries of one index range (R484): mismatch_release, mismatch_acquire, mismatch_weir,
mismatch_event_step, shadow_records, shadow_wait_fc. -/
def dictRows2C : List EntryRow := [
  ⟨0x2C0101, 0x2C0101, .u64, .ro, 8, 0, 0, 18446744073709551615⟩,
  ⟨0x2C0102, 0x2C0102, .u64, .ro, 8, 0, 0, 18446744073709551615⟩,
  ⟨0x2C0103, 0x2C0103, .u64, .ro, 8, 0, 0, 18446744073709551615⟩,
  ⟨0x2C0200, 0x2C0200, .u32, .rw, 4, 256, 0, 4294967295⟩,
  ⟨0x2C0301, 0x2C0301, .u64, .ro, 8, 0, 0, 18446744073709551615⟩,
  ⟨0x2C0302, 0x2C0302, .u64, .ro, 8, 0, 0, 18446744073709551615⟩]

/-- Entries of one index range (R484): chip_id, tree_parent, routing_table, origin_table_port, link_state,
link_lost_ac, retx_timeout_fc, bind_retry_ac, bridge, caravans_sent, caravans_received,
caravans_retransmitted, caravans_discarded, edge_stall_fc, links_lost, edge_budget. -/
def dictRows2D : List EntryRow := [
  ⟨0x2D0100, 0x2D0100, .u16, .rw, 2, 0, 0, 1023⟩,
  ⟨0x2D0101, 0x2D0101, .u16, .rw, 2, 65535, 0, 65535⟩,
  ⟨0x2D0200, 0x2D020F, .blob, .rw, 1024, 0, 0, 0⟩,
  ⟨0x2D0210, 0x2D0210, .u8, .rw, 1, 0, 0, 255⟩,
  ⟨0x2D0300, 0x2D030F, .enum, .ro, 1, 0, 0, 3⟩,
  ⟨0x2D0401, 0x2D0401, .u32, .rw, 4, 250000, 0, 4294967295⟩,
  ⟨0x2D0402, 0x2D0402, .u16, .rw, 2, 4096, 0, 65535⟩,
  ⟨0x2D0403, 0x2D0403, .u16, .rw, 2, 25, 0, 65535⟩,
  ⟨0x2D0500, 0x2D053F, .blob, .rw, 24, 0, 0, 0⟩,
  ⟨0x2D0601, 0x2D0601, .u64, .ro, 8, 0, 0, 18446744073709551615⟩,
  ⟨0x2D0602, 0x2D0602, .u64, .ro, 8, 0, 0, 18446744073709551615⟩,
  ⟨0x2D0603, 0x2D0603, .u64, .ro, 8, 0, 0, 18446744073709551615⟩,
  ⟨0x2D0604, 0x2D0604, .u64, .ro, 8, 0, 0, 18446744073709551615⟩,
  ⟨0x2D0605, 0x2D0605, .u64, .ro, 8, 0, 0, 18446744073709551615⟩,
  ⟨0x2D0606, 0x2D0606, .u64, .ro, 8, 0, 0, 18446744073709551615⟩,
  ⟨0x2D0700, 0x2D070F, .u16, .rw, 2, 128, 0, 65535⟩]

/-- Entries of one index range (R484): mc_watchdog_ac, mc_watchdog_expiries, hb_handle, hb_agent,
hb_window_ac, capture_base, capture_limit_ac, interface_reset_timeout_ac, fence_timeout_ac,
partition_reset_timeout_ac, partition_state, reset_limit, reset_window_ac, engine_oos_limit,
engine_oos_window_ac, engine_state, engine_command, fault_record, row_remap, spare_map, core_row,
fenced_cores, core_command, partition_resets, fences, capture_truncations, hangs_ignored,
migrations_resolved, partition_reset_count. -/
def dictRows2E : List EntryRow := [
  ⟨0x2E0101, 0x2E0101, .u32, .rw, 4, 2500000, 0, 4294967295⟩,
  ⟨0x2E0102, 0x2E0102, .u32, .ro, 4, 0, 0, 4294967295⟩,
  ⟨0x2E0200, 0x2E023F, .handle, .rw, 8, 0, 0, 18446744073709551615⟩,
  ⟨0x2E0300, 0x2E033F, .u16, .rw, 2, 0, 0, 65535⟩,
  ⟨0x2E0400, 0x2E0400, .u32, .rw, 4, 2500000, 0, 4294967295⟩,
  ⟨0x2E0500, 0x2E053F, .u64, .rw, 8, 0, 0, 18446744073709551615⟩,
  ⟨0x2E0601, 0x2E0601, .u32, .rw, 4, 25000, 0, 4294967295⟩,
  ⟨0x2E0602, 0x2E0602, .u32, .rw, 4, 250, 0, 4294967295⟩,
  ⟨0x2E0603, 0x2E0603, .u32, .rw, 4, 250, 0, 4294967295⟩,
  ⟨0x2E0604, 0x2E0604, .u32, .rw, 4, 250000000, 0, 4294967295⟩,
  ⟨0x2E0700, 0x2E073F, .enum, .rw, 1, 0, 0, 3⟩,
  ⟨0x2E0801, 0x2E0801, .u8, .rw, 1, 3, 0, 255⟩,
  ⟨0x2E0802, 0x2E0802, .u64, .rw, 8, 15000000000, 0, 18446744073709551615⟩,
  ⟨0x2E0803, 0x2E0803, .u8, .rw, 1, 4, 0, 255⟩,
  ⟨0x2E0804, 0x2E0804, .u64, .rw, 8, 90000000000, 0, 18446744073709551615⟩,
  ⟨0x2E0805, 0x2E0805, .enum, .ro, 1, 0, 0, 1⟩,
  ⟨0x2E0806, 0x2E0806, .enum, .wo, 1, 0, 0, 1⟩,
  ⟨0x2E0900, 0x2E093F, .blob, .ro, 32, 0, 0, 0⟩,
  ⟨0x2E0A00, 0x2E0A00, .blob, .ro, 4096, 0, 0, 0⟩,
  ⟨0x2E0A01, 0x2E0A01, .blob, .ro, 128, 0, 0, 0⟩,
  ⟨0x2E0A02, 0x2E0A02, .blob, .ro, 2048, 0, 0, 0⟩,
  ⟨0x2E0A03, 0x2E0A03, .bitset, .ro, 512, 0, 0, 0⟩,
  ⟨0x2E0A04, 0x2E0A04, .blob, .wo, 4, 0, 0, 0⟩,
  ⟨0x2E0B01, 0x2E0B01, .u64, .ro, 8, 0, 0, 18446744073709551615⟩,
  ⟨0x2E0B02, 0x2E0B02, .u64, .ro, 8, 0, 0, 18446744073709551615⟩,
  ⟨0x2E0B03, 0x2E0B03, .u64, .ro, 8, 0, 0, 18446744073709551615⟩,
  ⟨0x2E0B04, 0x2E0B04, .u64, .ro, 8, 0, 0, 18446744073709551615⟩,
  ⟨0x2E0B05, 0x2E0B05, .u64, .ro, 8, 0, 0, 18446744073709551615⟩,
  ⟨0x2E0C00, 0x2E0C3F, .u8, .ro, 1, 0, 0, 255⟩]

/-- Entries of one index range (R484): xp_req_credits, lp_credits, kp_rx_credits, towpath_hold_fc,
towpath_answers, port_header_errors, port_code_uncorrectable, port_protocol_errors, ibi_mdb,
ibi_retry_ac, entropy_retry_ac, entropy_fault_limit, entropy_failures, port_error_step. -/
def dictRows2F : List EntryRow := [
  ⟨0x2F0101, 0x2F0101, .u8, .ro, 1, 0, 0, 255⟩,
  ⟨0x2F0102, 0x2F0102, .u8, .ro, 1, 0, 0, 255⟩,
  ⟨0x2F0103, 0x2F0103, .u8, .ro, 1, 0, 0, 255⟩,
  ⟨0x2F0200, 0x2F0200, .u16, .rw, 2, 64, 24, 65535⟩,
  ⟨0x2F0301, 0x2F0301, .u64, .ro, 8, 0, 0, 18446744073709551615⟩,
  ⟨0x2F0302, 0x2F0302, .u64, .ro, 8, 0, 0, 18446744073709551615⟩,
  ⟨0x2F0303, 0x2F0303, .u64, .ro, 8, 0, 0, 18446744073709551615⟩,
  ⟨0x2F0304, 0x2F0304, .u64, .ro, 8, 0, 0, 18446744073709551615⟩,
  ⟨0x2F0400, 0x2F0400, .u8, .rw, 1, 174, 0, 255⟩,
  ⟨0x2F0401, 0x2F0401, .u16, .rw, 2, 25, 0, 65535⟩,
  ⟨0x2F0501, 0x2F0501, .u16, .rw, 2, 25, 0, 65535⟩,
  ⟨0x2F0502, 0x2F0502, .u8, .rw, 1, 8, 1, 255⟩,
  ⟨0x2F0503, 0x2F0503, .u32, .ro, 4, 0, 0, 4294967295⟩,
  ⟨0x2F0600, 0x2F0600, .u32, .rw, 4, 256, 0, 4294967295⟩]

/-- Entries of one index range (R484): aon_time_ac, fc_clock_losses, pd_ack_timeout_ac, domain_power_ons,
domain_power_faults, course_stages_required. -/
def dictRows40 : List EntryRow := [
  ⟨0x400101, 0x400101, .u64, .ro, 8, 0, 0, 18446744073709551615⟩,
  ⟨0x400102, 0x400102, .u32, .ro, 4, 0, 0, 4294967295⟩,
  ⟨0x400201, 0x400201, .u32, .rw, 4, 2500, 0, 4294967295⟩,
  ⟨0x400202, 0x400202, .u64, .ro, 8, 0, 0, 18446744073709551615⟩,
  ⟨0x400203, 0x400203, .u32, .ro, 4, 0, 0, 4294967295⟩,
  ⟨0x400301, 0x400301, .u8, .ro, 1, 0, 0, 255⟩]

/-- Entries of one index range (R484): scrub_enable, scrub_pass_ac, corrected_sram, corrected_course,
corrected_port, corrected_ctrl, corrected_event_step, uncorrectable_total, course_replays,
course_replay_limit, service_command, service_state, service_step_timeout_ac, ferry_unit_state,
landing_unit_state, link_unit_state, test_result, mc_command, mc_restart_max_ac, mc_restart_drops,
fc_measured_khz, fc_tolerance_permille, telemetry_command, weir_latency_hist, fanout_hist,
ferry_occupancy_hist. -/
def dictRows41 : List EntryRow := [
  ⟨0x410100, 0x410100, .bool, .rw, 1, 1, 0, 1⟩,
  ⟨0x410101, 0x410101, .u32, .rw, 4, 250000, 25000, 4294967295⟩,
  ⟨0x410201, 0x410201, .u64, .ro, 8, 0, 0, 18446744073709551615⟩,
  ⟨0x410202, 0x410202, .u64, .ro, 8, 0, 0, 18446744073709551615⟩,
  ⟨0x410203, 0x410203, .u64, .ro, 8, 0, 0, 18446744073709551615⟩,
  ⟨0x410204, 0x410204, .u64, .ro, 8, 0, 0, 18446744073709551615⟩,
  ⟨0x410205, 0x410205, .u32, .rw, 4, 1024, 0, 4294967295⟩,
  ⟨0x410206, 0x410206, .u64, .ro, 8, 0, 0, 18446744073709551615⟩,
  ⟨0x410301, 0x410301, .u64, .ro, 8, 0, 0, 18446744073709551615⟩,
  ⟨0x410302, 0x410302, .u8, .rw, 1, 8, 2, 255⟩,
  ⟨0x411000, 0x411000, .blob, .wo, 4, 0, 0, 0⟩,
  ⟨0x411001, 0x411001, .blob, .ro, 8, 0, 0, 0⟩,
  ⟨0x411002, 0x411002, .u32, .rw, 4, 2500000, 0, 4294967295⟩,
  ⟨0x411100, 0x41110F, .enum, .ro, 1, 0, 0, 4⟩,
  ⟨0x411200, 0x41121F, .enum, .ro, 1, 0, 0, 4⟩,
  ⟨0x411300, 0x41130F, .enum, .ro, 1, 0, 0, 4⟩,
  ⟨0x411400, 0x411400, .blob, .ro, 4, 0, 0, 0⟩,
  ⟨0x412000, 0x412000, .enum, .wo, 1, 0, 0, 0⟩,
  ⟨0x412001, 0x412001, .u32, .ro, 4, 500000, 0, 4294967295⟩,
  ⟨0x412002, 0x412002, .u64, .ro, 8, 0, 0, 18446744073709551615⟩,
  ⟨0x413001, 0x413001, .u32, .ro, 4, 0, 0, 4294967295⟩,
  ⟨0x413002, 0x413002, .u16, .rw, 2, 50, 0, 65535⟩,
  ⟨0x414000, 0x414000, .enum, .wo, 1, 0, 0, 0⟩,
  ⟨0x414100, 0x414100, .blob, .ro, 128, 0, 0, 0⟩,
  ⟨0x414200, 0x414200, .blob, .ro, 128, 0, 0, 0⟩,
  ⟨0x414300, 0x414300, .blob, .ro, 128, 0, 0, 0⟩]

/-- Every row of its kind. -/
def dictRows : List EntryRow :=
  dictRows10 ++ dictRows20 ++ dictRows21 ++ dictRows22 ++ dictRows23 ++ dictRows24 ++ dictRows25 ++ dictRows26 ++ dictRows27 ++ dictRows28 ++ dictRows29 ++ dictRows2A ++ dictRows2B ++ dictRows2C ++ dictRows2D ++ dictRows2E ++ dictRows2F ++ dictRows40 ++ dictRows41

/-- Per-function entries (R94): fn_state, fn_partition, fn_generation, share_rate, share_burst,
object_reserve, object_limit, window_reserve, window_limit, waiter_reserve, waiter_limit, slot_reserve,
slot_limit, ferry_tag_reserve, ferry_tag_limit, objects_used, windows_used, ferry_tags_used,
badhandle_count, quota_refusals, excess_retries, parked_waits, counter_wraps, weir_stale_ahead,
weir_breaks, riffle_seed, fn_nonfinite_epochs, landing_discards, seals_discarded, seal_limit,
landing_overruns. -/
def fnRows00 : List EntryRow := [
  ⟨0x1, 0x1, .enum, .rw, 1, 0, 0, 3⟩,
  ⟨0x2, 0x2, .u8, .rw, 1, 0, 0, 63⟩,
  ⟨0x3, 0x3, .u32, .ro, 4, 0, 0, 4294967295⟩,
  ⟨0x4, 0x4, .u8, .rw, 1, 0, 0, 255⟩,
  ⟨0x5, 0x5, .u8, .rw, 1, 0, 0, 255⟩,
  ⟨0x6, 0x6, .u16, .rw, 2, 0, 0, 65535⟩,
  ⟨0x7, 0x7, .u16, .rw, 2, 256, 0, 65535⟩,
  ⟨0x8, 0x8, .u16, .rw, 2, 0, 0, 65535⟩,
  ⟨0x9, 0x9, .u16, .rw, 2, 64, 0, 65535⟩,
  ⟨0xA, 0xA, .u16, .rw, 2, 0, 0, 65535⟩,
  ⟨0xB, 0xB, .u16, .rw, 2, 512, 0, 65535⟩,
  ⟨0xC, 0xC, .u8, .rw, 1, 0, 0, 255⟩,
  ⟨0xD, 0xD, .u8, .rw, 1, 32, 0, 255⟩,
  ⟨0xE, 0xE, .u16, .rw, 2, 0, 0, 65535⟩,
  ⟨0xF, 0xF, .u16, .rw, 2, 256, 0, 65535⟩,
  ⟨0x10, 0x10, .u16, .ro, 2, 0, 0, 65535⟩,
  ⟨0x11, 0x11, .u16, .ro, 2, 0, 0, 65535⟩,
  ⟨0x12, 0x12, .u16, .ro, 2, 0, 0, 65535⟩,
  ⟨0x13, 0x13, .u32, .ro, 4, 0, 0, 4294967295⟩,
  ⟨0x14, 0x14, .u32, .ro, 4, 0, 0, 4294967295⟩,
  ⟨0x15, 0x15, .u32, .ro, 4, 0, 0, 4294967295⟩,
  ⟨0x16, 0x16, .u32, .ro, 4, 0, 0, 4294967295⟩,
  ⟨0x17, 0x17, .u32, .ro, 4, 0, 0, 4294967295⟩,
  ⟨0x18, 0x18, .u32, .ro, 4, 0, 0, 4294967295⟩,
  ⟨0x19, 0x19, .u32, .ro, 4, 0, 0, 4294967295⟩,
  ⟨0x1A, 0x1A, .u64, .rw, 8, 0, 0, 18446744073709551615⟩,
  ⟨0x1B, 0x1B, .u32, .ro, 4, 0, 0, 4294967295⟩,
  ⟨0x1C, 0x1C, .u32, .ro, 4, 0, 0, 4294967295⟩,
  ⟨0x1D, 0x1D, .u32, .ro, 4, 0, 0, 4294967295⟩,
  ⟨0x1E, 0x1E, .u16, .rw, 2, 32, 0, 65535⟩,
  ⟨0x1F, 0x1F, .u32, .ro, 4, 0, 0, 4294967295⟩]

/-- Per-function entries (R94): toll_refusals, fn_queue_faults, rewinds, bw_base, bw_blocks,
bw_blocks_reserved, fn_firings, fn_rule_lapses, fn_migrations, migration_pinned, fn_steps_skipped,
fn_silent_notices, fn_underflow_alarms, scope_mismatches, host_observed, shadow_base, shadow_seq,
sys_weirs_created, caravan_discards, objects_failed. -/
def fnRows01 : List EntryRow := [
  ⟨0x20, 0x20, .u32, .ro, 4, 0, 0, 4294967295⟩,
  ⟨0x21, 0x21, .u32, .ro, 4, 0, 0, 4294967295⟩,
  ⟨0x22, 0x22, .u32, .ro, 4, 0, 0, 4294967295⟩,
  ⟨0x23, 0x23, .u64, .rw, 8, 0, 0, 18446744073709551615⟩,
  ⟨0x24, 0x24, .u32, .rw, 4, 0, 0, 4294967295⟩,
  ⟨0x25, 0x25, .u32, .ro, 4, 0, 0, 4294967295⟩,
  ⟨0x26, 0x26, .u32, .ro, 4, 0, 0, 4294967295⟩,
  ⟨0x27, 0x27, .u32, .ro, 4, 0, 0, 4294967295⟩,
  ⟨0x28, 0x28, .u32, .ro, 4, 0, 0, 4294967295⟩,
  ⟨0x29, 0x29, .bool, .rw, 1, 0, 0, 1⟩,
  ⟨0x2A, 0x2A, .u32, .ro, 4, 0, 0, 4294967295⟩,
  ⟨0x2B, 0x2B, .u32, .ro, 4, 0, 0, 4294967295⟩,
  ⟨0x2C, 0x2C, .u32, .ro, 4, 0, 0, 4294967295⟩,
  ⟨0x2D, 0x2D, .u32, .ro, 4, 0, 0, 4294967295⟩,
  ⟨0x2E, 0x2E, .bool, .rw, 1, 0, 0, 1⟩,
  ⟨0x2F, 0x2F, .u64, .rw, 8, 0, 0, 18446744073709551615⟩,
  ⟨0x30, 0x30, .u64, .ro, 8, 0, 0, 18446744073709551615⟩,
  ⟨0x31, 0x31, .u16, .ro, 2, 0, 0, 65535⟩,
  ⟨0x32, 0x32, .u32, .ro, 4, 0, 0, 4294967295⟩,
  ⟨0x33, 0x33, .u32, .ro, 4, 0, 0, 4294967295⟩]

/-- Every row of its kind. -/
def fnRows : List EntryRow :=
  fnRows00 ++ fnRows01

/-- The row that holds a key. -/
def rowOf (rows : List EntryRow) (k : Nat) : Option EntryRow :=
  rows.find? fun r => r.first ≤ k && k ≤ r.last

end Sys2Proof.Machine
end

