-- ==== Sys2Proof/Machine/Table.lean ====
section
/-!
DEFINITION. Tables keyed by a number, kept in rising order of the key, and the run maps of the large blobs.
-/

namespace Sys2Proof.Machine

/-- The value at a key. -/
def tget {α : Type} : Table α → Nat → Option α
  | [], _ => none
  | (j, v) :: t, k => if j = k then some v else tget t k

/-- The value at a key, or the default that an absent key stands for. -/
def tgetD {α : Type} (t : Table α) (k : Nat) (d : α) : α := (tget t k).getD d

/-- The table with a value at a key, the keys still rising. -/
def tput {α : Type} : Table α → Nat → α → Table α
  | [], k, v => [(k, v)]
  | (j, w) :: t, k, v =>
    if k < j then (k, v) :: (j, w) :: t else if k = j then (k, v) :: t else (j, w) :: tput t k v

/-- The table without a key. -/
def tdel {α : Type} : Table α → Nat → Table α
  | [], _ => []
  | (j, w) :: t, k => if j = k then tdel t k else (j, w) :: tdel t k

/-- The table with the value at a key replaced; unchanged where the key is absent. -/
def tmod {α : Type} (t : Table α) (k : Nat) (f : α → α) : Table α :=
  match tget t k with
  | none => t
  | some v => tput t k (f v)

/-- A table of words whose absent keys hold zero: a zero is not listed. -/
def wput (t : Table Word) (k : Nat) (v : Word) : Table Word := if v = 0 then tdel t k else tput t k v

/-- The same for counts. -/
def nput (t : Table Nat) (k v : Nat) : Table Nat := if v = 0 then tdel t k else tput t k v

/-- The keys of a table strictly rise. -/
def rising {α : Type} : Table α → Bool
  | [] => true
  | [_] => true
  | (j, _) :: (k, w) :: t => decide (j < k) && rising ((k, w) :: t)

/-- The value of a run map at a key: the first run that holds it. -/
def rget : RunMap → Nat → Option Nat
  | [], _ => none
  | r :: m, k => if r.first ≤ k ∧ k < r.first + r.count then some (r.base + r.mul * (k - r.first)) else rget m k

/-- The run map with a value at a key. -/
def rput (m : RunMap) (k v : Nat) : RunMap := ⟨k, 1, v, 0⟩ :: m

/-- The least number from `n` on, within `fuel` tries, that a test accepts; `n + fuel` where none is. -/
def leastFrom (p : Nat → Bool) : Nat → Nat → Nat
  | 0, n => n
  | fuel + 1, n => if p n then n else leastFrom p fuel (n + 1)

/-- The least number that is not in a list. -/
def leastUnused (l : List Nat) : Nat := leastFrom (fun n => !l.contains n) l.length 0

/-- The element of a list with the least key; of equal keys the first. -/
def leastBy {α : Type} (key : α → Nat) : List α → Option α
  | [] => none
  | x :: xs =>
    match leastBy key xs with
    | none => some x
    | some y => if key x ≤ key y then some x else some y

/-- The first element that a test accepts, and the list without it. -/
def takeFirst {α : Type} (p : α → Bool) : List α → Option (α × List α)
  | [] => none
  | x :: xs => if p x then some (x, xs) else
    match takeFirst p xs with
    | none => none
    | some (y, rest) => some (y, x :: rest)

end Sys2Proof.Machine
end

