-- ==== Sys2Proof/Machine/Operands.lean ====
section
/-!
DEFINITION. Codes and fields: opcodes, statuses and what Table 3.4 says of each opcode, the fields of a handle,
of an agent and of a record, the bits of an operand that a chapter lists, and the bytes of a payload.
-/

namespace Sys2Proof.Machine

/-! ## Bit fields -/

/-- Bits `hi` to `lo` of a vector as a number. -/
def bits {w : Nat} (v : BitVec w) (hi lo : Nat) : Nat := v.toNat / 2 ^ lo % 2 ^ (hi + 1 - lo)

/-- One bit of a vector. -/
def bit {w : Nat} (v : BitVec w) (k : Nat) : Bool := v.toNat / 2 ^ k % 2 == 1

/-- A number as a field of `n` bits at `lo`. -/
def field (n lo v : Nat) : Nat := v % 2 ^ n * 2 ^ lo

/-- 1 for a set flag. -/
def flag (b : Bool) : Nat := if b then 1 else 0

/-- A number of bytes, least significant first. -/
def bytesLE : Nat → Nat → List Byte
  | 0, _ => []
  | n + 1, v => BitVec.ofNat 8 v :: bytesLE n (v / 256)

/-- A number of bytes, most significant first. -/
def bytesBE (n v : Nat) : List Byte := (bytesLE n v).reverse

/-- The number that bytes spell, least significant first. -/
def ofBytesLE : List Byte → Nat
  | [] => 0
  | b :: t => b.toNat + 256 * ofBytesLE t

/-- The number that bytes spell, most significant first. -/
def ofBytesBE (l : List Byte) : Nat := ofBytesLE l.reverse

/-- The 64 bytes of a payload in address order: bit 511 is the top bit of the first (R99). -/
def payloadBytes (p : Payload) : List Byte := bytesBE 64 p.toNat

/-- The payload that bytes make; missing bytes are zero. -/
def payloadOf (l : List Byte) : Payload :=
  BitVec.ofNat 512 (ofBytesBE ((l.take 64) ++ List.replicate (64 - l.length) 0))

/-- Bytes `i` to `i + n - 1` of a payload as a number, least significant first. -/
def payloadNat (p : Payload) (i n : Nat) : Nat := ofBytesLE (((payloadBytes p).drop i).take n)

/-- The value of a signed byte (two's complement). -/
def signedByte (n : Nat) : Int := if n % 256 < 128 then (n % 256 : Nat) else ((n % 256 : Nat) : Int) - 256

/-- A signed number as a byte (two's complement). -/
def toSignedByte (z : Int) : Nat := (z % 256).toNat

/-! ## Statuses and opcodes -/

/-- The code of a status (Table 0.5). -/
def Status.code : Status → Nat
  | .ok => 0x00 | .parked => 0x01 | .retry => 0x02 | .stale => 0x03 | .ahead => 0x04 | .broken => 0x05
  | .fenced => 0x06 | .draining => 0x07 | .nofunc => 0x08 | .badhandle => 0x09 | .quota => 0x0A
  | .scope => 0x0B | .idleTail => 0x0C | .integrity => 0x0D | .linklost => 0x0E | .timeout => 0x0F
  | .unavailable => 0x10 | .privilege => 0x11

/-- The status of a code; a reserved code is read as UNAVAILABLE (R16 lets software take it as a failure). -/
def Status.ofCode (c : Nat) : Status :=
  ([.ok, .parked, .retry, .stale, .ahead, .broken, .fenced, .draining, .nofunc, .badhandle, .quota, .scope,
    .idleTail, .integrity, .linklost, .timeout, .unavailable, .privilege] : List Status).getD c .unavailable

/-- The code of an opcode (Table 3.4). -/
def Opcode.code : Opcode → Nat
  | .nop => 0x01 | .cancel => 0x02 | .destroy => 0x03
  | .ctrCreate => 0x10 | .ctrAdd => 0x11 | .ctrSub => 0x12 | .ctrSet => 0x13 | .ctrRead => 0x14
  | .ctrAcquire => 0x15 | .ctrWaitGe => 0x16
  | .weirCreate => 0x20 | .weirArrive => 0x21 | .weirWait => 0x22 | .weirArriveWait => 0x23
  | .weirRead => 0x24 | .weirPolicy => 0x25
  | .landCreate => 0x30 | .landExpect => 0x31 | .landWait => 0x32 | .landRead => 0x33 | .landSeal => 0x34
  | .landRenew => 0x35
  | .qCreate => 0x40 | .qPush => 0x41 | .qPop => 0x42 | .qMark => 0x43 | .qRewind => 0x44
  | .qRelease => 0x45 | .qToll => 0x46 | .qRead => 0x47 | .qPolicy => 0x48
  | .frCreate => 0x50 | .frArm => 0x51 | .frDisarm => 0x52 | .frRead => 0x53 | .loadReport => 0x54
  | .skCreate => 0x60 | .skReport => 0x61 | .skRead => 0x62 | .skExport => 0x63 | .skImport => 0x64
  | .skPolicy => 0x65
  | .bcnCreate => 0x70 | .bcnWrite => 0x71 | .bcnRead => 0x72

/-- Every opcode of Table 3.4. -/
def allOpcodes : List Opcode :=
  [.nop, .cancel, .destroy, .ctrCreate, .ctrAdd, .ctrSub, .ctrSet, .ctrRead, .ctrAcquire, .ctrWaitGe,
   .weirCreate, .weirArrive, .weirWait, .weirArriveWait, .weirRead, .weirPolicy, .landCreate, .landExpect,
   .landWait, .landRead, .landSeal, .landRenew, .qCreate, .qPush, .qPop, .qMark, .qRewind, .qRelease, .qToll,
   .qRead, .qPolicy, .frCreate, .frArm, .frDisarm, .frRead, .loadReport, .skCreate, .skReport, .skRead,
   .skExport, .skImport, .skPolicy, .bcnCreate, .bcnWrite, .bcnRead]

/-- The opcode of a code. -/
def Opcode.ofCode (c : Nat) : Option Opcode := allOpcodes.find? fun o => o.code == c

/-- What an opcode names: no object, an object of any class, or one of a class of Table 2.3. -/
inductive OpClass where
  | none
  | any
  | cls (c : Nat)
  deriving DecidableEq, Repr

/-- The Class column of Table 3.4. -/
def Opcode.cls : Opcode → OpClass
  | .nop | .loadReport => .none
  | .cancel | .destroy => .any
  | .ctrCreate | .ctrAdd | .ctrSub | .ctrSet | .ctrRead | .ctrAcquire | .ctrWaitGe => .cls 1
  | .weirCreate | .weirArrive | .weirWait | .weirArriveWait | .weirRead | .weirPolicy => .cls 2
  | .landCreate | .landExpect | .landWait | .landRead | .landSeal | .landRenew => .cls 3
  | .qCreate | .qPush | .qPop | .qMark | .qRewind | .qRelease | .qToll | .qRead | .qPolicy => .cls 4
  | .frCreate | .frArm | .frDisarm | .frRead => .cls 5
  | .skCreate | .skReport | .skRead | .skExport | .skImport | .skPolicy => .cls 6
  | .bcnCreate | .bcnWrite | .bcnRead => .cls 7

/-- The Supervisor column of Table 3.4. -/
def Opcode.supervisor : Opcode → Bool
  | .destroy | .ctrCreate | .weirCreate | .weirPolicy | .landCreate | .qCreate | .qPolicy | .frCreate
  | .skCreate | .skExport | .skImport | .skPolicy | .bcnCreate => true
  | _ => false

/-- The creations (R101). -/
def Opcode.creates : Opcode → Bool
  | .ctrCreate | .weirCreate | .landCreate | .qCreate | .frCreate | .skCreate | .bcnCreate => true
  | _ => false

/-- "In" of the Payload column of Table 3.4. -/
def Opcode.payloadIn : Opcode → Bool
  | .weirCreate | .weirArrive | .weirArriveWait | .weirPolicy | .landSeal | .qCreate | .qPush | .qPolicy
  | .frCreate | .skCreate | .skReport | .skImport | .skPolicy => true
  | _ => false

/-- "Out" of the Payload column of Table 3.4. -/
def Opcode.payloadOut : Opcode → Bool
  | .weirRead | .qPop | .frRead | .skRead => true
  | _ => false

/-- The opcodes that can wait (the Wait column of Table 3.4). -/
def Opcode.waits : Opcode → Bool
  | .ctrAcquire | .ctrWaitGe | .weirWait | .weirArriveWait | .landWait | .qPop | .qToll => true
  | _ => false

/-- Whether a value of the hold bit is permitted (check 5.5): a pop must be held. -/
def Opcode.holdOk (o : Opcode) (hold : Bool) : Bool :=
  if o = .qPop then hold else o.waits || !hold

/-! ## Handles and agents -/

/-- The fields of a handle (Table 2.2). -/
def Handle.fn (h : Word) : Nat := bits h 63 52
/-- Generation of the object's index. -/
def Handle.gen (h : Word) : Nat := bits h 51 42
/-- Object class of Table 2.3. -/
def Handle.cls (h : Word) : Nat := bits h 41 38
/-- Object index. -/
def Handle.index (h : Word) : Nat := bits h 37 24
/-- Keyed check tag. -/
def Handle.tag (h : Word) : BitVec 16 := h.extractLsb' 8 16
/-- Lane or side selector. -/
def Handle.sel (h : Word) : Nat := bits h 7 0
/-- Bits 63:24, which name the object. -/
def Handle.hi (h : Word) : BitVec 40 := h.extractLsb' 24 40

/-- Bits 63:24 of a handle from its fields. -/
def handleHi (fn gen cls index : Nat) : BitVec 40 :=
  BitVec.ofNat 40 (field 12 28 fn + field 10 18 gen + field 4 14 cls + field 14 0 index)

/-- The object index of bits 63:24. -/
def hiIndex (hi : BitVec 40) : Nat := bits hi 13 0
/-- The function of bits 63:24. -/
def hiFn (hi : BitVec 40) : Nat := bits hi 39 28
/-- The class of bits 63:24. -/
def hiCls (hi : BitVec 40) : Nat := bits hi 17 14

/-- A handle from its upper bits, tag and selector. -/
def handleOf (hi : BitVec 40) (tag : BitVec 16) (sel : Nat) : Word :=
  BitVec.ofNat 64 (hi.toNat * 2 ^ 24 + tag.toNat * 2 ^ 8 + sel % 256)

/-- A handle with another selector. -/
def withSel (h : Word) (sel : Nat) : Word := BitVec.ofNat 64 (h.toNat / 256 * 256 + sel % 256)

/-- The defined classes (Table 2.3). -/
def classDefined (c : Nat) : Bool := 1 ≤ c && c ≤ 7

/-- Whether an agent is auxiliary (bit 13 of its 14 bits, Table 3.2). -/
def agentAux (a : Nat) : Bool := a / 8192 % 2 == 1
/-- The logical core of an engine (R100). -/
def agentCore (a : Nat) : Nat := a % 8192 / 4
/-- The kind of an engine: 0 matrix, 1 vector, 2 scalar, 3 DMA (R100). -/
def agentKind (a : Nat) : Nat := a % 4
/-- The byte of entry_map and site_map that an agent uses (Table 1.12). -/
def agentSlot (a : Nat) : Nat := if agentAux a then 2048 + a % 64 else agentCore a
/-- The auxiliary agent that a link port acts as (R44). -/
def linkAgent (port : Nat) : Nat := 8192 + port

/-! ## Operands -/

/-- A mask of the bits of some ranges. -/
def maskOf (ranges : List (Nat × Nat)) : Nat :=
  ranges.foldl (fun m r => m ||| (2 ^ (r.1 + 1) - 2 ^ r.2)) 0

/-- The bits of operand_a that an opcode's chapter lists (Tables 3.12, 4.2, 5.2, 5.6, 7.5, 8.4, 10.3, 10.10,
11.5). -/
def Opcode.bitsA : Opcode → List (Nat × Nat)
  | .cancel | .ctrCreate | .ctrAdd | .ctrSub | .ctrSet | .ctrAcquire | .ctrWaitGe | .landExpect | .landWait
  | .landSeal | .qPush | .qRelease | .qToll | .bcnWrite => [(63, 0)]
  | .weirCreate => [(63, 63), (37, 32), (26, 0)]
  | .weirArrive | .weirWait | .weirArriveWait | .skReport => [(31, 0)]
  | .qCreate => [(60, 32), (28, 0)]
  | .qPop => [(8, 8), (3, 0)]
  | .frCreate => [(63, 50), (26, 0)]
  | .frArm => [(8, 0)]
  | .loadReport => [(3, 0)]
  | .skCreate => [(26, 0)]
  | .skRead => [(1, 0)]
  | .skExport | .skImport => [(63, 8)]
  | _ => []

/-- The bits of operand_b that an opcode's chapter lists. -/
def Opcode.bitsB : Opcode → List (Nat × Nat)
  | .ctrCreate | .landCreate | .qCreate => [(21, 0)]
  | .weirCreate => [(19, 0)]
  | .landSeal | .frCreate | .frArm => [(63, 0)]
  | .qPush => [(15, 8), (3, 0)]
  | .qPop => [(28, 0)]
  | .skCreate => [(23, 16), (9, 0)]
  | _ => []

/-- Whether an operand has no bit outside the listed ranges. -/
def within (v : Word) (ranges : List (Nat × Nat)) : Bool := v.toNat &&& maskOf ranges == v.toNat

end Sys2Proof.Machine
end

