-- ==== Sys2Proof/Machine/Cipher.lean ====
section
/-!
DEFINITION. The cipher lane of a slice (R292, R293): AES-256 in Galois/Counter mode with a 96-bit IV and a
128-bit tag, as NIST SP 800-38D and FIPS 197 give them, and the stored form of a block.
-/

namespace Sys2Proof.Machine

/-! ## AES-256 (FIPS 197) -/

/-- Multiplication by x in the field of AES. -/
def aesDouble (a : Nat) : Nat := if 128 ≤ a then (2 * a) ^^^ 0x11B else 2 * a

/-- Multiplication in the field of AES, over the low `n` bits of the second factor. -/
def aesMulBits : Nat → Nat → Nat → Nat
  | 0, _, _ => 0
  | n + 1, a, b => (if b % 2 = 1 then a else 0) ^^^ aesMulBits n (aesDouble a) (b / 2)

/-- Multiplication in the field of AES. -/
def aesMul (a b : Nat) : Nat := aesMulBits 8 a b

/-- The inverse in the field, x to the power 254; 0 for 0. -/
def aesInv (a : Nat) : Nat :=
  let a2 := aesMul a a
  let a3 := aesMul a2 a
  let a6 := aesMul a3 a3
  let a12 := aesMul a6 a6
  let a15 := aesMul a12 a3
  let a30 := aesMul a15 a15
  let a60 := aesMul a30 a30
  let a120 := aesMul a60 a60
  let a126 := aesMul a120 a6
  let a127 := aesMul a126 a
  aesMul a127 a127

/-- A byte turned left by `k` bits. -/
def rotByte (a k : Nat) : Nat := (a * 2 ^ k) % 256 + a / 2 ^ (8 - k)

/-- The S-box. -/
def aesSub (a : Nat) : Nat :=
  let b := aesInv a
  b ^^^ rotByte b 1 ^^^ rotByte b 2 ^^^ rotByte b 3 ^^^ rotByte b 4 ^^^ 0x63

/-- Two lists of bytes added. -/
def xorBytes (a b : List Nat) : List Nat := List.zipWith (· ^^^ ·) a b

/-- The key schedule: `n` more words after those given, newest first; `i` is the number of the next. -/
def aesExpand : Nat → Nat → Nat → List (List Nat) → List (List Nat)
  | 0, _, _, ws => ws
  | n + 1, i, rcon, ws =>
    let t := ws.headD []
    let t' := if i % 8 = 0 then xorBytes ((t.drop 1 ++ t.take 1).map aesSub) [rcon, 0, 0, 0]
      else if i % 8 = 4 then t.map aesSub else t
    let w := xorBytes (ws.getD 7 []) t'
    aesExpand n (i + 1) (if i % 8 = 0 then aesDouble rcon else rcon) (w :: ws)

/-- The 15 round keys of a 256-bit key, 16 bytes each. -/
def aesKeys (key : BitVec 256) : List (List Nat) :=
  let k := (bytesBE 32 key.toNat).map (·.toNat)
  let ws := (List.range 8).map fun i => (k.drop (4 * i)).take 4
  let all := (aesExpand 52 8 1 ws.reverse).reverse
  (List.range 15).map fun r => ((all.drop (4 * r)).take 4).flatten

/-- The rows of a state turned. -/
def aesShift (b : List Nat) : List Nat := (List.range 16).map fun i => b.getD ((i + 4 * (i % 4)) % 16) 0

/-- A column mixed. -/
def aesMix (b : List Nat) (c : Nat) : List Nat :=
  (List.range 4).map fun r =>
    let g := fun k => b.getD (4 * c + (r + k) % 4) 0
    aesMul (g 0) 2 ^^^ aesMul (g 1) 3 ^^^ g 2 ^^^ g 3

/-- The rounds after the first key: the last has no column mix. -/
def aesRounds : List (List Nat) → List Nat → List Nat
  | [], b => b
  | [k], b => xorBytes (aesShift (b.map aesSub)) k
  | k :: ks, b => aesRounds ks (xorBytes ((List.range 4).flatMap (aesMix (aesShift (b.map aesSub)))) k)

/-- AES-256 of one block under its round keys. -/
def aesBlock (ks : List (List Nat)) (b : List Nat) : List Nat := aesRounds (ks.drop 1) (xorBytes b (ks.headD []))

/-! ## Galois/Counter mode (SP 800-38D) -/

/-- The 16 bytes of a number, most significant first. -/
def block16 (v : Nat) : List Nat := (bytesBE 16 v).map (·.toNat)

/-- The product of two blocks, over the leading `n` bits of the first left to take. -/
def ghashMul : Nat → Nat → Nat → Nat → Nat
  | 0, _, _, z => z
  | n + 1, x, v, z =>
    ghashMul n x (if v % 2 = 1 then (v / 2) ^^^ (0xE1 * 2 ^ 120) else v / 2) (if x / 2 ^ n % 2 = 1 then z ^^^ v else z)

/-- GHASH of a list of blocks. -/
def ghash (h : Nat) (l : List Nat) : Nat := l.foldl (fun y x => ghashMul 128 (y ^^^ x) h 0) 0

/-- Bytes as blocks, the last filled with zero bytes; `n` bounds their number. -/
def blocksOf : Nat → List Byte → List Nat
  | 0, _ => []
  | n + 1, l => if l.isEmpty then [] else
    ofBytesBE (l.take 16 ++ List.replicate (16 - l.length) 0) :: blocksOf n (l.drop 16)

/-- The key stream added to bytes, from a counter block on. -/
def gctr (ks : List (List Nat)) : Nat → Nat → List Byte → List Byte
  | 0, _, _ => []
  | n + 1, ctr, l => if l.isEmpty then [] else
    List.zipWith (fun b k => b ^^^ BitVec.ofNat 8 k) (l.take 16) (aesBlock ks (block16 ctr)) ++ gctr ks n (ctr + 1) (l.drop 16)

/-- The tag of additional data and ciphertext under an IV. -/
def gcmTag (ks : List (List Nat)) (iv : Nat) (aad cipher : List Byte) : Nat :=
  let h := ofBytesBE ((aesBlock ks (block16 0)).map (BitVec.ofNat 8))
  let y := ghash h (blocksOf aad.length aad ++ blocksOf cipher.length cipher
    ++ [aad.length * 8 * 2 ^ 64 + cipher.length * 8])
  y ^^^ ofBytesBE ((aesBlock ks (block16 (iv * 2 ^ 32 + 1))).map (BitVec.ofNat 8))

/-- The key stream of an IV added to bytes: encryption, and decryption. -/
def gcmStream (ks : List (List Nat)) (iv : Nat) (l : List Byte) : List Byte := gctr ks l.length (iv * 2 ^ 32 + 2) l

/-! ## Stored blocks (R292, R293) -/

/-- What a block's encryption takes besides the frame. -/
structure BlockName where
  key        : BitVec 256
  fnGen      : Nat
  index      : Nat
  objGen     : Nat
  fn         : Nat
  block      : Nat
  deriving DecidableEq, Repr

/-- The IV of a seq. -/
def BlockName.iv (n : BlockName) (seq : Nat) : Nat := field 32 64 n.fnGen + field 14 50 n.index + field 50 0 seq

/-- The additional data: bytes 0 to 15 of the stored block, and the block's name. -/
def BlockName.aad (n : BlockName) (first : List Byte) : List Byte :=
  first ++ bytesBE 8 n.block ++ bytesBE 2 n.index ++ bytesBE 2 n.objGen ++ bytesBE 2 n.fn ++ [0, 0]

/-- The stored block of a frame under a seq (Table 9.2). -/
def storeBlock (n : BlockName) (seq : Nat) (frame : List Byte) : List Byte :=
  let ks := aesKeys n.key
  let first := bytesLE 8 1 ++ bytesLE 8 seq
  let c := gcmStream ks (n.iv seq) (frame.take 224)
  first ++ c ++ bytesBE 16 (gcmTag ks (n.iv seq) (n.aad first) c)

/-- The frame of a stored block where it passes R295. -/
def openBlock (n : BlockName) (stored : List Byte) : Option (List Byte) :=
  let ks := aesKeys n.key
  let first := stored.take 16
  let seq := ofBytesLE ((first.drop 8).take 8) % 2 ^ 50
  let c := (stored.drop 16).take 224
  let p := gcmStream ks (n.iv seq) c
  if ofBytesLE (first.take 8) = 1 ∧ ofBytesBE (stored.drop 240) = gcmTag ks (n.iv seq) (n.aad first) c
      ∧ ofBytesLE (p.drop 130) = 0 then
    some (p ++ bytesLE 8 n.block ++ List.replicate 24 0)
  else none

end Sys2Proof.Machine
end

