-- ==== Sys2Proof/Machine/Codes.lean ====
section
/-!
DEFINITION. The checksum that the manual names: CRC-32C of RFC 3720 (R371, R469).
-/

namespace Sys2Proof.Machine

/-- One bit of the reflected CRC-32C register. -/
def crcBit (c : Nat) : Nat := if c % 2 = 1 then (c / 2) ^^^ 0x82F63B78 else c / 2

/-- `n` bits of the register. -/
def crcBits : Nat → Nat → Nat
  | 0, c => c
  | n + 1, c => crcBits n (crcBit c)

/-- The register after some bytes. -/
def crcRun (c : Nat) (l : List Byte) : Nat := l.foldl (fun c b => crcBits 8 (c ^^^ b.toNat)) c

/-- CRC-32C of some bytes. -/
def crc32c (l : List Byte) : Nat := crcRun 0xFFFFFFFF l ^^^ 0xFFFFFFFF

/-- CRC-32C continued from the checksum of the bytes before. -/
def crc32cMore (c : Nat) (l : List Byte) : Nat := crcRun (c ^^^ 0xFFFFFFFF) l ^^^ 0xFFFFFFFF

end Sys2Proof.Machine
end

