-- ==== Sys2Proof/Config.lean ====
section
/-!
DEFINITION. What the manual leaves open of a value: functions without a body, so that nothing in Lean can
evaluate them and a statement holds whatever they are.
-/

namespace Sys2Proof

/-- FREE VALUE (log entry 1). The keyed check tag (R62): a function of the engine tag key, handle bits 63:24
and the owning function's fn_generation. The contract does not define it. -/
opaque Config.checkTag : BitVec 128 → BitVec 40 → Nat → BitVec 16

/-- FREE VALUE (log entry 47). Whether every cleared store reads back as zero in step Z4 of a debug unlock (R513, R514), by the
number of zeroisations: the manual lets a cleared store hold a non-zero word and does not say when. -/
opaque Config.clearedZero : Nat → Bool

/-- FREE VALUE (log entry 9). The count that WEIR_READ returns on a chip that is not the root after a completion: a
WEIR_DOWN carries no count (R205, Table 13.2). A function of the weir, its epoch and the result. -/
opaque Config.downCount : BitVec 40 → BitVec 32 → Payload → BitVec 32

/-- FREE VALUE (log entry 10). The scope and release that a TOKENS caravan carries (Table 13.1) where pushes that
differ in them wrote its tokens, or a feed: the manual gives none there. A function of the queue's handle and the first token's position. -/
opaque Config.tokenQualifiers : Word → Nat → BitVec 3 × BitVec 2

/-- FREE VALUE (log entry 44). The packet error code of an MCTP packet's bytes (R496, R497): the binding that the manual
names defines it over bytes that the neighbour keeps. -/
opaque Config.packetCode : List Byte → Byte

/-- FREE VALUE (log entry 44). Bytes of control answers that the manual's standards leave to the endpoint's vendor. -/
opaque Config.vendorByte : Nat → Byte

end Sys2Proof
end

