-- ==== Sys2Proof/Machine/Flags.lean ====
section
/-!
DEFINITION. The flags that the manual computes: a counter's wrap, saturation, the order of epochs.
-/

namespace Sys2Proof.Machine

/-- A sum modulo 2^64, and whether the true sum exceeds it (R140). -/
def addWrap (x y : Word) : Word × Bool := (x + y, decide (2 ^ 64 ≤ x.toNat + y.toNat))

/-- A difference modulo 2^64, and whether the true difference is below zero (R140). -/
def subWrap (x y : Word) : Word × Bool := (x - y, decide (x.toNat < y.toNat))

/-- A number held within bounds, and whether it lay outside them. -/
def clampInt (lo hi z : Int) : Int × Bool := if z < lo then (lo, true) else if hi < z then (hi, true) else (z, false)

/-- A number that saturates at `top`. -/
def satNat (top n : Nat) : Nat := min top n

/-- The width in bytes of a partial (Table 6.3); 0 without a reduction. -/
def partialWidth (op code : Nat) : Nat :=
  match op with
  | 1 => [0, 648, 1288, 328, 520, 520, 128, 128].getD code 0
  | 2 | 3 => [0, 72, 72, 72, 72, 72, 64, 64].getD code 0
  | 4 | 5 | 6 => 64
  | 7 => [0, 72, 136, 136, 264, 264, 64, 32].getD code 0
  | 8 | 9 => [0, 136, 200, 200, 328, 328, 128, 96].getD code 0
  | _ => 0

/-- The segments of a partial: ceil(W / 64) (R194). -/
def segmentCount (op code : Nat) : Nat := (partialWidth op code + 63) / 64

end Sys2Proof.Machine
end

