-- ==== Sys2Proof/Machine/Heads.lean ====
section
/-!
DEFINITION. The head flit of a caravan (R420, R421), and what the queues and credits of a link port alone decide: which
caravan it sends next (R425 to R429).
-/

namespace Sys2Proof.Machine

/-! ## The head flit (Tables 13.1 and 13.2) -/

/-- A caravan's kind. -/
def headKind (h : Flit) : Nat := bits h 127 122
/-- Destination chip. -/
def headDest (h : Flit) : Nat := bits h 121 112
/-- Originating chip. -/
def headSrc (h : Flit) : Nat := bits h 111 102
/-- Function stamp. -/
def headFn (h : Flit) : Nat := bits h 101 90
/-- Link sequence number. -/
def headSeq (h : Flit) : Nat := bits h 89 78
/-- Acknowledged sequence number. -/
def headAck (h : Flit) : Nat := bits h 77 66
/-- Scope of the originating packet. -/
def headScope (h : Flit) : Nat := bits h 65 63
/-- Release of the originating push. -/
def headRelease (h : Flit) : Nat := bits h 62 61
/-- A field of kind_field. -/
def headField (h : Flit) (hi lo : Nat) : Nat := bits h hi lo

/-- Classes of Table 13.2. -/
inductive CaravanClass where
  | control | weir | op
  deriving DecidableEq, Repr

/-- The class of a kind; none where Table 13.2 defines none. -/
def kindClass (k : Nat) : Option CaravanClass :=
  if k ≤ 2 then some .control else if 0x10 ≤ k ∧ k ≤ 0x13 then some .weir
  else if 0x20 ≤ k ∧ k ≤ 0x24 then some .op else none

/-- Whether a kind is numbered (R423). -/
def numbered (k : Nat) : Bool := k != 0 && k != 2

/-- A head with its link's seq and ack (R420: both are rewritten at every hop). -/
def stampHead (h : Flit) (seq ack : Nat) : Flit :=
  BitVec.ofNat 128 (h.toNat - headSeq h * 2 ^ 78 - headAck h * 2 ^ 66 + field 12 78 seq + field 12 66 ack)

/-- The four body flits of 64 bytes in address order (R421). -/
def payloadFlits (p : Payload) : List Flit :=
  (List.range 4).map fun i => BitVec.ofNat 128 (bits p (511 - 128 * i) (384 - 128 * i))

/-- The 64 bytes of four body flits. -/
def flitsPayload (l : List Flit) : Payload :=
  BitVec.ofNat 512 (l.foldl (fun v f => v * 2 ^ 128 + f.toNat) 0)

/-! ## What a port sends next -/

/-- The ack that a port's caravans carry. -/
def Link.ack (l : Link) : Nat := (l.rxSeq + 4095) % 4096

/-- Whether a caravan's flits have transmit credit. -/
def Link.flitsOk (l : Link) (c : Flit × List Flit) : Bool := 1 + c.2.length ≤ l.flitCredit

/-- The head of the op queue is the second part of a unit whose first part has left (R426). -/
def Link.midUnit (l : Link) : Option (Flit × List Flit) :=
  match l.opWait with
  | ⟨c :: _, _, _⟩ :: _ => if headKind c.1 = 0x21 then some c else none
  | _ => none

/-- Whether the head of the weir queue holds its credit and room. -/
def Link.weirReady (l : Link) : Bool :=
  match l.weirWait with
  | ⟨c :: _, _, _⟩ :: _ => 1 ≤ l.weirCredit && l.held.length < 256 && l.flitsOk c
  | _ => false

/-- Whether the head of the op queue holds its credits and room; a seal one seal credit too (R427). -/
def Link.opReady (l : Link) : Bool :=
  match l.opWait with
  | ⟨c :: cs, isSeal, _⟩ :: _ =>
    (1 + cs.length ≤ l.opCredit) && (!isSeal || headKind c.1 != 0x20 || 1 ≤ l.sealCredit) &&
    l.held.length + cs.length < 256 && l.flitsOk c
  | _ => false

/-- What a port sends next. -/
inductive Turn where
  | idle
  | control (c : Flit × List Flit) (rest : List (Flit × List Flit))
  | again (r : Nat × Flit × List Flit)
  | unit (weir : Bool)
  deriving DecidableEq, Repr

/-- The first held caravan to be sent again, where it has transmit credit. -/
def Link.againTurn (l : Link) : Turn :=
  match l.resend with
  | r :: _ => if l.flitsOk (r.2.1, r.2.2) then .again r else .idle
  | [] => .idle

/-- Whether the caravan to be sent again next is an OP_PAYLOAD. -/
def Link.resendsPayload (l : Link) : Bool :=
  match l.resend with
  | r :: _ => headKind r.2.1 == 0x21
  | [] => false

/-- The next caravan of a port (R425 to R429): the OP_PAYLOAD of an OP that has just been presented and nothing else, then
control caravans, caravans sent again, weir caravans and op caravans. A new numbered caravan waits for those sent again. -/
def Link.turn (l : Link) : Turn :=
  if l.state ≠ .up then .idle
  else if l.unitOpen && l.resendsPayload then l.againTurn
  else if l.midUnit.isSome && (l.unitOpen || l.resend.isEmpty) then (if l.opReady then .unit false else .idle)
  else match l.control with
    | c :: rest =>
      if l.flitsOk c && (!numbered (headKind c.1) || (l.resend.isEmpty && l.held.length < 256)) then .control c rest
      else l.againTurn
    | [] =>
      if !l.resend.isEmpty then l.againTurn
      else if l.weirReady then .unit true
      else if l.opReady then .unit false
      else .idle

/-- Whether a turn takes a caravan from the edge budget: one of the weir or op class, sent again or not (R429). -/
def Turn.budgeted : Turn → Bool
  | .again r => kindClass (headKind r.2.1) != some .control
  | .unit _ => true
  | _ => false

/-- The bucket of a port under a budget, in 1/25 caravan, at a count of always-on cycles. -/
def Link.level (l : Link) (budget now : Nat) : Nat := min (25 * budget) (l.budget + budget * (now - l.budgetAt))

end Sys2Proof.Machine
end

