-- ==== Sys2Proof/Machine/Ops.lean ====
section
/-!
DEFINITION. The named operations over the state that every chapter uses: the clocks, settings and counters of
the dictionary, stations and their course distances, messages on the course, the function state table, quotas,
check tags and the event log.
-/

namespace Sys2Proof.Machine

/-! ## Clocks (R558, R562) -/

/-- The always-on count. -/
def State.now (s : State) : Nat := s.clock.ac

/-- The clocks after `n` fast cycles at the frequency of the moment: one ac passes in every `khz / 25,000` fc. -/
def Clock.addFc (c : Clock) (n : Nat) : Clock :=
  let f := c.frac + 25000 * n
  { c with fc := c.fc + n, ac := c.ac + f / max c.khz 1, frac := f % max c.khz 1 }

/-- The clocks after `n` always-on cycles: the fewest fast cycles that reach them. -/
def Clock.addAc (c : Clock) (n : Nat) : Clock :=
  let k := (n * c.khz - c.frac + 24999) / 25000
  { c with fc := c.fc + k, ac := c.ac + n, frac := c.frac + 25000 * k - n * c.khz }

/-- The clocks after `n` always-on cycles without a fast clock (R561). -/
def Clock.addAcAlone (c : Clock) (n : Nat) : Clock := { c with ac := c.ac + n }

/-! ## Ports -/

/-- Transfers leave on the engine's outputs, which are idle while ap0_clamp is 1 (R519, R552). -/
def drive (s : State) (l : List Output) : State := if s.power.clamp then s else { s with outputs := s.outputs ++ l }

/-- The instruments of the test port's serial path (Table 18.7). -/
inductive Instrument where
  | instructionRegister
  | lock
  | boundary
  | scan
  | selfTest
  | telemetry
  deriving DecidableEq, Repr

/-- Which instruments the serial path reaches: the first two always, the others while debug_state is UNLOCKED (R549, R604). -/
def Instrument.reached (d : DebugState) : Instrument → Bool
  | .instructionRegister | .lock => true
  | .boundary | .scan | .selfTest | .telemetry => d == .unlocked

/-- The segments of the serial path between tp0_wsi and tp0_wso. -/
def serialPath (d : DebugState) : List Instrument :=
  [Instrument.instructionRegister, .lock, .boundary, .scan, .selfTest, .telemetry].filter (Instrument.reached d)

/-- Whether a station is under INTEST or EXTEST: it counts as FENCED (Table 18.7). -/
def underTest (s : State) (n : Nat) : Bool := Instrument.boundary.reached s.debug && (tget s.wrappers n).isSome

/-- Whether the fast-clock ports answer: present, with their clock, and not clamped (R534, R552, R561). -/
def portsLive (s : State) : Bool := s.power.present && s.power.fcAck && !s.power.clamp

/-- A link port. -/
def linkAt (s : State) (p : Nat) : Link := tgetD s.links p { Link.initial with state := .absent }

/-- A link port is replaced. -/
def setLink (s : State) (p : Nat) (l : Link) : State := { s with links := tput s.links p l }

/-- A link port changes. -/
def onLink (s : State) (p : Nat) (f : Link → Link) : State := setLink s p (f (linkAt s p))

/-! ## Dictionary values -/

/-- The size in bytes that a row's counter wraps at; 8 where no row is found. -/
def rowSize (rows : List EntryRow) (k : Nat) : Nat := match rowOf rows k with | some r => r.size | none => 8

/-- A row's default. -/
def rowDefault (rows : List EntryRow) (k : Nat) : Nat := match rowOf rows k with | some r => r.default | none => 0

/-- An engine-wide value: key is 256 times the index plus the subindex. -/
def setting (s : State) (k : Nat) : Nat := tgetD s.dict k (rowDefault dictRows k)

/-- An engine-wide value is set. -/
def setSetting (s : State) (k v : Nat) : State := { s with dict := tput s.dict k v }

/-- An engine-wide counter grows by `n`, modulo its size. -/
def bumpBy (s : State) (k n : Nat) : State :=
  setSetting s k ((setting s k + n) % 256 ^ rowSize dictRows k)

/-- An engine-wide counter grows by one. -/
def bump (s : State) (k : Nat) : State := bumpBy s k 1

/-! ## Time passes -/

/-- The mailbox credits that a message takes (R119). -/
def PushMsg.cost (m : PushMsg) : Nat := if m.launch.isSome then 3 else 1

/-- The mailbox credits of an engine at a station. -/
def mailboxLeft (s : State) (st : Station) (agent : Nat) : Nat := s.gelari.mailboxDepth - tgetD st.pushUsed agent 0

/-- Whether a ready message, the first for its engine, waits for credit (R120). -/
def creditWaits (s : State) (st : Station) : List Nat → List PushMsg → Bool
  | _, [] => false
  | seen, m :: rest =>
    if seen.contains m.agent then creditWaits s st seen rest
    else decide (mailboxLeft s st m.agent < m.cost) || creditWaits s st (m.agent :: seen) rest

/-- An object that migrates has a copy at both homes, which counts once: at the old home until FORWARD_DONE has arrived at
the new. -/
def countsHere (s : State) (n : Nat) (st : Station) (index : Nat) : Bool :=
  !(match st.incoming with | some m => m.index == index | none => false) &&
  !(match st.outgoing with | some m => m.index == index && (tget s.journal n).isNone | none => false)

/-- Whether a push waits at its home for the tail window (R256). -/
def Obj.waitsForTail (o : Obj) : Bool :=
  match o.body with
  | .queue q => q.pushing.isSome && q.spillTail != 0
  | _ => false

/-- The fast cycles of `n` that a counter adds for `k` things that wait. -/
def bumpWaiting (s : State) (key k n : Nat) : State := if k = 0 ∨ n = 0 then s else bumpBy s key (k * n)

/-- How many of the next `n` fast cycles a port's next caravan waits for the edge budget (R429). -/
def stallFc (s : State) (n p : Nat) (l : Link) : Nat :=
  let b := setting s (0x2D0700 + p)
  let level := l.level b s.now
  if b = 0 ∨ 25 ≤ level ∨ !l.turn.budgeted then 0
  else min n ((s.clock.addAc ((25 - level + b - 1) / b)).fc - s.clock.fc)

/-- What waits while `n` fast cycles pass is counted: stations for mailbox credit (push_credit_stall_fc), queues for
their tail windows (spill_wait_fc), steps for their shadow records (shadow_wait_fc), and caravans for the edge budget
(edge_stall_fc). -/
def countWaiting (s : State) (n : Nat) : State :=
  let pushes := (s.stations.filter fun p => creditWaits s p.2 [] p.2.ready).length
  let spills := (s.stations.map fun p => (p.2.objects.filter fun o => o.2.waitsForTail && countsHere s p.1 p.2 o.1).length).sum
  let steps := (s.stations.map fun p => (p.2.shadowHolds.filter fun h => !h.msgs.isEmpty).length).sum
  let edges := (s.links.map fun p => stallFc s n p.1 p.2).sum
  bumpWaiting (bumpWaiting (bumpWaiting (bumpWaiting s 0x230504 pushes n) 0x280405 spills n) 0x2C0302 steps n) 0x2D0605 edges 1

/-- `n` fast cycles pass. -/
def passFc (s : State) (n : Nat) : State :=
  { countWaiting s n with clock := s.clock.addFc n }

/-- `n` always-on cycles pass; the fast clock's with them while it is acknowledged. -/
def passAc (s : State) (n : Nat) : State :=
  let c := if s.power.fcAck then s.clock.addAc n else s.clock.addAcAlone n
  { countWaiting s (c.fc - s.clock.fc) with clock := c }

/-- Time passes until the always-on count is at least `t`. -/
def passToAc (s : State) (t : Nat) : State := passAc s (t - s.clock.ac)

/-- Time passes until the fast count is at least `t`. -/
def passToFc (s : State) (t : Nat) : State := passFc s (t - s.clock.fc)

/-- A deadline `n` ac from now, kept modulo 2^33 (R115). -/
def deadlineIn (s : State) (n : Nat) : Nat := (s.now + n) % 2 ^ 33

/-- Time passes until a deadline kept modulo 2^33 is passed: not at all where it already is (R115). -/
def passDeadline (s : State) (d : Nat) : State :=
  let ahead := (d + 2 ^ 33 - s.now % 2 ^ 33) % 2 ^ 33
  if ahead ≤ 2 ^ 32 then passAc s ahead else s

/-! ## Per-function values -/

/-- A per-function value, by function and subindex (R94). -/
def fnSetting (s : State) (f sub : Nat) : Nat := tgetD s.fnDict (256 * f + sub) (rowDefault fnRows sub)

/-- A per-function value is set. -/
def setFnSetting (s : State) (f sub v : Nat) : State := { s with fnDict := tput s.fnDict (256 * f + sub) v }

/-- A per-function counter grows by `n`, modulo its size. -/
def bumpFnBy (s : State) (f sub n : Nat) : State :=
  setFnSetting s f sub ((fnSetting s f sub + n) % 256 ^ rowSize fnRows sub)

/-- A per-function counter grows by one. -/
def bumpFn (s : State) (f sub : Nat) : State := bumpFnBy s f sub 1

/-! ## Stations -/

/-- A station; one that the configuration does not contain is ABSENT and empty. -/
def station (s : State) (n : Nat) : Station := tgetD s.stations n (Station.empty .absent)

/-- A station is replaced. -/
def setStation (s : State) (n : Nat) (st : Station) : State := { s with stations := tput s.stations n st }

/-- A station changes. -/
def onStation (s : State) (n : Nat) (f : Station → Station) : State := setStation s n (f (station s n))

/-- ACTIVE or DOZING: the station serves (R341). -/
def serving (st : Station) : Bool := st.state == .active || st.state == .dozing

/-- The logic of a station that is ACTIVE or FENCED takes messages; a dozing one is woken first (R569), and one
in reset or off has none. -/
def awake (st : Station) : Bool := st.state == .active || (st.state == .fenced && !st.isolated)

/-- The fc of the station's latest foreground work (R569). -/
def touch (s : State) (n : Nat) : State := onStation s n fun st => { st with idleSince := s.clock.fc }

/-- The shape of the course: columns and rows (Table 1.3). -/
def courseShape (stations : Nat) : Nat × Nat :=
  if stations = 8 then (4, 2) else if stations = 16 then (4, 4) else if stations = 64 then (8, 8)
  else (stations / 4, 4)

/-- The course distance between grid stations (R31). -/
def gridDistance (stations a b : Nat) : Nat :=
  let (x, y) := courseShape stations
  let dx := max (a % x) (b % x) - min (a % x) (b % x)
  let dy := max (a / x) (b / x) - min (a / x) (b / x)
  min dx (x - dx) + min dy (y - dy)

/-- The anchors of a station: its own number for a grid station, two grid stations for a spare (R32). -/
def anchors (g : Gelari) (n : Nat) : List Nat :=
  if n < 64 then [n] else match g.spareAnchors[n - 64]? with | some (a, b) => [a, b] | none => []

/-- The course distance between any two stations (R31, R32): one more for each spare at an end. -/
def courseDistance (g : Gelari) (a b : Nat) : Nat :=
  if a = b then 0 else
  let ds := (anchors g a).flatMap fun p => (anchors g b).map fun q => gridDistance g.stations p q
  (ds.foldl min 127) + (if a < 64 then 0 else 1) + (if b < 64 then 0 else 1)

/-- The course diameter (R31). -/
def courseDiameter (stations : Nat) : Nat :=
  let (x, y) := courseShape stations
  x / 2 + y / 2

/-- The next station on the dimension-ordered route from `a` toward `b` (R33): along x first by the shorter way,
an equal way increasing, then along y; over the nearer anchor, the lower of two equally near, at a spare. -/
def nextHop (g : Gelari) (a b : Nat) : Nat :=
  if a = b then b else
  if 64 ≤ a then
    ((anchors g a).foldl (fun (best : Nat × Nat) p =>
      let d := courseDistance g p b
      if d < best.1 ∨ (d = best.1 ∧ p < best.2) then (d, p) else best) (1000, b)).2
  else
    let target := if b < 64 then b else
      ((anchors g b).foldl (fun (best : Nat × Nat) q =>
        let d := gridDistance g.stations a q
        if d < best.1 ∨ (d = best.1 ∧ q < best.2) then (d, q) else best) (1000, b)).2
    if a = target then b else
    let (x, y) := courseShape g.stations
    let ax := a % x; let ay := a / x; let tx := target % x; let ty := target / x
    if ax ≠ tx then
      let up := (tx + x - ax) % x
      ay * x + (if 2 * up ≤ x then (ax + 1) % x else (ax + x - 1) % x)
    else
      let up := (ty + y - ay) % y
      (if 2 * up ≤ y then (ay + 1) % y else (ay + y - 1) % y) * x + ax

/-! ## Functions -/

/-- What the control station holds of a function; an absent entry is DISABLED. -/
def fnOf (s : State) (f : Nat) : Fn := tgetD s.fns f ⟨.disabled, 0, none, none, none, 1⟩

/-- The function entry is replaced. -/
def setFn (s : State) (f : Nat) (x : Fn) : State := { s with fns := tput s.fns f x }

/-- The functions that are ENABLED or DRAINING hold reserves and shares (Table 2.6). -/
def Fn.live (x : Fn) : Bool := x.state == .enabled || x.state == .draining

/-- The live functions. -/
def liveFns (s : State) : List Nat := (s.fns.filter fun p => p.2.live).map (·.1)

/-- The partition of a function (Table 2.8). -/
def fnPartition (s : State) (f : Nat) : Nat := fnSetting s f 0x02

/-- The partition of a logical core; 255 for none (Table 2.8). -/
def corePartition (s : State) (core : Nat) : Nat := (rget s.maps.partition core).getD 255

/-- The entry station of an agent (Table 1.12); 255 where the agent is absent. -/
def entryOf (s : State) (agent : Nat) : Nat := (rget s.maps.entry (agentSlot agent)).getD 255

/-- The physical core of a logical core; 0xFFFF where absent (Table 14.14). -/
def physOf (s : State) (core : Nat) : Nat := (rget s.maps.rowRemap core).getD 0xFFFF

/-- Whether an agent is an engine of a fenced core (R472). -/
def agentFenced (s : State) (agent : Nat) : Bool :=
  !agentAux agent && s.fenced.contains (physOf s (agentCore agent))

/-- The check tag of handle bits 63:24 under the owning function's generation (R62). -/
def tagOf (s : State) (hi : BitVec 40) : BitVec 16 :=
  Config.checkTag s.tagKey hi (fnOf s (hiFn hi)).generation

/-- The handle of an object with a selector. -/
def issue (s : State) (hi : BitVec 40) (sel : Nat) : Word := handleOf hi (tagOf s hi) sel

/-- Whether a handle's check tag matches (R63). -/
def tagOk (s : State) (h : Word) : Bool := Handle.tag h == tagOf s (Handle.hi h)

/-! ## Objects and the chart -/

/-- The object at an index of a station. -/
def objAt (s : State) (home index : Nat) : Option Obj := tget (station s home).objects index

/-- An object at its home is replaced. -/
def setObj (s : State) (home index : Nat) (o : Obj) : State :=
  onStation s home fun st => { st with objects := tput st.objects index o }

/-- An object leaves its home. -/
def dropObj (s : State) (home index : Nat) : State :=
  onStation s home fun st => { st with objects := tdel st.objects index }

/-- The object of a handle at a home, where all of R66 holds. -/
def liveObj (s : State) (home : Nat) (h : Word) : Option Obj :=
  match objAt s home (Handle.index h) with
  | some o => if o.hi = Handle.hi h then some o else none
  | none => none

/-- A chart commit takes effect at a replica (R27): an index with a home, or none. -/
def chartSet (s : State) (n index : Nat) (e : Option ChartEntry) : State :=
  onStation s n fun st => { st with chart := match e with | some c => tput st.chart index c | none => tdel st.chart index }

/-- The entry of a replica. -/
def chartAt (s : State) (n index : Nat) : Option ChartEntry := tget (station s n).chart index

/-! ## Messages on the course -/

/-- The class of a message (Table 1.5): 0 request, 1 response, 2 tree up, 3 tree down. -/
def MsgBody.cls : MsgBody → Nat
  | .response .. | .registeredWait .. | .withdrawn .. | .popGrant .. | .beaconAck .. | .freeNotice ..
  | .spillAccepted .. | .spillRefused .. | .extentReserved .. | .extentRefused .. | .extentReleased ..
  | .shadowWritten .. | .imagePart .. | .launchAnswer .. | .copyAnswer .. | .rolesTaken .. | .refillSegment .. => 1
  | .combined .. | .combinedMoved .. | .setupAck .. | .subscribe .. | .teardownAck .. => 2
  | .completion .. | .setup .. | .teardown .. | .subscribeReply .. | .chartCommit .. | .chartClear .. | .wake .. | .rebind ..
  | .beaconUpdate .. => 3
  | _ => 0

/-- A message leaves its sender; messages of one class between two stations keep this order (R33). -/
def send (s : State) (src dst : Nat) (b : MsgBody) : State := { s with course := s.course ++ [⟨src, dst, b⟩] }

/-- Several messages leave one station, in order. -/
def sendAll (s : State) (src : Nat) (ms : List (Nat × MsgBody)) : State :=
  { s with course := s.course ++ ms.map fun m => ⟨src, m.1, m.2⟩ }

/-- The stations that a message with dest 127 reaches, less its sender: those that exist and are not OFF
(R28, R40). -/
def others (s : State) (n : Nat) : List Nat :=
  (s.stations.filter fun p => p.1 != n && p.2.state != .off && p.2.state != .absent).map (·.1)

/-- A message goes to every other station (dest 127). -/
def broadcast (s : State) (src : Nat) (b : MsgBody) : State := sendAll s src ((others s src).map (·, b))

/-! ## Chart commits (R28, R54, R611) -/

/-- A commit that settles an index at a station, or that makes its entry not valid. -/
def chartMsg (index : Nat) : Option ChartEntry → MsgBody
  | some e => .chartCommit index e.move e.home false
  | none => .chartClear index

/-- A station commits an index: its own replica at once, every other by a message with dest 127; chart_version counts the
commit. -/
def chartCommit (s : State) (n index : Nat) (e : Option ChartEntry) : State :=
  bump (broadcast (chartSet s n index e) n (chartMsg index e)) 0x210300

/-- Whether a message is a commit of an index. -/
def commitOf (index : Nat) (m : Msg) : Bool :=
  match m.body with
  | .chartCommit i .. | .chartClear i => i == index
  | _ => false

/-- Whether a station's commits of an index have reached every replica that can take them. -/
def chartSettled (s : State) (n index : Nat) : Bool :=
  s.course.all fun m => !(commitOf index m && m.src == n && (awake (station s m.dst) || (station s m.dst).state == .dozing))

/-! ## Quotas (R71) -/

/-- Whether `n` more units may be taken: `u` in use, reserve `r`, limit `m`, and `free` units of capacity that no
live function uses or reserves. -/
def quotaOk (u n r m free : Nat) : Bool := u + n ≤ m && u + n - max u r ≤ free

/-- Unreserved capacity: capacity less the larger of use and reserve of every live function. -/
def unreserved (s : State) (capacity : Nat) (use : Nat → Nat) (reserveSub : Nat) : Nat :=
  capacity - ((liveFns s).map fun f => max (use f) (fnSetting s f reserveSub)).sum

/-- Waiter records of its home that an object occupies: four for each eddy (R145), one for each held seal
(R232), watch or feed record (R322), one for a rule's extension (R321) and two for each group of a keeper
(R71). -/
def Obj.records (o : Obj) : Nat :=
  o.watches.length + match o.body with
  | .counter c => 4 * c.eddies.length
  | .landing l => 4 * l.eddies.length + l.seals.length
  | .queue q => 4 * (q.popEddies.length + q.tollEddies.length)
  | .rule _ => 1
  | .keeper k => 2 * k.groups.length
  | _ => 0

/-- The objects of a function at a station. -/
def objsOf (st : Station) (f : Nat) : List Obj := (st.objects.filter fun p => hiFn p.2.hi == f).map (·.2)

/-- The handle bits of every object, each once. -/
def allObjects (s : State) : List (BitVec 40) :=
  s.stations.flatMap fun p => (p.2.objects.filter fun q => countsHere s p.1 p.2 q.1).map fun q => q.2.hi

/-- Objects of a function, over all stations (Table 2.5). -/
def objectsUsed (s : State) (f : Nat) : Nat := ((allObjects s).filter fun h => hiFn h == f).length

/-- Objects, over all functions and stations. -/
def objectsLive (s : State) : Nat := (allObjects s).length

/-- The objects of a class, over all stations. -/
def classLive (s : State) (cls : Nat) : Nat :=
  ((allObjects s).filter fun h => hiCls h == cls).length

/-- Queue windows of a function: two for each of its queues (Table 2.5). -/
def windowsUsed (s : State) (f : Nat) : Nat :=
  2 * ((allObjects s).filter fun h => hiFn h == f && hiCls h == 4).length

/-- Waiter records that a node takes at a station (R164, R213): itself, its map records, and its overflow
segments; a scope-5 home's system record is three more (R432). -/
def nodeRecords (p : WeirParams) (local_ : Nat) (listener : Bool) : Nat :=
  if listener then 1 else
  1 + (match p.parts with | .range .. => (local_ + 127) / 128 | .list _ => (local_ + 7) / 8)
    + 4 * (segmentCount p.redOp p.inFormat - 1)

/-- Waiter records that a node occupies. -/
def Node.records (n : Node) : Nat :=
  nodeRecords n.params n.local_ (n.role == 0) + (if n.role = 2 ∧ n.params.scope = 5 then 3 else 0)

/-- The nodes for which a station holds records and slots: its own, and the home node of a weir that moves here (R346). -/
def Station.nodesHeld (st : Station) : List Node :=
  st.nodes.map (·.2) ++ match st.incoming with | some m => m.node.toList | none => []

/-- Waiter records in use at a station, by every function. -/
def recordsUsed (st : Station) : Nat :=
  st.waiters.length + (st.objects.map fun p => p.2.records).sum + (st.nodesHeld.map (·.records)).sum

/-- Queue windows in use at a station: two for each of its queues. -/
def windowsHere (st : Station) : Nat := 2 * (st.objects.filter fun p => hiCls p.2.hi == 4).length

/-- Waiter records of a function at a station (R71): its waits, and what its objects and nodes occupy there. -/
def waitersUsed (st : Station) (f : Nat) : Nat :=
  (st.waiters.filter fun w => Handle.fn w.handle == f).length + ((objsOf st f).map Obj.records).sum
    + ((st.nodesHeld.filter fun x => hiFn x.hi == f).map (·.records)).sum

/-- Whether a node holds a confluence slot: a reduction at a member or home (Table 2.5). -/
def Node.slot (n : Node) : Bool := n.params.redOp != 0 && n.role != 0

/-- Confluence slots of a function at a station. -/
def slotsUsed (st : Station) (f : Nat) : Nat := (st.nodesHeld.filter fun x => hiFn x.hi == f && x.slot).length

/-- Confluence slots in use at a station, by every function. -/
def slotsHere (st : Station) : Nat := (st.nodesHeld.filter (·.slot)).length

/-- Ferry tags of a function in use, over all slices; a capture's tags are charged to no function (R299). -/
def tagsUsed (s : State) (f : Nat) : Nat :=
  (s.slices.map fun p => (p.2.tags.filter fun t => t.xact.cls != .capture && t.xact.fn == f).length).sum

/-- Whether a function may take `n` waiter records at a station. -/
def waiterQuota (s : State) (n f k : Nat) : Bool :=
  let st := station s n
  quotaOk (waitersUsed st f) k (fnSetting s f 0x0A) (fnSetting s f 0x0B)
    (unreserved s 2048 (fun g => waitersUsed st g) 0x0A)

/-- Whether a station has `k` waiter records free that a function may take (R68, R71, R172). -/
def recordsFree (s : State) (n f k : Nat) : Bool := waiterQuota s n f k && recordsUsed (station s n) + k ≤ 2048

/-- Whether a function may take a confluence slot at a station. -/
def slotQuota (s : State) (n f : Nat) : Bool :=
  let st := station s n
  quotaOk (slotsUsed st f) 1 (fnSetting s f 0x0C) (fnSetting s f 0x0D)
    (unreserved s 128 (fun g => slotsUsed st g) 0x0C)

/-- Whether a station has a confluence slot free that a function may take (R214). -/
def slotFree (s : State) (n f : Nat) : Bool := slotQuota s n f && slotsHere (station s n) < 128

/-- Whether a function may take an object (the ledger of R74), of min(512·s, 16,384) live ones. -/
def objectQuota (s : State) (f : Nat) (k : Nat := 1) : Bool :=
  quotaOk (objectsUsed s f) k (fnSetting s f 0x06) (fnSetting s f 0x07)
    (unreserved s (min (512 * s.gelari.stations) 16384) (objectsUsed s) 0x06)

/-- Whether a function may take the two windows of a queue, of 256·s. -/
def windowQuota (s : State) (f : Nat) : Bool :=
  quotaOk (windowsUsed s f) 2 (fnSetting s f 0x08) (fnSetting s f 0x09)
    (unreserved s (256 * s.gelari.stations) (windowsUsed s) 0x08)

/-! ## Events (R505 to R510) -/

/-- Whether an event may be masked (Tables 15.12, 16.18, 17.11, 18.9). -/
def maskable (code : Nat) : Bool :=
  [0x10, 0x11, 0x12, 0x21, 0x24, 0x30, 0x32, 0x40, 0x42, 0x51, 0x52, 0x53, 0x60, 0x70, 0x73, 0x76, 0x77].contains code

/-- Whether every subscriber has acknowledged an entry (R508): none holds a slot, or each is past its sequence. -/
def acknowledged (s : State) (e : Event) : Bool := s.subs.all fun p => e.seq < p.2.next

/-- An entry is appended with the next sequence and the time of raising. -/
def appendEvent (s : State) (code : Nat) (record : BitVec 256) : State :=
  let seq := setting s 0x200601
  setSetting { s with log := s.log ++ [⟨seq, code, !maskable code, s.now % 2 ^ 32, record⟩] } 0x200601
    ((seq + 1) % 2 ^ 32)

/-- The log with room for one more: as it is while below 256 entries, else without the entry that R508 replaces. -/
def logRoom (s : State) : Option State :=
  if s.log.length < 256 then some s else
  match takeFirst (fun e => !e.fixed) s.log with
  | some (_, rest) => some (bump { s with log := rest } 0x200602)
  | none =>
    match takeFirst (acknowledged s) s.log with
    | some (_, rest) => some (bump { s with log := rest } 0x200602)
    | none => none

/-- An event is raised: logged, or lost and counted (R508). -/
def raise (s : State) (code : Nat) (record : BitVec 256) : State :=
  match logRoom s with
  | some t => appendEvent t code record
  | none => { bump s (if maskable code then 0x200602 else 0x200603) with lossOpen := true }

/-- After a loss, the first entry that may be replaced gives room for event_overflow (R508). -/
def overflowCheck (s : State) : State :=
  if s.lossOpen then
    match logRoom s with
    | some t =>
      appendEvent { t with lossOpen := false } 0x03
        (BitVec.ofNat 256 (setting t 0x200602 * 2 ^ 192 + setting t 0x200603 * 2 ^ 128))
    | none => s
  else s

/-- The generic event record (Table 15.13). -/
def generic (a b fn part unit : Nat) : BitVec 256 :=
  BitVec.ofNat 256 (field 64 192 a + field 64 128 b + field 12 116 fn + field 6 110 part + field 7 103 unit)

/-- The sum of the four counters of corrected words (R586). -/
def correctedSum (s : State) : Nat := (([1, 2, 3, 4] : List Nat).map fun i => setting s (0x410200 + i)).sum

/-- A corrected word is counted under its kind, 1 SRAM, 2 course, 3 port, 4 control station, and mem_corrected raised at each
multiple of the step (R586). -/
def countCorrected (s : State) (kind : Nat) : State :=
  let t := bump s (0x410200 + kind)
  let step := setting t 0x410205
  if step ≠ 0 ∧ correctedSum t % step = 0 then raise t 0x70 (generic (correctedSum t) 0 0 0 0) else t

/-- Corrected words of a kind are counted one by one. -/
def correctedWords (s : State) (kind : Nat) : Nat → State
  | 0 => s
  | k + 1 => correctedWords (countCorrected s kind) kind k

/-- A per-function counter grows by one, and an event is raised at each multiple of a step; 0 raises none. -/
def bumpFnStep (s : State) (f sub step code : Nat) : State :=
  let t := bumpFn s f sub
  let v := fnSetting t f sub
  if step ≠ 0 ∧ v % step = 0 then raise t code (generic v 0 f 0 0) else t

/-- The fc that stations which doze now have spent dozing (R580). -/
def dozingFc (s : State) : Nat :=
  ((s.stations.filter fun p => p.2.state == .dozing).map fun p => s.clock.fc - p.2.idleSince).sum

/-! ## Telemetry (R607) -/

/-- A histogram's bin grows by one and saturates: 1 weir_latency_hist, 2 fanout_hist, 3 ferry_occupancy_hist. -/
def sampleBin (s : State) (hist b : Nat) : State :=
  { s with bins := tput s.bins (16 * hist + min 15 b) (min (2 ^ 64 - 1) (tgetD s.bins (16 * hist + min 15 b) 0 + 1)) }

/-- A weir_latency_hist sample of `n` fc. -/
def sampleLatency (s : State) (n : Nat) : State := sampleBin s 1 (if n < 32 then 0 else Nat.log2 n - 4)

/-- A fanout_hist sample of `n` waits; an evaluation that ends none takes none. -/
def sampleFanout (s : State) (n : Nat) : State := if n = 0 then s else sampleBin s 2 (Nat.log2 n)

end Sys2Proof.Machine
end

