-- ==== Sys2Proof/Machine/Caravan.lean ====
section
/-!
DEFINITION. Caravans and the links that carry them (R414 to R430): routing, the queues, credits, edge budget and
retransmission of a link port.
-/

namespace Sys2Proof.Machine

/-! ## Caravans of this chip -/

/-- This chip's identifier (R414). -/
def chipId (s : State) : Nat := setting s 0x2D0100

/-- A caravan that originates on this chip, its seq and ack still zero. -/
def mkCaravan (s : State) (kind dest fn scope release kindField : Nat) (bodies : List Flit) : Flit × List Flit :=
  (BitVec.ofNat 128 (field 6 122 kind + field 10 112 dest + field 10 102 (chipId s) + field 12 90 fn
    + field 3 63 scope + field 2 61 release + field 3 58 bodies.length + field 58 0 kindField), bodies)

/-! ## Links -/

/-- The attach station of a link port (R44). -/
def linkAttach (s : State) (p : Nat) : Nat := s.gelari.attachLink.getD p 0

/-- Caravans discarded (R418). -/
def discardCaravans (s : State) (n : Nat) : State := bumpBy s 0x2D0604 n

/-- A byte of a port's routing table: bits 4:0 (R417). -/
def routeByte (s : State) (table chip : Nat) : Nat := (rget (tgetD s.routes table []) chip).getD 0x1F % 32

/-- The output port for a caravan that originates here; none where its route fails (R418). A route to this chip
has no port to leave by (log entry 31). -/
def originRoute (s : State) (chip : Nat) : Option Nat :=
  let r := routeByte s (setting s 0x2D0210) chip
  if r < 16 ∧ (linkAt s r).state = .up then some r else none

/-- The port that a caravan to a chip would use, UP or not: the route that a loss acts on (R448). -/
def originPort (s : State) (chip : Nat) : Option Nat :=
  let r := routeByte s (setting s 0x2D0210) chip
  if r < 16 then some r else none

/-- A unit joins the queue of its class at a port. -/
def enqueueUnit (s : State) (p : Nat) (u : CaravanOut) : State :=
  let weir : Bool := match u.parts with
    | (h, _) :: _ => kindClass (headKind h) == some .weir
    | [] => false
  onLink s p fun l => if weir then { l with weirWait := l.weirWait ++ [u] } else { l with opWait := l.opWait ++ [u] }

/-- A unit that originates at a station goes to the attach station of its route's port as course message type 0x0B (R422);
`false` where the route fails: it is not sent (R418). -/
def originate (s : State) (n chip : Nat) (parts : List (Flit × List Flit)) (isSeal : Bool) : State × Bool :=
  match originRoute s chip with
  | some p => (send s n (linkAttach s p) (.caravan true isSeal parts), true)
  | none => (s, false)

/-- A unit of this chip reaches an attach station and waits at the port of its route; one whose port is lost by then is among
the caravans that wait for it (R448 step 1). -/
def caravanLeaves (s : State) (n : Nat) (isSeal : Bool) (parts : List (Flit × List Flit)) : State :=
  match originPort s (headDest ((parts.headD (0, [])).1)) with
  | none => discardCaravans s parts.length
  | some p =>
    if linkAttach s p ≠ n then send s n (linkAttach s p) (.caravan true isSeal parts)
    else match (linkAt s p).state with
      | .up | .down => enqueueUnit s p ⟨parts, isSeal, none⟩
      | _ => discardCaravans s parts.length

/-- A CREDIT caravan is queued: weir, op and seal credits returned (R428). A port that is DOWN sends it when it is UP again; one
that leaves LOST starts with all its credits (R449). -/
def returnCredit (s : State) (p weir op seal_ : Nat) : State :=
  if (linkAt s p).state = .up ∨ (linkAt s p).state = .down then
    let c := mkCaravan s 0x01 (linkAt s p).peer 0 0 0 (field 7 51 weir + field 7 44 op + field 9 35 seal_) []
    onLink s p fun l => { l with control := l.control ++ [c] }
  else s

/-- The credits that a unit's buffer places return: one of its class for each caravan, and a seal's where its OP is still
there. -/
def returnUnit (s : State) (p : Nat) (u : CaravanOut) : State :=
  match u.parts with
  | (h, _) :: _ =>
    if kindClass (headKind h) = some .weir then returnCredit s p 1 0 0
    else returnCredit s p 0 u.parts.length (flag (u.isSeal && headKind h == 0x20))
  | [] => s

/-! ## Budget (R429) -/

/-- The bucket of a port as it stands now, in 1/25 caravan. -/
def budgetNow (s : State) (p : Nat) : Nat := (linkAt s p).level (setting s (0x2D0700 + p)) s.now

/-- Whether a caravan may be sent within the budget. -/
def budgetOk (s : State) (p : Nat) : Bool := setting s (0x2D0700 + p) == 0 || 25 ≤ budgetNow s p

/-- A caravan is taken from the bucket. -/
def takeBudget (s : State) (p : Nat) : State :=
  if setting s (0x2D0700 + p) = 0 then s
  else onLink s p fun l => { l with budget := budgetNow s p - 25, budgetAt := s.now }

/-- A new edge_budget fills the bucket from now on; the old one has filled it until now. -/
def budgetWrites (s : State) (p v : Nat) : State :=
  setSetting (if p < s.gelari.linkPorts then onLink s p fun l => { l with budget := budgetNow s p, budgetAt := s.now } else s)
    (0x2D0700 + p) v

/-! ## Sending -/

/-- A port's timers start again: link_lost_ac and retx_timeout_fc (R425, R447). -/
def Link.timed (s : State) (l : Link) : Link :=
  { l with lossDue := s.now + setting s 0x2D0401, retxDue := s.clock.fc + setting s 0x2D0402 }

/-- A caravan is presented on a port: its flits take transmit credit, and its ack acknowledges (R420, R425). -/
def present (s : State) (p : Nat) (head : Flit) (bodies : List Flit) : State :=
  let l := linkAt s p
  let t := setLink s p { l with
    flitCredit := l.flitCredit - (1 + bodies.length), ackDue := false, ackSent := l.ack
    unitOpen := headKind head == 0x20 && bit head 49 }
  bump (drive t [.caravan p head bodies]) 0x2D0601

/-- A numbered caravan is presented for the first time and held until it is acknowledged (R423); among caravans that are being
sent again it takes its place at their end. -/
def presentNew (s : State) (p : Nat) (c : Flit × List Flit) : State :=
  let l := linkAt s p
  let h := stampHead c.1 l.txSeq l.ack
  present (setLink s p { (if l.held.isEmpty then l.timed s else l) with
    txSeq := (l.txSeq + 1) % 4096, held := l.held ++ [(l.txSeq, c.1, c.2)]
    resend := if l.resend.isEmpty then [] else l.resend ++ [(l.txSeq, c.1, c.2)] }) p h c.2

/-- A unit of the weir or op queue leaves: its first caravan is presented, the rest stay at the head; a relayed
unit's places return their credits when it has left (R428). -/
def sendUnit (s : State) (p : Nat) (weir : Bool) : State :=
  let l := linkAt s p
  match (if weir then l.weirWait else l.opWait) with
  | ⟨c :: cs, isSeal, relay⟩ :: rest =>
    let u : CaravanOut := ⟨cs, isSeal, relay⟩
    let l1 := if weir then
        { l with weirWait := rest, weirCredit := l.weirCredit - 1 }
      else
        { l with
          opWait := if cs.isEmpty then rest else u :: rest
          opCredit := l.opCredit - 1
          sealCredit := l.sealCredit - flag (isSeal && headKind c.1 == 0x20) }
    let t := presentNew (takeBudget (setLink s p l1) p) p c
    match relay with
    | some q =>
      if weir then returnCredit t q 1 0 0
      else returnCredit t q 0 1 (flag (isSeal && headKind c.1 == 0x20))
    | none => t
  | _ => s

/-- A held caravan is sent again with the ack of now (R425); one of the control class takes no budget (R429). -/
def sendAgain (s : State) (p : Nat) (seq : Nat) (c : Flit × List Flit) : State :=
  let l := linkAt s p
  let t := setLink s p { l with resend := l.resend.tail }
  let u := if kindClass (headKind c.1) = some .control then t else takeBudget t p
  bump (present u p (stampHead c.1 seq l.ack) c.2) 0x2D0603

/-- The first control caravan is sent. -/
def sendControl (s : State) (p : Nat) (c : Flit × List Flit) (rest : List (Flit × List Flit)) : State :=
  let t := onLink s p fun l => { l with control := rest }
  if numbered (headKind c.1) then presentNew t p c
  else present t p (stampHead c.1 0 (linkAt t p).ack) c.2

/-- A port sends its next caravan; where only the budget holds it back, one fc passes (R429). -/
def sendNext (s : State) (p : Nat) : State :=
  let turn := (linkAt s p).turn
  if turn.budgeted && !budgetOk s p then passFc s 1
  else match turn with
    | .idle => s
    | .control c rest => sendControl s p c rest
    | .again r => sendAgain s p r.1 (r.2.1, r.2.2)
    | .unit weir => sendUnit s p weir

/-! ## Acknowledgement and acceptance (R423 to R425) -/

/-- The held caravans that an ack leaves uncovered. -/
def uncovered (ack : Nat) (held : List (Nat × Flit × List Flit)) : List (Nat × Flit × List Flit) :=
  if held.any fun h => h.1 == ack then (held.dropWhile fun h => h.1 != ack).tail else held

/-- An ack reaches a port: the caravans that it covers leave the retransmit buffer; its advance starts the timers again. -/
def takeAck (s : State) (p ack : Nat) : State :=
  onLink s p fun l =>
    let held := uncovered ack l.held
    { (if held.length < l.held.length then l.timed s else l) with held := held, resend := l.resend.filter fun r => held.any fun h => h.1 == r.1 }

/-- Whether a caravan is accepted by a port (R424, R521, R541): the port is UP, its flits are good and came within credit, a
numbered one is the next expected, and no engine reset runs. -/
def acceptable (s : State) (p : Nat) (c : CaravanIn) : Bool :=
  let l := linkAt s p
  l.state == .up && c.bad == 0 && c.noCredit == 0 &&
  (!numbered (headKind c.head) || (headSeq c.head == l.rxSeq && !s.power.resetting))

/-- A caravan is accepted: sequence, acknowledgement due, the ack it carries and its source (R424, R425). -/
def acceptCaravan (s : State) (c : CaravanIn) : State :=
  let p := c.port
  let n := numbered (headKind c.head)
  let t := onLink s p fun l => { l with
    rxSeq := if n then (l.rxSeq + 1) % 4096 else l.rxSeq
    ackDue := l.ackDue || n, ackBy := if n && !l.ackDue then s.clock.fc + 64 else l.ackBy, discarding := if n then false else l.discarding, peer := headSrc c.head }
  bump (takeAck t p (headAck c.head)) 0x2D0602

/-- A caravan that is not accepted is discarded and counted (R424). -/
def rejectCaravan (s : State) (c : CaravanIn) : State :=
  discardCaravans (onLink s c.port fun l => { l with discarding := true }) 1

/-- What happens to a caravan addressed somewhere: it is relayed to a port, served here, or discarded (R417,
R418). -/
inductive Route where
  | here
  | port (p : Nat)
  | nowhere
  deriving DecidableEq, Repr

/-- Whether every caravan received is discarded: the engine is out of service (R477) or zeroises (step Z1 of Table 15.14). -/
def caravansClosed (s : State) : Bool := s.power.engineOos || s.debug == .zeroising

/-- The route of a caravan that arrived on a port. -/
def arrivalRoute (s : State) (p : Nat) (h : Flit) : Route :=
  let r := routeByte s p (headDest h)
  if caravansClosed s then .nowhere
  else if r = 0x1E then (if headDest h = chipId s then .here else .nowhere)
  else if r < 16 ∧ r ≠ p ∧ (linkAt s r).state = .up then .port r else .nowhere

end Sys2Proof.Machine
end

