-- ==== Sys2Proof/Machine/Waits.lean ====
section
/-!
DEFINITION. The entry station's side of an operation: its response on the crossbar, its waiter record, the wakes
that end waits, and the scope-mismatch tests.
-/

namespace Sys2Proof.Machine

/-! ## Responses (R110, R111, R520, R526) -/

/-- Whether a status is one of success (R111). -/
def Status.good : Status → Bool
  | .ok | .idleTail => true
  | _ => false

/-- Whether a response or wake of this status carries the values its chapter defines: R111 names BROKEN, STALE and AHEAD, and
Table 5.4 gives LINKLOST the same value as BROKEN (DEDUCED, log entry 62: chapter 05 owns it, R21). -/
def Status.valued : Status → Bool
  | .ok | .idleTail | .broken | .linklost | .stale | .ahead => true
  | _ => false

/-- The response that ends an operation (Table 3.6, R108, R111). -/
def mkRsp (acquire scope : Nat) (opTag : BitVec 16) (i : EndInfo) : Rsp where
  valueA     := if i.status.valued then i.a else 0
  valueB     := if i.status.valued then i.b else 0
  opTag      := opTag
  status     := i.status
  invalidate := i.status.good && acquire == 2
  scope      := BitVec.ofNat 3 scope
  data       := if i.status.good then i.data else none

/-- A PARKED response (R111). -/
def parkedRsp (scope : Nat) (opTag : BitVec 16) : Rsp := ⟨0, 0, opTag, .parked, false, BitVec.ofNat 3 scope, none⟩

/-- An ending with a status and no values. -/
def plain (st : Status) : EndInfo := ⟨st, 0, 0, none, none⟩

/-- The beats of a response: three with 64 bytes of data, else one (R526). -/
def RspOut.beats : RspOut → Nat
  | .op _ _ _ r => if r.data.isSome then 3 else 1
  | .access .. => 1

/-- The lane that takes a transfer of `k` beats: the lower one that holds the credit (DESIGN CHOICE, log entry 6:
the station chooses the lane). -/
def laneFor (credit : Nat × Nat) (k : Nat) : Option Nat :=
  if k ≤ credit.1 then some 0 else if k ≤ credit.2 then some 1 else none

/-- The lane that takes a response: the one that it must take, where it holds the credit. -/
def RspOut.laneIn (credit : Nat × Nat) : RspOut → Option Nat
  | .access _ _ _ (some l) _ _ => if 1 ≤ (if l = 0 then credit.1 else credit.2) then some l else none
  | r => laneFor credit r.beats

/-- A lane's credit after `k` beats. -/
def laneUse (credit : Nat × Nat) (lane k : Nat) : Nat × Nat :=
  if lane = 0 then (credit.1 - k, credit.2) else (credit.1, credit.2 - k)

/-- The responses of a station that hold lane credit are driven, in order (R520). -/
def driveRsp (s : State) (n : Nat) : Nat → State
  | 0 => s
  | fuel + 1 =>
    let st := station s n
    match st.rspQueue with
    | [] => s
    | r :: rest =>
      match r.laneIn st.rspCredit with
      | none => s
      | some l =>
        let t := setStation s n { st with rspQueue := rest, rspCredit := laneUse st.rspCredit l r.beats }
        driveRsp (drive t [.response n l r]) n fuel

/-- A response is queued at its port and driven when it holds credit, while the port answers (R552, R561). -/
def putRsp (s : State) (n : Nat) (r : RspOut) : State :=
  let t := onStation s n fun st => { st with rspQueue := st.rspQueue ++ [r] }
  if portsLive s then driveRsp t n (station t n).rspQueue.length else t

/-- An operation's response goes to where the operation came from; one that came from a link is left for its
attach station (R444, R445). A record answered with a status other than OK, PARKED or IDLE_TAIL is counted. -/
def respond (s : State) (n : Nat) (via : ReplyTo) (r : Rsp) : State :=
  match via with
  | .port aux id xtag =>
    let t := putRsp s n (.op aux id xtag r)
    if r.status.good || r.status == .parked then t else bump t 0x230502
  | .closed => s
  | _ => { s with linkWork := s.linkWork ++ [(n, via, r)] }

/-- The refusal counters of a function (Table 2.8): BADHANDLE with its event step, and QUOTA. -/
def countRefusal (s : State) (f : Nat) (st : Status) : State :=
  match st with
  | .badhandle => bumpFnStep s f 0x13 (setting s 0x220500) 0x11
  | .quota => bumpFn s f 0x14
  | _ => s

/-! ## Scope mismatches (R390, R394) -/

/-- A mismatch is counted: the engine-wide entry, the function's, and the event at each multiple of the step. -/
def countMismatch (s : State) (f key : Nat) : State :=
  bumpFnStep (bump s key) f 0x2D (setting s 0x2C0200) 0x12

/-- The partition that an agent is in, or acts for (Table 12.4). -/
def agentPartition (s : State) (f agent : Nat) : Nat :=
  if agentAux agent then fnPartition s f else corePartition s (agentCore agent)

/-- Whether two agents lie in one unit at a scope (Table 12.4). -/
def sameUnit (s : State) (f scope x y : Nat) : Bool :=
  match scope with
  | 0 => x == y
  | 1 => x == y || (!agentAux x && !agentAux y && agentCore x == agentCore y)
  | 2 => entryOf s x == entryOf s y
  | 3 => agentPartition s f x == agentPartition s f y
  | _ => true

/-- Whether an agent is a link port (R44). -/
def isLinkAgent (s : State) (agent : Nat) : Bool := agentAux agent && agent % 64 < s.gelari.linkPorts

/-- The acquire-side test (Table 12.5) on a wait that ends. -/
def acquireTest (s : State) (w : Waiter) (i : EndInfo) : State :=
  match i.agent with
  | some g =>
    let tested := (w.opcode == .ctrAcquire || w.opcode == .ctrWaitGe || w.opcode == .qPop) && w.acquire != 0
    let outside := if isLinkAgent s g then w.scope != 5 else !sameUnit s (Handle.fn w.handle) w.scope w.agent g
    if tested && i.status == .ok && outside then countMismatch s (Handle.fn w.handle) 0x2C0102 else s
  | none => s

/-- The release-side and caravan tests (Table 12.5) on the members of an eddy that an operation's step ends:
`stations` are the stations of its station_map. -/
def releaseTest (s : State) (f : Nat) (op : FwdOp) (stations : List Nat) : State :=
  let far := stations.any fun n => n != entryOf s op.agent
  if isLinkAgent s op.agent then (if op.scope < 5 then countMismatch s f 0x2C0101 else s)
  else if op.release != 0 && op.scope < 3 && far then countMismatch s f 0x2C0101 else s

/-! ## Waiter records -/

/-- The waits of a station change. -/
def onWaiters (s : State) (n : Nat) (f : List Waiter → List Waiter) : State :=
  onStation s n fun st => { st with waiters := f st.waiters }

/-- A wait of a station. -/
def waiterAt (s : State) (n id : Nat) : Option Waiter := (station s n).waiters.find? fun w => w.id == id

/-- A waiter record is returned. -/
def dropWaiter (s : State) (n id : Nat) : State := onWaiters s n fun l => l.filter fun w => w.id != id

/-- A waiter record changes. -/
def setWaiter (s : State) (n : Nat) (w : Waiter) : State :=
  onWaiters s n fun l => l.map fun x => if x.id = w.id then w else x

/-- The wake of a posted wait (Table 3.8). -/
def wakeOf (w : Waiter) (i : EndInfo) : PushMsg where
  agent      := w.agent
  wait       := some w.id
  cookie     := if w.failed then 0 else w.cookie
  handle     := if w.failed then 0 else w.handle
  value      := if i.status.valued then i.a else 0
  status     := i.status
  opcode     := w.opcode
  invalidate := i.status.good && w.acquire == 2
  scope      := w.scope
  launch     := none

/-- The CANCEL that named a wait finds it gone: STALE (R105, R152). -/
def cancelStale (s : State) (n : Nat) (w : Waiter) : State :=
  match w.cancel with
  | some c => respond s n c.reply (mkRsp c.acquire c.scope c.opTag (plain .stale))
  | none => s

/-- A wait ends: a held read with its response and its record returned, a posted wait with a wake that its record
holds until it is pushed (R113, R114, R120). A CANCEL that named it finds it gone: STALE (R152). One whose record has
failed ends with INTEGRITY (R589). -/
def endWait (s : State) (n : Nat) (w : Waiter) (e : EndInfo) : State :=
  let i := if w.failed then plain .integrity else e
  let s2 := acquireTest (cancelStale s n w) w i
  let s3 := if i.status = .timeout then bump s2 0x230507 else s2
  if w.hold then respond (dropWaiter s3 n w.id) n w.reply (mkRsp w.acquire w.scope w.opTag i)
  else
    let t := setWaiter s3 n { w with phase := .ended, cancel := none }
    onStation t n fun st => { st with ready := st.ready ++ [wakeOf w i] }

/-- A withdrawal that an ending of success overtakes is a race (R152); one that a destruction or a purge overtakes is not. -/
def countRace (s : State) (i : EndInfo) : State := if i.status.good then bump s 0x240305 else s

/-- A wake request, grant or local wake covers a wait: one still PENDING ends after its registration response
(R151); a withdrawal it overtakes, be it that of a CANCEL that named the wait while it was PENDING, is a race (R152). -/
def coverWait (s : State) (n id : Nat) (i : EndInfo) : State :=
  match waiterAt s n id with
  | none => s
  | some w =>
    match w.phase with
    | .pending =>
      setWaiter (if w.cancel.isSome then countRace s i else s) n { w with phase := .ended, ended := some i }
    | .joined => endWait s n w i
    | .withdrawing => endWait (countRace s i) n w i
    | .ended => s

/-- A grant that ends no wait goes back to the home (R117, R589): the amount travels as an operation whose opcode no home takes
otherwise, and whose answer nobody awaits (DEDUCED, log entry 11). -/
def returnGrant (s : State) (n : Nat) (h amount : Word) (agent : Nat) : State :=
  let home := match tget (station s n).chart (Handle.index h) with | some e => e.home | none => n
  send s n home (.fwdOp ⟨.cancel, agent, n, 65536, 0, h, amount, 0, none, 0, 0, 0, false, 0⟩)

/-- The wait that a grant ends at an entry station (R151): the oldest member that the home counted, which the request names;
where a fence or a purge has ended that one since, the oldest other member of the eddy. DESIGN CHOICE (log entry 57): a
member that is WITHDRAWING and that the home has removed already is not one of the station's k oldest. -/
def grantTaker (s : State) (n : Nat) (h : Word) (ref id : Nat) : Option Waiter :=
  match (station s n).waiters.find? fun w => w.id == id && w.phase != .ended with
  | some w => some w
  | none => (station s n).waiters.find? fun w =>
      Handle.hi w.handle == Handle.hi h && (w.phase == .joined || w.phase == .withdrawing) &&
      (match w.place with | .eddy _ r => r == ref | _ => false)

/-- A grant of one reaches an entry station: its taker ends; with no taker, or one whose record has failed, the amount
returns to the home. -/
def coverGrant (s : State) (n : Nat) (h : Word) (ref : Nat) (amount : Word) (id : Nat) (i : EndInfo) : State :=
  match grantTaker s n h ref id with
  | some w =>
    if w.failed then coverWait (returnGrant s n h amount w.agent) n w.id i
    else coverWait (setWaiter s n { w with granted := some amount }) n w.id i
  | none => returnGrant s n h amount 0

/-- Tokens that no member of a station takes go back to the queue's home, as an amount is: the first position, the tokens, and
their count and end marks with bit 63 set (DESIGN CHOICE, log entry 71). -/
def returnPop (s : State) (n : Nat) (h : Word) (i : EndInfo) (agent : Nat) : State :=
  let home := match tget (station s n).chart (Handle.index h) with | some e => e.home | none => n
  send s n home (.fwdOp ⟨.cancel, agent, n, 65536, 0, h, i.b,
    BitVec.ofNat 64 (2 ^ 63 + bits i.a 15 0), i.data, 0, 0, 0, false, 0⟩)

/-- A pop grant ends the member that it names, or where that one has gone another live member of the eddy (R270): no granted
token is lost. -/
def coverPop (s : State) (n : Nat) (h : Word) (ref id : Nat) (i : EndInfo) : State :=
  match grantTaker s n h ref id with
  | some w => coverWait (if w.failed then returnPop s n h i w.agent else s) n w.id i
  | none => returnPop s n h i 0

/-- A wake request reaches an entry station (R151): a wake-all ends the members that the home counted, oldest first, which it
names; a grant as many members as it carries. -/
def wakeArrives (s : State) (n : Nat) (h : Word) (ref : Nat) (grant : Option Word) (waits : List Nat) (i : EndInfo) :
    State :=
  waits.foldl (fun t id => match grant with
    | some amount => coverGrant t n h ref amount id i
    | none => coverWait t n id i) s

/-- A registration response reaches the entry station (R147): the wait is JOINED, PARKED closes a posted wait's
transaction, and an ending that was overtaken is delivered. -/
def waitRegistered (s : State) (n home tag ref : Nat) : State :=
  let st := station s n
  match st.openOps.find? fun o => o.tag == tag with
  | none => s
  | some o =>
    let s1 := setStation s n { st with openOps := st.openOps.filter fun x => x.tag != tag }
    match o.wait with
    | none => s1
    | some id =>
      match waiterAt s1 n id with
      | none => s1
      | some w =>
        let s2 := if w.hold then s1 else respond s1 n w.reply (parkedRsp w.scope w.opTag)
        match w.ended with
        | some i => endWait s2 n { w with ended := none } i
        | none =>
          setWaiter s2 n { w with
            phase := if w.cancel.isSome || w.failed then .withdrawing else .joined, place := .eddy home ref }

/-- What a home gave an operation whose wait has been purged meanwhile goes back: a wait that is purged has made no change
(R117; DEDUCED, log entry 40). -/
def giveBack (s : State) (n : Nat) (o : OpenOp) (i : EndInfo) : State :=
  if !i.status.good then s else
  match o.op with
  | .ctrAcquire | .qToll => returnGrant s n o.handle o.amount o.agent
  | .qPop => returnPop s n o.handle i o.agent
  | _ => s

/-- An operation's answer reaches the entry station: the waiter record it took is returned (R47), and the response
is driven; a transaction that a purge has closed is answered no more, and a wait whose record has failed ends with INTEGRITY
(R589). -/
def opAnswered (s : State) (n tag : Nat) (i : EndInfo) : State :=
  let st := station s n
  match st.openOps.find? fun o => o.tag == tag with
  | none => s
  | some o =>
    let s1 := setStation s n { st with openOps := st.openOps.filter fun x => x.tag != tag }
    let wait := o.wait.bind (waiterAt s1 n)
    let s2 := match wait with
      | none => s1
      | some w => dropWaiter (cancelStale s1 n w) n w.id
    if o.reply = .closed then giveBack s2 n o i
    else if wait.any Waiter.failed then
      respond (giveBack s2 n o i) n o.reply (mkRsp o.acquire o.scope 0 (plain .integrity))
    else respond (countRefusal s2 o.fn i.status) n o.reply (mkRsp o.acquire o.scope o.opTag i)

/-- A withdrawal's answer reaches the entry station (R152): where the home still counted the wait, it ends with
TIMEOUT, or the CANCEL with OK; where it did not, a wake request is on its way. A wait whose record has failed ends with
INTEGRITY all the same, and a CANCEL that named it is answered STALE (R589; DEDUCED, log entry 40). -/
def withdrawnArrives (s : State) (n id : Nat) (removed : Bool) : State :=
  match waiterAt s n id with
  | none => s
  | some w =>
    if w.phase = .withdrawing ∧ removed then
      match (if w.failed then none else w.cancel) with
      | some c => respond (dropWaiter s n id) n c.reply (mkRsp c.acquire c.scope c.opTag (plain .ok))
      | none => endWait s n w (w.ended.getD (plain .timeout))
    else s

/-- The withdrawal of a wait that its home counts (R152). -/
def withdrawMsg (n : Nat) (w : Waiter) (ref : Nat) : MsgBody := .withdraw n w.id w.handle ref

/-- The transaction of a waiter record that is not registered yet is answered: its tag stays in use until the home's answer,
which nobody awaits any more, has come. -/
def closeWaitOp (s : State) (n : Nat) (w : Waiter) : State :=
  let f := fun (o : OpenOp) => if o.wait = some w.id then { o with reply := .closed, wait := none } else o
  onStation s n fun x => { x with openOps := x.openOps.map f }

/-- A wait's ending that no home takes part in: it is purged with a status (R116); a wait still PENDING is refused
on its own transaction. -/
def purgeWait (s : State) (n : Nat) (w : Waiter) (st : Status) : State :=
  match w.phase with
  | .ended => s
  | .pending =>
    respond (closeWaitOp (dropWaiter (cancelStale s n w) n w.id) n w) n w.reply
      (mkRsp w.acquire w.scope w.opTag (plain st))
  | _ => endWait s n w (plain st)

/-- The answer of a home to an entry station. -/
def answer (s : State) (home : Nat) (f : FwdOp) (i : EndInfo) : State :=
  send s home f.entry (.response f.tag i.status i.a i.b i.data)

/-- An answer with a status and no values. -/
def refuse (s : State) (home : Nat) (f : FwdOp) (st : Status) : State := answer s home f (plain st)

/-- An answer OK with two values. -/
def reply (s : State) (home : Nat) (f : FwdOp) (a b : Word) : State := answer s home f ⟨.ok, a, b, none, none⟩

/-- A message that its own station sent to itself and takes within the step: an answer, a wake or a grant. -/
def takeLocal (s : State) (n : Nat) (b : MsgBody) : State :=
  match b with
  | .response tag st a b d => opAnswered s n tag ⟨st, a, b, d, none⟩
  | .registeredWait tag ref => waitRegistered s n n tag ref
  | .withdrawn id removed => withdrawnArrives s n id removed
  | .wake h ref grant _ waits i => wakeArrives s n h ref grant waits i
  | .popGrant h ref id i => coverPop s n h ref id i
  | _ => s

/-- The messages that `takeLocal` takes. -/
def localKind : MsgBody → Bool
  | .response .. | .registeredWait .. | .withdrawn .. | .wake .. | .popGrant .. => true
  | _ => false

/-- Answers, wakes and grants of a home to its own station take effect in the home's step, in order. -/
def settle : Nat → State → State
  | 0, s => s
  | fuel + 1, s =>
    match takeFirst (fun m => m.src == m.dst && localKind m.body && awake (station s m.dst)) s.course with
    | some (m, rest) => settle fuel (takeLocal { s with course := rest } m.dst m.body)
    | none => s

/-! ## An admitted operation at its entry station -/

/-- The entry station answers an operation itself. -/
def answerAdm (s : State) (x : Adm) (i : EndInfo) : State :=
  respond (countRefusal s x.fn i.status) x.n x.via (mkRsp x.acquire x.scope x.opTag i)

/-- The entry station keeps an operation whose answer will come by a message, under the least tag free. -/
def openAdm (s : State) (x : Adm) (wait : Option Nat) : State × Nat :=
  let st := station s x.n
  let tag := leastUnused (st.openOps.map (·.tag))
  let o : OpenOp := ⟨tag, x.op, x.agent, x.via, x.opTag, x.acquire, x.scope, x.fn, wait, x.handle, x.a⟩
  (setStation s x.n { st with openOps := st.openOps ++ [o] }, tag)

/-- The entry station refuses an operation. -/
def refuseAdm (s : State) (x : Adm) (st : Status) : State := answerAdm s x (plain st)

/-- The effective limit of a wait as a deadline (R115): the smaller of its own limit and, for a held read, the hold
cap; 0 is no limit. -/
def waitDeadline (s : State) (hold : Bool) (limit : Nat) : Option Nat :=
  let cap := if hold then setting s 0x230300 else 0
  let eff := if limit = 0 then cap else if cap = 0 then limit else min limit cap
  if eff = 0 then none else some (deadlineIn s eff)

/-- A waiter record is taken for an operation: the state and the record's number. -/
def takeWaiter (s : State) (x : Adm) (tag : Nat) (phase : Phase) (place : Place) : State × Nat :=
  let st := station s x.n
  let w : Waiter :=
    { id := st.nextWait, tag := tag, cookie := x.cookie, handle := x.handle
      deadline := waitDeadline s x.hold x.waitLimit, opTag := x.opTag, agent := x.agent, opcode := x.op
      acquire := x.acquire, scope := x.scope, hold := x.hold, phase := phase, place := place, reply := x.via
      ended := none, cancel := none, granted := none, failed := false }
  (setStation s x.n { st with waiters := st.waiters ++ [w], nextWait := st.nextWait + 1 }, st.nextWait)

/-- A posted wait registered at its entry station is PARKED (R114); a held read stays open. -/
def parkAdm (s : State) (x : Adm) : State :=
  if x.hold then s else respond s x.n x.via (parkedRsp x.scope x.opTag)

end Sys2Proof.Machine
end

