-- ==== Sys2Proof/Machine/Watches.lean ====
section
/-!
DEFINITION. What observes an object: the watches of fire rules (R313 to R315, R327) and the shadow records of
host-observed mode (R406, R407).
-/

namespace Sys2Proof.Machine

/-- The station that a replica gives for a handle's index; the replica's own station where the entry is not valid
(R611). -/
def homeOf (s : State) (n : Nat) (index : Nat) : Nat := match chartAt s n index with | some e => e.home | none => n

/-- Where a message to a fire rule goes: to its home in the chart; one that is still being created has no chart entry, and
its registrations are answered to the station that sent them (DEDUCED, log entry 14). -/
def ruleHome (s : State) (n : Nat) (hi : BitVec 40) : Nat :=
  match chartAt s n (hiIndex hi) with
  | some e => e.home
  | none =>
    match s.stations.find? fun p => p.2.objects.any fun o => o.2.hi == hi with
    | some p => p.1
    | none => n

/-- A handle's upper bits as a message carries them. -/
def nameOf (hi : BitVec 40) : Word := handleOf hi 0 0

/-- Whether a watch's condition holds of its object (Table 10.1). -/
def watchMet (b : Body) (w : Watch) : Bool :=
  match b with
  | .counter c => w.threshold.toNat ≤ c.value.toNat
  | .weir x =>
    let d := (x.openEpoch - w.threshold.setWidth 32).toNat
    1 ≤ d && d ≤ 2 ^ 31
  | .queue _ => w.threshold.toNat ≤ w.credit
  | _ => false

/-- Whether the object is a queue. -/
def Body.isQueue : Body → Bool
  | .queue _ => true
  | _ => false

/-- A watch that is found met: a queue's claims its packets (R315). -/
def meetWatch (b : Body) (w : Watch) : Watch :=
  { w with phase := 2, credit := if b.isQueue then w.credit - w.threshold.toNat else w.credit }

/-- The message that reports a watch met (R325). -/
def metMsg (s : State) (home : Nat) (w : Watch) : Nat × MsgBody :=
  (homeOf s home (hiIndex w.ruleHi), .met (nameOf w.ruleHi) w.slot w.armSeq)

/-- Whether a WATCHING watch of an object is found met. -/
def watchDue (b : Body) (w : Watch) : Bool := !w.feed && w.phase == 1 && watchMet b w

/-- An object whose state a step has changed is put back with its watches evaluated (R336). -/
def putObserved (s : State) (home : Nat) (o : Obj) : State :=
  let due := o.watches.filter (watchDue o.body)
  let o' := { o with watches := o.watches.map fun w => if watchDue o.body w then meetWatch o.body w else w }
  sendAll (setObj s home (hiIndex o.hi) o') home (due.map (metMsg s home))

/-- The message by which an input or target home tells a rule that it lapses (R327). -/
def lapsedMsg (s : State) (home : Nat) (st : Status) (w : Watch) : Nat × MsgBody :=
  (ruleHome s home w.ruleHi, .lapsed (nameOf w.ruleHi) w.slot w.feed st)

/-- Every watch and feed of an object lapses with a status and is freed (R327); a bridge's feed has no rule. -/
def lapseAll (s : State) (home : Nat) (o : Obj) (st : Status) : State × Obj :=
  let ws := o.watches.filter fun w => w.ruleHi != 0
  (sendAll s home (ws.map (lapsedMsg s home st)), { o with watches := [] })

/-- The values of a shadow record of an object (Table 12.9). -/
def shadowValues (b : Body) : Word × Word × Word :=
  let w := fun n => BitVec.ofNat 64 n
  match b with
  | .counter c => (c.value, 0, w c.wraps)
  | .weir x => (w x.openEpoch.toNat, w x.state, w (payloadNat x.result 0 8))
  | .landing l => (l.landed, l.expect, w l.xgen.toNat)
  | .queue q => (w q.push, w q.read, w q.rel)
  | .rule r => (w r.fireSeq, w r.state, w r.armSeq)
  | .keeper k => (k.steps, w (flag k.lastSkipped), w (k.groups.filter fun g => !g.anchored).length)
  | .beacon x => (x.value, 0, 0)

/-- Whether a function is in host-observed mode (R404). -/
def hostObserved (s : State) (f : Nat) : Bool := fnSetting s f 0x2E == 1

/-- Whether an object's steps write shadow records. -/
def shadowed (s : State) (o : Obj) : Bool :=
  hostObserved s (hiFn o.hi) && (fnOf s (hiFn o.hi)).state == .enabled

/-- An object's record, less its seq (Tables 12.8 and 12.9). -/
def shadowOf (s : State) (o : Obj) (event : Nat) (outcome : Status) (agent : Nat) : Shadow :=
  let (a, b, c) := if event = 3 then (0, 0, 0) else shadowValues o.body
  let sel := match o.body with | .landing l => l.xgen.toNat | _ => 0
  ⟨issue s o.hi sel, a, b, c, event, outcome, agent⟩

/-- A step creates (1), changes (2) or destroys (3) an object: in host-observed mode, while its function is ENABLED (R409),
its record is due, one for
each object in a step, with the values after it (R407). -/
def noteShadow (s : State) (o : Obj) (event : Nat) (outcome : Status) (agent : Nat) : State :=
  if shadowed s o then
    { s with shadowDue := (s.shadowDue.filter fun x => Handle.hi x.handle != o.hi || x.event == 1) ++
        [shadowOf s o event outcome agent] }
  else s

/-- The record of a completion or a decided step, each of which is a step of its own that may run with others. -/
def noteStep (s : State) (o : Obj) (outcome : Status) : State :=
  if shadowed s o then { s with shadowDue := s.shadowDue ++ [shadowOf s o 2 outcome 0] } else s

end Sys2Proof.Machine
end

