-- ==== Sys2Proof/Machine/Counters.lean ====
section
/-!
DEFINITION. Counters and eddies at their home (chapter 04).
-/

namespace Sys2Proof.Machine

/-! ## Eddies -/

/-- The stations of an eddy's station_map, in increasing home code. -/
def Eddy.stations (e : Eddy) : List Nat :=
  (e.members.map (·.1)).foldl (fun l n => if l.contains n then l else l.filter (· < n) ++ [n] ++ l.filter (n < ·)) []

/-- The waits that an eddy counts from a station, oldest first. -/
def Eddy.waitsOf (e : Eddy) (n : Nat) : List Nat := (e.members.filter fun m => m.1 == n).map (·.2)

/-- The references of the eddies in use at a station. -/
def eddyRefs (st : Station) : List Nat :=
  st.objects.flatMap fun p => match p.2.body with
    | .counter c => c.eddies.map (·.ref)
    | .landing l => l.eddies.map (·.ref)
    | .queue q => q.popEddies.map (·.ref) ++ q.tollEddies.map (·.ref)
    | _ => []

/-- Eddies in use, over all stations. -/
def eddiesLive (s : State) : Nat := (s.stations.map fun p => (eddyRefs p.2).length).sum

/-- A wake-all leaves for an eddy (R150): to each station of its map in increasing order, or with dest 127, when it
has more stations than the threshold, to every station, where those without members ignore it. -/
def wakeAllMsgs (s : State) (home : Nat) (h : Word) (e : Eddy) (i : EndInfo) : List (Nat × MsgBody) :=
  let sts := e.stations
  let all : Bool := setting s 0x240200 < sts.length
  let tos := if all then sts.filter (· == home) ++ others s home else sts
  tos.map fun n => (n, .wake h e.ref none all (e.waitsOf n) i)

/-- The grants of one eddy: one for each station granted, carrying its waits (R148, R150). -/
def grantMsgs (h : Word) (ref : Nat) (n : Word) (granted : List (Nat × Nat)) (i : EndInfo) : List (Nat × MsgBody) :=
  let sts := (Eddy.mk ref 0 true 0 granted).stations
  sts.map fun k => (k, .wake h ref (some n) false ((granted.filter fun m => m.1 == k).map (·.2)) i)

/-- The first station after the cursor, in increasing home code with wrap, that has a member (R148). -/
def Eddy.nextStation (e : Eddy) : Nat :=
  match e.stations.find? (e.cursor < ·) with
  | some n => n
  | none => e.stations.headD 0

/-- Acquire grants of one eddy from a value: value left, eddy left, members granted in order (R148). -/
def grantLoop : Nat → Nat → Eddy → List (Nat × Nat) → Nat × Eddy × List (Nat × Nat)
  | 0, v, e, g => (v, e, g)
  | fuel + 1, v, e, g =>
    if e.threshold.toNat ≤ v ∧ e.members ≠ [] then
      let n := e.nextStation
      match takeFirst (fun m => m.1 == n) e.members with
      | some (m, rest) =>
        grantLoop fuel (v - e.threshold.toNat) { e with members := rest, cursor := n } (g ++ [m])
      | none => (v, e, g)
    else (v, e, g)

/-- Every acquire eddy in turn, oldest first: value left, eddies left, and the eddies with what each granted. -/
def grantAll : Nat → List Eddy → Nat × List Eddy × List (Eddy × List (Nat × Nat))
  | v, [] => (v, [], [])
  | v, e :: es =>
    if e.acquire then
      let (v', e', g) := grantLoop e.members.length v e []
      let (v'', es', gs) := grantAll v' es
      (v'', if e'.members.isEmpty then es' else e' :: es', if g.isEmpty then gs else (e, g) :: gs)
    else
      let (v', es', gs) := grantAll v es
      (v', e :: es', gs)

/-- The evaluation of R148 on a written value: value left, eddies left, eddies woken whole, grants. -/
def evalEddies (v : Nat) (es : List Eddy) : Nat × List Eddy × List Eddy × List (Eddy × List (Nat × Nat)) :=
  let woken := es.filter fun e => !e.acquire && e.threshold.toNat ≤ v
  let (v', es', gs) := grantAll v (es.filter fun e => e.acquire || v < e.threshold.toNat)
  (v', es', woken, gs)

/-- The condition of a wait on a value: it joins the eddy of its kind and threshold (R144), forming one where there
is none; `none` where that would be more than `most`. -/
def joinEddies (es : List Eddy) (most ref : Nat) (acquire : Bool) (n : Word) (m : Nat × Nat) : Option (List Eddy × Nat) :=
  match es.find? fun e => e.acquire == acquire && e.threshold == n with
  | some e => some (es.map fun x => if x.ref = e.ref then { x with members := x.members ++ [m] } else x, e.ref)
  | none => if es.length < most then some (es ++ [⟨ref, n, acquire, 0, [m]⟩], ref) else none

/-- A wait leaves the eddy that counts it: the eddies left, and whether one did (R152). -/
def leaveEddies (es : List Eddy) (m : Nat × Nat) : List Eddy × Bool :=
  ((es.map fun e => { e with members := e.members.filter (· != m) }).filter fun e => !e.members.isEmpty,
    es.any fun e => e.members.contains m)

/-- The messages that end every wait of some eddies with a status. DESIGN CHOICE (log entry 83): R154 names no message that
carries a destruction's BADHANDLE; it travels as the eddy's wake-all does, whose flits give no status. -/
def endEddies (s : State) (home : Nat) (h : Word) (es : List Eddy) (i : EndInfo) : List (Nat × MsgBody) :=
  es.flatMap fun e => wakeAllMsgs s home h e i

/-- The mismatch tests of a step that ends waits of some eddies (Table 12.5): once for each eddy. -/
def releaseTests (s : State) (f : Nat) (op : FwdOp) (es : List Eddy) : State :=
  es.foldl (fun t e => releaseTest t f op e.stations) s

/-! ## Operations -/

/-- A value is written to a counter: eddies, then watches, in the same step (R148, R336). -/
def counterWrite (s : State) (home : Nat) (o : Obj) (c : Counter) (op : FwdOp) (v : Nat) : State :=
  let (v', es', woken, gs) := evalEddies v c.eddies
  let i : EndInfo := ⟨.ok, 0, 0, none, some op.agent⟩
  let h := issue s o.hi 0
  let o' := { o with body := .counter { c with value := BitVec.ofNat 64 v', eddies := es' } }
  let s1 := releaseTests s (hiFn o.hi) op (woken ++ gs.map (·.1))
  let s2 := sendAll s1 home (woken.flatMap fun e => wakeAllMsgs s home h e i)
  let s3 := sendAll s2 home (gs.flatMap fun g => grantMsgs h g.1.ref g.1.threshold g.2 i)
  let granted := (gs.map fun g => g.2.length).sum
  let s4 := sampleFanout (bumpBy s3 0x240304 granted) ((woken.map fun e => e.members.length).sum + granted)
  noteShadow (putObserved s4 home o') o' 2 .ok op.agent

/-- CTR_ADD and CTR_SUB (R140): the result modulo 2^64; a wrap is returned in value_b and counted. -/
def homeAddSub (s : State) (home : Nat) (o : Obj) (c : Counter) (op : FwdOp) (sub : Bool) : State :=
  let (v, wrap) := if sub then subWrap c.value op.a else addWrap c.value op.a
  let c' := { c with wraps := if wrap then min 0xFFFF (c.wraps + 1) else c.wraps }
  let s1 := if wrap then bumpFn s (hiFn o.hi) 0x17 else s
  reply (counterWrite s1 home o c' op v.toNat) home op c.value (BitVec.ofNat 64 (flag wrap))

/-- CTR_SET: the new value is written, the value before returned. -/
def homeSet (s : State) (home : Nat) (o : Obj) (c : Counter) (op : FwdOp) : State :=
  reply (counterWrite s home o c op op.a.toNat) home op c.value 0

/-- A wait is registered at its home (R147): QUOTA where its eddy cannot be formed (R144, R145). `counted` tells that a
refusal for one eddy too many is one under R144, which eddy_refusals counts (R157). -/
def registerWait (s : State) (home : Nat) (o : Obj) (es : List Eddy) (most : Nat) (acquire : Bool) (n : Word)
    (op : FwdOp) (counted : Bool) (put : List Eddy → Body) : State :=
  let forms := !es.any fun e => e.acquire == acquire && e.threshold == n
  if forms && !(es.length < most) then refuse (if counted then bump s 0x240303 else s) home op .quota
  else if forms && !recordsFree s home (hiFn o.hi) 4 then
    refuse s home op .quota
  else
    match joinEddies es most (leastUnused (eddyRefs (station s home))) acquire n (op.entry, op.wait) with
    | some (es', ref) =>
      send (setObj s home (hiIndex o.hi) { o with body := put es' }) home op.entry (.registeredWait op.tag ref)
    | none => refuse s home op .quota

/-- CTR_ACQUIRE and CTR_WAIT_GE (R141, R147): at once where the condition holds, an acquire taking its amount in the
same step (R117); else registered. -/
def homeCtrWait (s : State) (home : Nat) (o : Obj) (c : Counter) (op : FwdOp) (acquire : Bool) : State :=
  if op.a.toNat ≤ c.value.toNat then
    let o' := { o with body := .counter { c with value := c.value - op.a } }
    let s1 := if acquire then noteShadow (setObj s home (hiIndex o.hi) o') o' 2 .ok op.agent else s
    reply s1 home op 0 0
  else registerWait s home o c.eddies 8 acquire op.a op true fun es => .counter { c with eddies := es }

/-- The counter operations at the home. -/
def homeCounter (s : State) (home : Nat) (o : Obj) (c : Counter) (op : FwdOp) : State :=
  match op.op with
  | .ctrAdd => homeAddSub s home o c op false
  | .ctrSub => homeAddSub s home o c op true
  | .ctrSet => homeSet s home o c op
  | .ctrRead => reply s home op c.value 0
  | .ctrAcquire => homeCtrWait s home o c op true
  | .ctrWaitGe => homeCtrWait s home o c op false
  | _ => refuse s home op .badhandle

/-- A withdrawal reaches a home that counts waits in eddies (R152). -/
def withdrawAt (s : State) (home entry id index : Nat) : State :=
  match objAt s home index with
  | none => send s home entry (.withdrawn id false)
  | some o =>
    let m := (entry, id)
    let (b, hit) := match o.body with
      | .counter c => let (es, k) := leaveEddies c.eddies m; (Body.counter { c with eddies := es }, k)
      | .landing l => let (es, k) := leaveEddies l.eddies m; (Body.landing { l with eddies := es }, k)
      | .queue q =>
        let (ps, k) := leaveEddies q.popEddies m
        let (ts, j) := leaveEddies q.tollEddies m
        (Body.queue { q with popEddies := ps, tollEddies := ts }, k || j)
      | b => (b, false)
    send (setObj s home index { o with body := b }) home entry (.withdrawn id hit)

/-- The eddies whose waits an operation's own step is tested for as it ends them (Table 12.5): all but those of pops. -/
def Body.testedEddies : Body → List Eddy
  | .counter c => c.eddies
  | .landing l => l.eddies
  | .queue q => q.tollEddies
  | _ => []

/-- Every wait and watch of a counter ends as it is destroyed (R154, R327). -/
def destroyCounter (s : State) (home : Nat) (o : Obj) (c : Counter) (st : Status) : State :=
  let s1 := sendAll s home (endEddies s home (issue s o.hi 0) c.eddies (plain st))
  (lapseAll s1 home o .badhandle).1

/-- The hint of a creation names cores beyond 2,047 (R142). -/
def hintBad (b : Word) : Bool := 2048 < bits b 10 0 + bits b 21 11

end Sys2Proof.Machine
end

