-- ==== Sys2Proof/Machine/Create.lean ====
section
/-!
DEFINITION. What every creation and destruction shares: the index keepers (R64, R65), the choice of a home (R338 to
R341), the beacon words (R123) and beacon slots (R134 to R136).
-/

namespace Sys2Proof.Machine

/-! ## Index keepers (R64, R65) -/

/-- The keeper of a grid station. -/
def keeperAt (s : State) (n : Nat) : IndexKeeper := tgetD s.keepers n ⟨[], 0, []⟩

/-- How many indices a keeper has: indices modulo the number of grid stations. -/
def keeperSize (s : State) (n : Nat) : Nat := (16384 + s.gelari.stations - 1 - n) / max 1 s.gelari.stations

/-- The next free index of a keeper, and the keeper without it. -/
def IndexKeeper.take (k : IndexKeeper) (size stations n : Nat) : Option (Nat × IndexKeeper) :=
  match k.head with
  | i :: rest => some (i, { k with head := rest })
  | [] =>
    if k.fresh < size then some (n + stations * k.fresh, { k with fresh := k.fresh + 1 })
    else match k.tail with
      | i :: rest => some (i, { k with tail := rest })
      | [] => none

/-- The keepers in the order in which a home asks them: nearest on the course first, lower numbers first. A drained
station's role is at its substitute (R593). -/
def keeperOrder (s : State) (home : Nat) : List Nat :=
  let ns := List.range s.gelari.stations
  (List.range 130).flatMap fun d => ns.filter fun n => courseDistance s.gelari home (tgetD s.substitute n n) == d

/-- A free index for a new home. -/
def takeIndex (s : State) (home : Nat) : Option (Nat × State) :=
  (keeperOrder s home).findSome? fun n =>
    match (keeperAt s n).take (keeperSize s n) s.gelari.stations n with
    | some (i, k) => some (i, { s with keepers := tput s.keepers n k })
    | none => none

/-- The generation of an index. -/
def genOf (s : State) (index : Nat) : Nat := tgetD s.indexGen index 0

/-- A destroyed object's index: its generation rises and it returns to the tail (R65). -/
def freeIndex (s : State) (index : Nat) : State :=
  let n := index % max 1 s.gelari.stations
  let k := keeperAt s n
  { s with indexGen := nput s.indexGen index ((genOf s index + 1) % 1024)
           keepers := tput s.keepers n { k with tail := k.tail ++ [index] } }

/-- A refused creation's index returns to the head with its generation (R65). -/
def putBackIndex (s : State) (index : Nat) : State :=
  let n := index % max 1 s.gelari.stations
  let k := keeperAt s n
  { s with keepers := tput s.keepers n { k with head := index :: k.head } }

/-- A tracker that has seen nothing (R342). -/
def Tracker.zero : Tracker := ⟨0, 0, 0, 0⟩

/-- Whether a home has an object entry free, and for a queue two windows (Table 1.1). -/
def entryFree (st : Station) (cls : Nat) : Bool :=
  st.objects.length < 512 && (cls != 4 || windowsHere st + 2 ≤ 256)

/-- A new object at a home with room for it: its index and generation from a keeper, its entry in place. -/
def newObj (s : State) (home fn cls : Nat) (body : Body) : Option (Obj × State) :=
  if !entryFree (station s home) cls then none else
  match takeIndex s home with
  | some (i, t) =>
    let o : Obj := ⟨handleHi fn (genOf t i) cls i, body, false, [], Tracker.zero⟩
    some (o, setObj t home i o)
  | none => none

/-! ### Jobs of a home -/

/-- A job is added at a home. -/
def addJob (s : State) (home : Nat) (j : Job) : State := onStation s home fun st => { st with jobs := st.jobs ++ [j] }

/-- A home's job of an object. -/
def jobOf (s : State) (home : Nat) (hi : BitVec 40) : Option Job := (station s home).jobs.find? fun j => j.hi == hi

/-- The job of an object is replaced. -/
def setJob (s : State) (home : Nat) (j : Job) : State :=
  onStation s home fun st => { st with jobs := st.jobs.map fun k => if k.hi = j.hi then j else k }

/-- The job of an object ends. -/
def dropJob (s : State) (home : Nat) (hi : BitVec 40) : State :=
  onStation s home fun st => { st with jobs := st.jobs.filter fun k => k.hi != hi }

/-- A job's answer goes to its entry station; a drain's destruction answers nobody. -/
def jobAnswer (s : State) (home : Nat) (j : Job) (i : EndInfo) : State :=
  if j.entry = 127 then s else send s home j.entry (.response j.tag i.status i.a i.b i.data)

/-! ### Creations and destructions in the chart -/

/-- A creation is complete: the home commits the index (R611), and the creation's shadow record is due (R407). -/
def publish (s : State) (home : Nat) (o : Obj) (agent : Nat) : State :=
  noteShadow (chartCommit s home (hiIndex o.hi) (some ⟨0, home⟩)) o 1 .ok agent

/-- A published creation returns its values once its commit has reached every replica (R611). -/
def announce (s : State) (home : Nat) (hi : BitVec 40) (entry tag agent : Nat) (a b : Word) : State :=
  addJob s home ⟨hi, .created a b, entry, tag, agent⟩

/-- hb_handle becomes null as the counter that it names is destroyed (R455). -/
def beatNull (s : State) (hi : BitVec 40) : State :=
  let names := fun (p : Nat × Nat) =>
    0x2E0200 ≤ p.1 && p.1 ≤ 0x2E023F && Handle.hi (BitVec.ofNat 64 p.2) == hi && tagOk s (BitVec.ofNat 64 p.2)
  { s with dict := s.dict.map fun p => if names p then (p.1, 0) else p }

/-- The chart entry of an object that leaves is made not valid, and its index returns to its keeper (R65) once the commit has
reached every replica (DEDUCED, log entry 52: no creation then gets an index whose old commit is still on its way). -/
def clearEntry (s : State) (home : Nat) (hi : BitVec 40) : State :=
  addJob (chartCommit s home (hiIndex hi) none) home ⟨hi, .retired, 127, 0, 0⟩

/-- An object leaves: its chart entry, its index and its home entry (R65, R611), and its shadow record. -/
def retire (s : State) (home : Nat) (o : Obj) (agent : Nat) : State :=
  let t := if hiCls o.hi = 1 then beatNull s o.hi else s
  noteShadow (clearEntry (dropObj t home (hiIndex o.hi)) home o.hi) o 3 .ok agent

/-- The shadow record of an object that has gone is due (R407). -/
def noteGone (s : State) (hi : BitVec 40) (agent : Nat) : State :=
  if hostObserved s (hiFn hi) then
    { s with shadowDue := (s.shadowDue.filter fun x => Handle.hi x.handle != hi) ++
        [⟨issue s hi 0, 0, 0, 0, 3, .ok, agent⟩] }
  else s

/-- The same for an object whose home entry has already gone. -/
def retireHi (s : State) (home : Nat) (hi : BitVec 40) (agent : Nat) : State := noteGone (clearEntry s home hi) hi agent

/-- Whether a job waits for its commit alone, and the commit has reached every replica. -/
def jobDue (s : State) (n : Nat) (j : Job) : Bool :=
  match j.kind with
  | .created .. | .retired => chartSettled s n (hiIndex j.hi)
  | _ => false

/-- A job whose commit has reached every replica ends: the values of a creation return, or an index is free. -/
def jobEnds (s : State) (n : Nat) (j : Job) : State :=
  let t := dropJob s n j.hi
  match j.kind with
  | .created a b => jobAnswer t n j ⟨.ok, a, b, none, none⟩
  | .retired => freeIndex t (hiIndex j.hi)
  | _ => t

/-- A creation that is refused after it took an index (R65). -/
def abandon (s : State) (home : Nat) (o : Obj) : State := putBackIndex (dropObj s home (hiIndex o.hi)) (hiIndex o.hi)

/-! ## The choice of a home (R338 to R341) -/

/-- The site of a byte of site_map; 255 for absent. -/
def siteOf (s : State) (slot : Nat) : Nat := (rget s.maps.site slot).getD 255

/-- A distance-table byte; 255 where the site or the column is absent. -/
def distanceOf (s : State) (site col : Nat) : Nat :=
  if 64 ≤ site then 255 else (rget s.gelari.distance (128 * site + col)).getD 255

/-- What a creation takes at its home. -/
structure Takes where
  objects : Nat
  records : Nat
  slot    : Bool
  windows : Nat
  deriving DecidableEq, Repr

/-- Whether a station is past step V1 of its drain: nothing new makes its home there (DEDUCED, log entry 13). -/
def emptying (s : State) (n : Nat) : Bool :=
  match s.service with
  | some v => v.kind == 1 && v.number == n && v.action == 1 && 2 ≤ v.step
  | none => false

/-- Whether a station holds every resource of a creation (Table 1.1, R341). -/
def holds (s : State) (n : Nat) (need : Takes) : Bool :=
  let st := station s n
  serving st && !emptying s n && st.objects.length + need.objects ≤ 512 && recordsUsed st + need.records ≤ 2048 &&
  (!need.slot || slotsHere st < 128) &&
  windowsHere st + need.windows ≤ 256

/-- The grid station of least cost that holds every resource; the lower of equals (R341). A spare that substitutes counts
as a grid station (R593). -/
def chooseHome (s : State) (need : Nat → Takes) (cost : Nat → Nat) : Option Nat :=
  let spares := [64, 65].filter fun n => s.substitute.any fun p => p.2 == n
  leastBy cost ((List.range s.gelari.stations ++ spares).filter fun n => holds s n (need n))

/-- The cost of a placement hint at a station: a core that is absent under entry_map costs 255 (R142). -/
def hintCost (s : State) (b : Word) (n : Nat) : Nat :=
  ((List.range (bits b 21 11)).map fun k =>
    let core := bits b 10 0 + k
    if (rget s.maps.entry core).getD 255 = 255 then 255 else distanceOf s (siteOf s core) n).sum

/-- The home of a counter, landing counter or queue: the entry station where the hint names no cores. -/
def hintHome (s : State) (entry : Nat) (b : Word) (need : Takes) : Option Nat :=
  if bits b 21 11 = 0 then (if holds s entry need then some entry else none)
  else chooseHome s (fun _ => need) (hintCost s b)

/-! ## Beacon words and slots (R123 to R127, R134 to R136) -/

/-- The lowest free beacon word (DESIGN CHOICE, log entry 7). -/
def takeWord (s : State) (fn : Nat) : Option (Nat × State) :=
  let w := leastFrom (fun k => (tget s.words k).isNone) 512 0
  if w < 512 then some (w, { s with words := tput s.words w fn }) else none

/-- A beacon word returns to the free pool. -/
def freeWord (s : State) (w : Nat) : State := { s with words := tdel s.words w }

/-- A word of a station's page. -/
def beaconAt (s : State) (n w : Nat) : Word := tgetD (station s n).beacon w 0

/-- A word is written in a station's page. -/
def setBeacon (s : State) (n w : Nat) (v : Word) : State :=
  onStation s n fun st => { st with beacon := wput st.beacon w v }

/-- BCN_CREATE at its home (R134). -/
def createBeacon (s : State) (home : Nat) (op : FwdOp) : State :=
  let fn := Handle.fn op.handle
  if !objectQuota s fn then refuse s home op .quota else
  match takeWord s fn with
  | none => refuse s home op .quota
  | some (w, t) =>
    match newObj t home fn 7 (.beacon ⟨w, 0⟩) with
    | none => refuse s home op .quota
    | some (o, u) => announce (publish u home o op.agent) home o.hi op.entry op.tag op.agent (issue u o.hi 0)
        (BitVec.ofNat 64 w)

/-- BCN_WRITE and BCN_READ at the home (R134, R135). -/
def homeBeacon (s : State) (home : Nat) (o : Obj) (b : Beacon) (op : FwdOp) : State :=
  let w := BitVec.ofNat 64 b.word
  match op.op with
  | .bcnWrite =>
    let o' := { o with body := .beacon { b with value := op.a } }
    let t := setBeacon (setObj s home (hiIndex o.hi) o') home b.word op.a
    let u := broadcast t home (.beaconUpdate b.word op.a false false (issue s o.hi 0))
    reply (noteShadow u o' 2 .ok op.agent) home op b.value w
  | .bcnRead => reply s home op (beaconAt s home b.word) w
  | _ => refuse s home op .badhandle

end Sys2Proof.Machine
end

