-- ==== Sys2Proof/Machine/Landing.lean ====
section
/-!
DEFINITION. The ferry initiators' ports (R535, R536), landing counters, landing reports and seals (chapter 07).
-/

namespace Sys2Proof.Machine

/-! ## The xi port -/

/-- A ferry initiator's port. -/
def xiAt (s : State) (j : Nat) : XiPort := tgetD s.xi j ⟨0, 0, [], []⟩

/-- A port is replaced. -/
def setXi (s : State) (j : Nat) (x : XiPort) : State := { s with xi := tput s.xi j x }

/-- The tags of a slice's pool (R284). -/
def poolSize (s : State) : Nat := 4096 / max 1 s.gelari.initiators

/-- A request is driven where the port holds its credits: a write's beats follow it (R535). -/
def xiDrive (s : State) (j : Nat) (write : Bool) (beats address stamp tag : Nat) (data : List Byte) (mask : Nat) :
    Option State :=
  let x := xiAt s j
  if 1 ≤ x.reqCredit ∧ (!write ∨ beats ≤ x.wrCredit) then
    let t := setXi s j { x with reqCredit := x.reqCredit - 1, wrCredit := x.wrCredit - (if write then beats else 0) }
    some (drive t (.xiRequest j write beats address stamp tag :: if write then [.xiWrite j data mask] else []))
  else none

/-! ## Seal entries (R230 to R239) -/

/-- A seal entry's key. -/
def sealKey (r : SealRef) : Nat := 256 * r.buffer + r.entry

/-- The key under which a port keeps the tag of a seal write whose entry a reset has cleared: no entry has it. -/
def noSeal : Nat := 2 ^ 16

/-- The station where a seal buffer sits (R230). -/
def bufferStation (s : State) (b : Nat) : Nat :=
  if b < 16 then s.gelari.attachFerry.getD b 0 else linkAttach s (b - 16)

/-- The initiator that writes a buffer's seals: the group's own, or the lowest attached with the link port. -/
def bufferInitiator (s : State) (b : Nat) : Nat :=
  if b < 16 then b
  else (s.gelari.attachFerry.findIdx? (· == linkAttach s (b - 16))).getD 0

/-- seal_share: the entries of each group buffer that a grid station owns (R231). -/
def sealShare (s : State) : Nat := 256 / max 1 s.gelari.stations

/-- The station whose allotment a group entry belongs to, or its substitute (R231). -/
def sealOwner (s : State) (entry : Nat) : Nat :=
  let n := entry / max 1 (sealShare s)
  tgetD s.substitute n n

/-- The allotments that a home owns, its own first (R231). -/
def sealAllotments (s : State) (home : Nat) : List Nat :=
  (if home < 64 ∧ (tget s.substitute home).isNone then [home] else []) ++ (s.substitute.filter fun p => p.2 == home).map (·.1)

/-- The free entry that a home takes in a group buffer: of its own allotment, then of a drained one (R234). DESIGN CHOICE (log
entry 81): the lowest free entry of an allotment; R234 orders buffers and allotments, not entries. -/
def freeEntry (s : State) (home buffer : Nat) : Option Nat :=
  let a := sealShare s
  let used := (station s home).sealsUsed
  ((sealAllotments s home).flatMap fun n => (List.range a).map (a * n + ·)).find? fun e => !used.contains (256 * buffer + e)

/-- Whether a group buffer's initiator serves: a drained one's buffer counts as full (R601). -/
def groupServes (s : State) (j : Nat) : Bool := tgetD s.unitState (256 * 2 + j) 0 == 0

/-- The group buffer and entry of a new seal: the nearest buffer on the course with a free entry (R234). -/
def chooseSeal (s : State) (home : Nat) : Option (Nat × Nat) :=
  let free := (List.range s.gelari.initiators).filter fun j => groupServes s j && (freeEntry s home j).isSome
  match leastBy (fun j => courseDistance s.gelari home (bufferStation s j)) free with
  | some j => (freeEntry s home j).map (j, ·)
  | none => none

/-- The seal writes that a port holds credit for are issued, oldest first (R236): two beats of 32 bytes under the
mask. DESIGN CHOICE (log entry 8): a seal write uses the least free tag number at or above the pool's. -/
def driveSeals : Nat → State → Nat → State
  | 0, s, _ => s
  | fuel + 1, s, j =>
    let x := xiAt s j
    match x.sealsWait with
    | [] => s
    | k :: rest =>
      match tget s.seals k with
      | none => driveSeals fuel (setXi s j { x with sealsWait := rest }) j
      | some e =>
        let tag := leastFrom (fun t => (tget x.sealsOut t).isNone) (x.sealsOut.length + 1) (poolSize s)
        match xiDrive s j true 2 (e.address.toNat / 64 * 64) (hiFn e.hi) tag (payloadBytes e.data) e.mask.toNat with
        | none => s
        | some t =>
          let y := xiAt t j
          driveSeals fuel (setXi t j { y with sealsWait := rest, sealsOut := tput y.sealsOut tag k }) j

/-- A seal entry becomes FREE: a group entry's owner is told, a link entry's seal credit returns (R236, R428). -/
def freeSeal (s : State) (k : Nat) (e : SealEntry) : State :=
  let b := k / 256
  let t := { s with seals := tdel s.seals k }
  if b < 16 then send t (bufferStation t b) (sealOwner t (k % 256)) (.freeNotice b (k % 256))
  else let _ := e; returnCredit t (b - 16) 0 0 1

/-- A deposit is stored (Table 7.9). -/
def sealDeposited (s : State) (r : SealRef) (address mask : Word) (data : Payload) : State :=
  { s with seals := tput s.seals (sealKey r) ⟨data, mask, address, r.hi, r.xgen, 1, r.buffer⟩ }

/-- A release: the entry is WRITING and its write issued (R236). -/
def sealReleased (s : State) (r : SealRef) : State :=
  match tget s.seals (sealKey r) with
  | some e =>
    if e.state = 1 then
      let j := bufferInitiator s r.buffer
      let x := xiAt s j
      let t := { s with seals := tput s.seals (sealKey r) { e with state := 2 } }
      driveSeals (x.sealsWait.length + 1) (setXi t j { x with sealsWait := x.sealsWait ++ [sealKey r] }) j
    else s
  | none => s

/-- A discarded seal is counted (R238, Table 7.9). -/
def countSealDiscard (s : State) (fn : Nat) : State := bumpFn (bump s 0x270502) fn 0x1D

/-- A discard: a HELD entry becomes FREE, a WRITING one completes (Table 7.9). -/
def sealDropped (s : State) (r : SealRef) : State :=
  match tget s.seals (sealKey r) with
  | some e => if e.state = 1 then countSealDiscard (freeSeal s (sealKey r) e) (hiFn e.hi) else s
  | none => s

/-- A seal write is acknowledged (Table 7.9). -/
def sealWritten (s : State) (k : Nat) : State :=
  match tget s.seals k with
  | some e => if e.state = 2 then bump (freeSeal s k e) 0x270501 else s
  | none => s

/-- A free notice reaches a group entry's owner. -/
def sealNoticed (s : State) (n buffer entry : Nat) : State :=
  onStation s n fun st => { st with sealsUsed := st.sealsUsed.filter (· != 256 * buffer + entry) }

/-! ## Landing counters at their home -/

/-- A counter's handle: its selector is xgen (R219). -/
def landHandle (s : State) (o : Obj) (l : Landing) : Word := issue s o.hi l.xgen.toNat

/-- The course identity of a held seal. -/
def sealRef (hi : BitVec 40) (h : HeldSeal) : SealRef := ⟨hi, h.xgen, h.buffer, h.entry⟩

/-- Messages about held seals, oldest first. -/
def sealMsgs (s : State) (hi : BitVec 40) (hs : List HeldSeal) (f : SealRef → MsgBody) : List (Nat × MsgBody) :=
  hs.map fun h => (bufferStation s h.buffer, f (sealRef hi h))

/-- Seals of a function held at a home (seal_limit). -/
def sealsHeld (s : State) (home fn : Nat) : Nat :=
  ((objsOf (station s home) fn).map fun o => match o.body with | .landing l => l.seals.length | _ => 0).sum

/-- A credited report (R223): bytes, overruns, eddies, watches, then the seal rule (R233). -/
def creditLanding (s : State) (home : Nat) (o : Obj) (l : Landing) (bytes : Nat) : State :=
  let landed := l.landed + BitVec.ofNat 64 bytes
  let past := l.expect != 0 && l.expect.toNat < landed.toNat
  let (_, es, woken, _) := evalEddies landed.toNat l.eddies
  let full := l.expect.toNat ≤ landed.toNat
  let l' := { l with
    landed := landed, eddies := es, overruns := if past then min 0xFFFF (l.overruns + 1) else l.overruns
    seals := if full then [] else l.seals }
  let o' := { o with body := .landing l' }
  let s1 := bump (if past then bumpFn s (hiFn o.hi) 0x1F else s) 0x270102
  let s2 := sendAll s1 home (woken.flatMap fun e => wakeAllMsgs s1 home (landHandle s1 o l) e ⟨.ok, 0, 0, none, none⟩)
  let s3 := sampleFanout s2 ((woken.map fun e => e.members.length).sum)
  let s4 := putObserved s3 home o'
  let s5 := if full then sendAll s4 home (sealMsgs s4 o.hi l.seals .sealRelease) else s4
  if l.landed.toNat < l.expect.toNat ∧ full then noteShadow s5 o' 2 .ok 0 else s5

/-- A report is discarded and counted (Table 7.4). -/
def discardReport (s : State) (key fn : Nat) : State := bumpFn (bump s key) fn 0x1C

/-- Checks 5 to 7 of a report at its home (Table 7.4), and its credit. A FAILED counter takes none (DEDUCED, log
entry 35). -/
def reportHome (s : State) (home : Nat) (r : Report) : State :=
  if (fnOf s r.fnStamp).state ≠ .enabled then discardReport s 0x270201 r.fnStamp else
  match liveObj s home r.handle with
  | some o => match o.body with
    | .landing l =>
      if o.failed then discardReport s 0x270204 r.fnStamp
      else if Handle.sel r.handle ≠ l.xgen.toNat then discardReport s 0x270205 r.fnStamp
      else creditLanding s home o l r.bytes
    | _ => discardReport s 0x270204 r.fnStamp
  | none => discardReport s 0x270204 r.fnStamp

/-- Whether an object is frozen at its old home, or on its way to this home (R344, R345). -/
def movingHere (st : Station) (index : Nat) : Bool :=
  (match st.outgoing with | some m => m.index == index | none => false) ||
  (match st.incoming with | some m => m.index == index | none => false)

/-- The key of a report port's service state. -/
def reportUnit : ReportPort → Nat
  | .landing n => 256 * 3 + n
  | .link n => 256 * 4 + n

/-- A port's credit for a report returns (R538), unless the port is being drained or out of service (R601, R602): a link port
owes it until it returns to service, a landing port returns its initial credits then. -/
def returnReportCredit (s : State) (p : ReportPort) : State :=
  if tgetD s.unitState (reportUnit p) 0 = 0 then drive s [.reportCredit p]
  else match p with
    | .landing _ => s
    | .link n => onLink s n fun l => { l with owedReports := l.owedReports + 1 }

/-- A report leaves its attach station, taken or on the course: its port's credit returns. -/
def creditReport (s : State) (r : Report) : State := match r.port with | some p => returnReportCredit s p | none => s

/-- A report is sent to a station: forwarding it after its attach station counts (R29). -/
def forwardReport (s : State) (n dst : Nat) (r : Report) : State :=
  send (creditReport s r) n dst (.report { r with port := none, hops := if r.port.isSome then 0 else r.hops + 1 })

/-- A station keeps a report. -/
def keepReport (s : State) (n : Nat) (r : Report) : State :=
  onStation s n fun st => { st with heldReports := st.heldReports ++ [r] }

/-- A report reaches a station (R222, R224, R611): its home takes it, one whose object is moving keeps it, and another
forwards it, or keeps it where R29 would refuse an operation. -/
def reportArrives (s : State) (n : Nat) (r : Report) : State :=
  let i := Handle.index r.handle
  match chartAt s n i with
  | some e =>
    if e.home ≠ n then (if 2 ≤ r.hops then keepReport s n r else forwardReport s n e.home r)
    else if movingHere (station s n) i then keepReport s n r
    else reportHome (creditReport s r) n r
  | none => reportHome (creditReport s r) n r

/-- The reports that a station keeps for an index. -/
def keptReports (st : Station) (index : Nat) : List Report := st.heldReports.filter fun r => Handle.index r.handle == index

/-- A station's kept reports without those for an index. -/
def dropReports (s : State) (n index : Nat) : State :=
  onStation s n fun st => { st with heldReports := st.heldReports.filter fun r => Handle.index r.handle != index }

/-- LAND_CREATE at its home. -/
def createLanding (s : State) (home : Nat) (op : FwdOp) : State :=
  let fn := Handle.fn op.handle
  if !objectQuota s fn then refuse s home op .quota else
  match newObj s home fn 3 (.landing ⟨0, 0, 0, [], [], 0⟩) with
  | none => refuse s home op .quota
  | some (o, u) => announce (publish u home o op.agent) home o.hi op.entry op.tag op.agent (issue u o.hi 0) 0

/-- LAND_EXPECT (R227). -/
def landExpect (s : State) (home : Nat) (o : Obj) (l : Landing) (op : FwdOp) : State :=
  if op.a = 0 ∨ 2 ^ 64 ≤ l.expect.toNat + op.a.toNat then refuse s home op .privilege
  else
    let o' := { o with body := .landing { l with expect := l.expect + op.a } }
    reply (noteShadow (setObj s home (hiIndex o.hi) o') o' 2 .ok op.agent) home op l.expect 0

/-- LAND_WAIT (R228). -/
def landWait (s : State) (home : Nat) (o : Obj) (l : Landing) (op : FwdOp) : State :=
  let n := if op.a = 0 then l.expect else op.a
  if n.toNat ≤ l.landed.toNat then reply s home op 0 0
  else registerWait s home o l.eddies 4 false n op false fun es => .landing { l with eddies := es }

/-- The refusal of a seal that would be held (R234, Table 7.6). -/
def holdRefused (s : State) (home : Nat) (o : Obj) (l : Landing) : Bool :=
  !recordsFree s home (hiFn o.hi) 1 || 255 ≤ l.seals.length ||
  fnSetting s (hiFn o.hi) 0x1E ≤ sealsHeld s home (hiFn o.hi)

/-- Whether a LAND_SEAL's operands are valid (Table 7.6). -/
def sealOk (op : FwdOp) : Bool := op.b != 0 && bits op.a 5 0 == 0 && op.data.isSome

/-- LAND_SEAL (R234): an entry of the home's allotment, a deposit, and a release at once or a held-seal record. QUOTA is check
11 of Table 2.4 and comes before the PRIVILEGE conditions, which are check 12 (R219). -/
def landSeal (s : State) (home : Nat) (o : Obj) (l : Landing) (op : FwdOp) : State :=
  match chooseSeal s home with
  | none => refuse s home op .quota
  | some (b, e) =>
    let now := l.expect.toNat ≤ l.landed.toNat
    if !now && holdRefused s home o l then refuse s home op .quota else
    if !sealOk op then refuse s home op .privilege else
    let h : HeldSeal := ⟨l.xgen, b, e⟩
    let r := sealRef o.hi h
    let s1 := onStation s home fun st => { st with sealsUsed := st.sealsUsed ++ [256 * b + e] }
    let s2 := send s1 home (bufferStation s1 b) (.sealDeposit r op.a op.b (op.data.getD 0))
    let s3 := if now then send s2 home (bufferStation s2 b) (.sealRelease r)
      else setObj s2 home (hiIndex o.hi) { o with body := .landing { l with seals := l.seals ++ [h] } }
    reply s3 home op 0 (BitVec.ofNat 64 (flag now))

/-- A link buffer's seal is registered (R238): held, released at once, or refused and discarded. -/
def registerLinkSeal (s : State) (home : Nat) (o : Obj) (l : Landing) (r : SealRef) (op : FwdOp) : State :=
  let at_ := bufferStation s r.buffer
  if l.expect.toNat ≤ l.landed.toNat then reply (send s home at_ (.sealRelease r)) home op 0 1
  else if holdRefused s home o l then refuse (send s home at_ (.sealDiscard r)) home op .quota
  else
    let h : HeldSeal := ⟨l.xgen, r.buffer, r.entry⟩
    reply (setObj s home (hiIndex o.hi) { o with body := .landing { l with seals := l.seals ++ [h] } }) home op 0 0

/-- LAND_RENEW (R240). -/
def landRenew (s : State) (home : Nat) (o : Obj) (l : Landing) (op : FwdOp) : State :=
  let l' : Landing := ⟨0, 0, l.xgen + 1, [], [], 0⟩
  let o' := { o with body := .landing l' }
  let s1 := setObj s home (hiIndex o.hi) o'
  let s2 := sendAll (releaseTests s1 (hiFn o.hi) op l.eddies) home
    (endEddies s1 home (landHandle s1 o l) l.eddies (plain .stale))
  let s3 := sendAll s2 home (sealMsgs s2 o.hi l.seals .sealDiscard)
  reply (noteShadow s3 o' 2 .ok op.agent) home op (landHandle s3 o' l') l.landed

/-- The landing operations at the home: a selector that is not xgen is STALE first (R219). -/
def homeLanding (s : State) (home : Nat) (o : Obj) (l : Landing) (op : FwdOp) : State :=
  if Handle.sel op.handle ≠ l.xgen.toNat then
    answer s home op ⟨.stale, if op.op = .landRead then landHandle s o l else 0, 0, none, none⟩
  else match op.op with
    | .landExpect => landExpect s home o l op
    | .landWait => landWait s home o l op
    | .landRead => reply s home op l.landed l.expect
    | .landSeal => landSeal s home o l op
    | .landRenew => landRenew s home o l op
    | _ => refuse s home op .badhandle

/-- A landing counter's waits and seals end as it is destroyed (R243). -/
def destroyLanding (s : State) (home : Nat) (o : Obj) (l : Landing) (st : Status) : State :=
  let s1 := sendAll s home (endEddies s home (landHandle s o l) l.eddies (plain st))
  let s2 := sendAll s1 home (sealMsgs s1 o.hi l.seals .sealDiscard)
  (lapseAll s2 home o .badhandle).1

/-! ## Reports at their attach station (R220 to R225, R538) -/

/-- The attach station of a report port. -/
def reportStation (s : State) : ReportPort → Nat
  | .landing n => s.gelari.attachLanding.getD n 0
  | .link n => linkAttach s n

/-- Checks 1 to 4 of a report (Table 7.4): the entry that counts its discard, or none. -/
def reportRefusal (s : State) (p : ReportIn) : Option Nat :=
  let fn := p.fnStamp.toNat
  if p.bytes.toNat = 0 ∨ 65536 < p.bytes.toNat ∨ p.rsv ≠ 0 then some 0x270202
  else if (fnOf s fn).state ≠ .enabled then some 0x270201
  else if Handle.fn p.handle ≠ fn ∨ Handle.cls p.handle ≠ 3 then some 0x270202
  else if !tagOk s p.handle then some 0x270203
  else none

/-- A presented report is checked, and taken or forwarded. -/
def takeReport (s : State) (p : ReportIn) (n : Nat) : State :=
  let fn := p.fnStamp.toNat
  match reportRefusal s p with
  | some k => returnReportCredit (discardReport s k fn) p.port
  | none => reportArrives s n ⟨p.handle, fn, p.bytes.toNat, 0, some p.port⟩

end Sys2Proof.Machine
end

