-- ==== Sys2Proof/Machine/Queues.lean ====
section
/-!
DEFINITION. Token queues at their home (chapter 08): windows and blocks, pushes, pops, feeds, toll, the idle timeout,
and what the ferry answers.
-/

namespace Sys2Proof.Machine

/-! ## The serving slice (R285, R600) -/

/-- The deputy of a slice: the next one IN_SERVICE. -/
def deputyOf (s : State) (j : Nat) : Nat :=
  let i := max 1 s.gelari.initiators
  (((List.range i).map fun k => (j + k) % i).find? fun k => tgetD s.unitState (256 * 2 + k) 0 == 0).getD j

/-- The slice that serves an index, or a function's shadow records. -/
def servingSlice (s : State) (n : Nat) : Nat := deputyOf s (n % max 1 s.gelari.initiators)

/-- The station where a slice sits. -/
def sliceStation (s : State) (j : Nat) : Nat := s.gelari.attachFerry.getD j 0

/-- The station of an object's serving slice. -/
def ferryStation (s : State) (index : Nat) : Nat := sliceStation s (servingSlice s index)

/-! ## Blocks (R253, R291) -/

/-- The spill frame of a block. -/
def frameOf (b : Nat) (toks : List Token) : List Byte :=
  let words := (List.range 16).flatMap fun i => bytesLE 8 ((toks.getD i ⟨0, false⟩).word.toNat)
  let ends := (toks.mapIdx fun i t => flag t.endMark * 2 ^ i).sum
  words ++ bytesLE 2 ends ++ List.replicate 94 0 ++ bytesLE 8 b ++ List.replicate 24 0

/-- The four segments of a frame. -/
def frameSegments (frame : List Byte) : List Payload := (List.range 4).map fun k => payloadOf ((frame.drop (64 * k)).take 64)

/-- The tokens of a frame. -/
def frameTokens (frame : List Byte) : List Token :=
  let ends := ofBytesLE ((frame.drop 128).take 2)
  (List.range 16).map fun i => ⟨BitVec.ofNat 64 (ofBytesLE ((frame.drop (8 * i)).take 8)), ends / 2 ^ i % 2 == 1⟩

/-- The end-marked tokens of a list. -/
def endCount (l : List Token) : Nat := (l.filter (·.endMark)).length

/-! ## Queue state -/

/-- Free space (R263). -/
def Queue.free (q : Queue) : Nat := q.capacity - (q.push - q.rel) - q.tollOut

/-- The state of a queue: 0 RESIDENT, 1 SPILLED, 2 FAULT (R278). -/
def Queue.state (q : Queue) : Nat :=
  if q.faultAt.isSome then 2 else if q.bwBlocks.isEmpty && q.spillTail == 0 && q.spillHead == 0 then 0 else 1

/-- The positions that pops see: those before a push that has not been written whole (R267). -/
def Queue.seen (q : Queue) : Nat := match q.pushing with | some p => min p.first q.push | none => q.push

/-- The token at a position of a window. -/
def Queue.tokenAt (q : Queue) (p : Nat) : Option Token :=
  if q.seen ≤ p then none
  else if 16 * q.tailBlock ≤ p then q.tail[p - 16 * q.tailBlock]?
  else match q.head with
    | some (h, toks) => if h = p / 16 then toks[p % 16]? else none
    | none => none

/-- Whether the next token lies in a window. -/
def Queue.present (q : Queue) : Bool := (q.tokenAt q.read).isSome

/-- Whether a pop's condition holds (R268). -/
def Queue.holds (q : Queue) (k : Nat) : Bool := if k = 0 then decide (q.read < q.seen) else k ≤ q.packets

/-- The tokens that a pop takes (R269). -/
def Queue.takeTokens (q : Queue) (stop : Bool) : Nat → Nat → List Token
  | 0, _ => []
  | m + 1, p =>
    match q.tokenAt p with
    | none => []
    | some t => if stop && t.endMark then [t] else t :: q.takeTokens stop m (p + 1)

/-- The tokens that a pop takes from those that came back, as far as their positions run on (R270). -/
def takeRun (stop : Bool) : Nat → Nat → List (Nat × Token) → List Token
  | 0, _, _ => []
  | _ + 1, _, [] => []
  | m + 1, p, (a, t) :: rest =>
    if a ≠ p then [] else if stop && t.endMark then [t] else t :: takeRun stop m (p + 1) rest

/-- A queue after a pop of some tokens (R269). -/
def Queue.popped (q : Queue) (toks : List Token) : Queue :=
  let e := endCount toks
  { q with read := q.read + toks.length, packets := q.packets - e
           marksSince := if q.markValid then q.marksSince + e else q.marksSince }

/-- What a pop takes: its first position, its tokens, and the queue after it. Tokens that came back go first (DESIGN CHOICE, log
entry 71). -/
def Queue.give (q : Queue) (stop : Bool) (m : Nat) : Nat × List Token × Queue :=
  match q.returned with
  | (p, _) :: _ =>
    let toks := takeRun stop m p q.returned
    (p, toks, { q with returned := q.returned.drop toks.length })
  | [] =>
    let toks := q.takeTokens stop m q.read
    (q.read, toks, q.popped toks)

/-- What a pop returns (Table 8.4, R270). -/
def popInfo (st : Status) (first : Nat) (toks : List Token) (agent : Option Nat) : EndInfo :=
  let ends := (toks.mapIdx fun i t => flag t.endMark * 2 ^ i).sum
  ⟨st, BitVec.ofNat 64 (toks.length + ends * 256), BitVec.ofNat 64 first,
    some (payloadOf (toks.flatMap fun t => bytesLE 8 t.word.toNat)), agent⟩

/-- The threshold field of a pop eddy (R268). -/
def popKey (k m : Nat) (stop : Bool) : Word := BitVec.ofNat 64 (k + m * 2 ^ 32 + flag stop * 2 ^ 40 + 2 ^ 63)

/-- The packet threshold of a pop eddy. -/
def Eddy.popK (e : Eddy) : Nat := bits e.threshold 28 0

/-- The idle deadline is armed where a timeout is in force (R275). -/
def Queue.arm (s : State) (q : Queue) : Queue :=
  if q.idleAc = 0 then q else { q with idleDeadline := some (deadlineIn s q.idleAc) }

/-- Unread tokens went from none to some, or a grant left some; none left disarms (R275). -/
def Queue.rearm (s : State) (q : Queue) : Queue :=
  if q.read = q.seen then { q with idleDeadline := none, idleDue := false } else q.arm s

/-! ## Windows (R255 to R260) -/

/-- Whether the head window is free (R255): a retained spill keeps it until the ferry has accepted it (R258). -/
def Queue.headFree (q : Queue) : Bool :=
  q.spillHead == 0 && q.refills.isEmpty && q.refilled.isNone && match q.head with
    | none => true
    | some (h, _) => 16 * (h + 1) ≤ q.rel

/-- The spill segments of a block leave for the slice (R256). -/
def sendSpill (s : State) (home : Nat) (hi : BitVec 40) (b : Nat) (toks : List Token) : State :=
  sendAll s home ((frameSegments (frameOf b toks)).mapIdx fun k d =>
    (ferryStation s (hiIndex hi), .spillSegment (nameOf hi) b k d))

/-- A completed tail block moves to the head window or is spilled (R255). -/
def tailFull (s : State) (home : Nat) (hi : BitVec 40) (q : Queue) : State × Queue :=
  let b := q.tailBlock
  if q.headFree ∧ !(b ≠ 0 ∧ q.bwBlocks.contains (b - 1)) then
    (s, { q with head := some (b, q.tail), headCopy := false, tail := [], tailBlock := b + 1 })
  else (sendSpill (bump s 0x280401) home hi b q.tail, { q with spillTail := 1 })

/-- Backwater copies that rel has passed are freed (R260). -/
def Queue.freeCopies (q : Queue) : Queue := { q with bwBlocks := q.bwBlocks.filter fun b => decide (q.rel < 16 * (b + 1)) }

/-- The head window's block leaves where read has left it: dropped, kept as its copy, or spilled first (R258). -/
def headLeaves (s : State) (home : Nat) (hi : BitVec 40) (q : Queue) : State × Queue :=
  match q.head with
  | none => (s, q)
  | some (h, toks) =>
    if q.spillHead ≠ 0 ∨ (16 * h ≤ q.read ∧ q.read < 16 * (h + 1)) then (s, q)
    else if 16 * (h + 1) ≤ q.rel ∨ q.headCopy then (s, { q with head := none })
    else (sendSpill (bump s 0x280402) home hi h toks, { q with spillHead := 1 })

/-- A refilled block enters a free head window where it is the block of read; one that a rewind or release made
useless is dropped, its copy kept (R259). -/
def refilledEnters (q : Queue) : Queue :=
  match q.refilled with
  | none => q
  | some (b, toks) =>
    if q.read / 16 = b then
      match q.head with
      | none => { q with head := some (b, toks), headCopy := true, refilled := none }
      | some _ => if q.spillHead = 0 then { q with refilled := none } else q
    else match q.head with
      | some (h, _) => if h + 1 = b ∧ q.read / 16 = h then q else { q with refilled := none }
      | none => { q with refilled := none }

/-- Whether a block is in a window or waits to enter one. -/
def Queue.hasBlock (q : Queue) (b : Nat) : Bool :=
  b == q.tailBlock || (match q.head with | some (h, _) => h == b | none => false) ||
  (match q.refilled with | some (h, _) => h == b | none => false)

/-- A refill of a block is requested. -/
def askRefill (s : State) (home : Nat) (hi : BitVec 40) (q : Queue) (b : Nat) : State × Queue :=
  (send s home (ferryStation s (hiIndex hi)) (.refillRequest (nameOf hi) b), { q with refills := q.refills ++ [(b, [])] })

/-- The refills that R259 requests: the block of read, and the block after the head's. -/
def refillsDue (s : State) (home : Nat) (hi : BitVec 40) (q : Queue) : State × Queue :=
  let want := fun b => q.bwBlocks.contains b && !q.hasBlock b && !q.refills.any fun r => r.1 == b
  let r := q.read / 16
  if want r then askRefill s home hi q r
  else match q.head with
    | some (h, _) =>
      if r = h ∧ 16 * h + setting s 0x280300 ≤ q.read ∧ want (h + 1) ∧ q.refilled.isNone then askRefill s home hi q (h + 1)
      else (s, q)
    | none => (s, q)

/-- The windows after a change of read or of their contents. -/
def tidy (s : State) (home : Nat) (hi : BitVec 40) (q : Queue) : State × Queue :=
  if q.faultAt.isSome then (s, q) else
  let (s1, q1) := headLeaves s home hi q.freeCopies
  refillsDue s1 home hi (refilledEnters q1)

/-! ## Pops (R268 to R270, R275) -/

/-- One pop of an eddy is granted: the station after its cursor, the tokens it takes, the grant message. -/
def grantPop (s : State) (home : Nat) (hi : BitVec 40) (q : Queue) (e : Eddy) (st : Status) (agent : Option Nat) :
    State × Queue :=
  let n := e.nextStation
  match takeFirst (fun m => m.1 == n) e.members with
  | none => (s, q)
  | some (m, rest) =>
    let (p, toks, q0) := q.give (bit e.threshold 40) (bits e.threshold 35 32)
    let s1 := send s home m.1 (.popGrant (nameOf hi) e.ref m.2 (popInfo st p toks agent))
    let s2 := bumpBy (if st = .idleTail then bump s1 0x280404 else s1) 0x280103 toks.length
    let e' := { e with members := rest, cursor := n }
    let es := q.popEddies.map fun x => if x.ref = e.ref then e' else x
    (s2, ({ q0 with popEddies := es.filter fun x => !x.members.isEmpty }).rearm s2)

/-- The next grant of the evaluation: the oldest eddy where tokens came back, while idle_due is 1 the oldest with a packet
threshold (R275), else the oldest whose condition holds (R269). -/
def nextGrant (q : Queue) : Option (Eddy × Status) :=
  if q.faultAt.isSome then none else
  if !q.returned.isEmpty then q.popEddies.head?.map (·, .ok) else
  if !q.present then none else
  match if q.idleDue then q.popEddies.find? fun e => 1 ≤ e.popK else none with
  | some e => some (e, .idleTail)
  | none => (q.popEddies.find? fun e => q.holds e.popK).map (·, .ok)

/-- The pop evaluation, with the windows kept in order after each grant (R269): the eddy of each grant, as it stood before, too. -/
def evalPops (home : Nat) (hi : BitVec 40) (agent : Option Nat) :
    Nat → State → Queue → List Eddy → State × Queue × List Eddy
  | 0, s, q, g => (s, q, g)
  | fuel + 1, s, q, g =>
    match nextGrant q with
    | none => (s, q, g)
    | some (e, st) =>
      let (s1, q1) := grantPop s home hi q e st agent
      let q2 := if st = .idleTail then { q1 with idleDue := false } else q1
      let (s2, q3) := tidy s1 home hi q2
      evalPops home hi agent fuel s2 q3 (g ++ [e])

/-- Waits of the pop eddies. -/
def Queue.popWaits (q : Queue) : Nat := (q.popEddies.map fun e => e.members.length).sum

/-- The eddies of some grants, each once, as it stood before its first. -/
def eachEddy (g : List Eddy) : List Eddy := g.foldl (fun l e => if l.any (·.ref == e.ref) then l else l ++ [e]) []

/-- The queue after a step that may let pops go: windows, grants, samples, watches, and a record where pops were granted
(R407). `op` is the Q_PUSH of whose step it is part, whose agent the grants name (R395) and whose release is tested once for
each eddy (R394). -/
def settleQueue (s : State) (home : Nat) (o : Obj) (q : Queue) (op : Option FwdOp) : State × Obj :=
  let (s1, q1) := tidy s home o.hi q
  let (s2, q2, g) := evalPops home o.hi (op.map (·.agent)) (q1.popWaits + 1) s1 q1 []
  let (s3, q3) := tidy s2 home o.hi q2
  let s4 := sampleFanout s3 g.length
  let s5 := match op with
    | some f => releaseTests s4 (hiFn o.hi) f (eachEddy g)
    | none => s4
  let o' := { o with body := .queue q3 }
  let s6 := putObserved s5 home o'
  (if g.isEmpty then s6 else noteShadow s6 o' 2 .ok ((op.map (·.agent)).getD 0), o')

/-! ## Writing tokens (R254 to R256, R266, R267, R315) -/

/-- End-marked tokens add to the credit of every queue watch (R315). -/
def creditWatches (o : Obj) (n : Nat) : Obj :=
  { o with watches := o.watches.map fun w => if w.feed then w else { w with credit := w.credit + n } }

/-- Tokens enter the tail window as far as it is free: the tokens that are left. -/
def writeTail (home : Nat) (hi : BitVec 40) : Nat → State → Queue → List Token → State × Queue × List Token
  | 0, s, q, l => (s, q, l)
  | fuel + 1, s, q, l =>
    if l.isEmpty ∨ q.spillTail ≠ 0 then (s, q, l)
    else
      let room := 16 - q.tail.length
      let q1 := { q with tail := q.tail ++ l.take room, push := q.push + (l.take room).length }
      let rest := l.drop room
      if q1.tail.length = 16 then
        let (s2, q2) := tailFull s home hi q1
        writeTail home hi fuel s2 q2 rest
      else (s, q1, rest)

/-- A feed's token is written: it adds to the packets and the watches' credit, and its rule is told (R317). -/
def feedWritten (s : State) (home : Nat) (o : Obj) (w : Watch) : State :=
  if w.ruleHi = 0 then s
  else let _ := o; send s home (homeOf s home (hiIndex w.ruleHi)) (.pushed (nameOf w.ruleHi) none)

/-- Pending feeds are written, oldest first, while free space and the tail window allow (R317). A bridge's feed is
freed when it has been written; a rule's becomes idle. -/
def runFeeds (home : Nat) : Nat → State → Obj → Queue → State × Obj × Queue
  | 0, s, o, q => (s, o, q)
  | fuel + 1, s, o, q =>
    match takeFirst (fun w => w.feed && w.phase == 1) o.watches with
    | none => (s, o, q)
    | some (w, _) =>
      if q.free = 0 ∨ q.spillTail ≠ 0 ∨ q.pushing.isSome then (s, o, q)
      else
        let t : Token := ⟨w.threshold, w.endMark⟩
        let empty := q.read == q.push
        let (s1, q1, _) := writeTail home o.hi 2 s q [t]
        let q2 := { q1 with packets := q1.packets + flag w.endMark }
        let q3 := if empty then q2.arm s1 else q2
        let ws := if w.ruleHi = 0 then
            (match takeFirst (fun x => x.feed && x.phase == 1) o.watches with | some (_, rest) => rest | none => o.watches)
          else o.watches.map fun x => if x = w then { x with phase := 0 } else x
        let o1 := creditWatches { o with watches := ws } (flag w.endMark)
        runFeeds home fuel (feedWritten (bump s1 0x280102) home o w) o1 q3

/-- Feeds, then pops, of a queue (R273, R317); feeds that were written leave a record (R407). -/
def feedAndSettle (s : State) (home : Nat) (o : Obj) (q : Queue) : State × Obj :=
  let (s1, o1, q1) := runFeeds home (o.watches.length + 1) s o q
  let (s2, o2) := settleQueue s1 home o1 q1 none
  (if q1.push = q.push then s2 else noteShadow s2 o2 2 .ok 0, o2)

/-- Feeds that a push has kept waiting are written once it has ended (R267, R317). -/
def feedsAfter (s : State) (home : Nat) (o : Obj) : State × Obj :=
  match o.body with
  | .queue q => if o.watches.any fun w => w.feed && w.phase == 1 then feedAndSettle s home o q else (s, o)
  | _ => (s, o)

/-- The operation that a waiting push stands for. -/
def Pushing.asOp (p : Pushing) (hi : BitVec 40) : FwdOp :=
  ⟨.qPush, p.agent, p.entry, p.tag, 0, nameOf hi, 0, 0, none, p.release, 0, p.scope, false, 0⟩

/-- A push goes on: its tokens enter the tail window; with the last one it counts its packets, runs the pop
evaluation, arms the idle timeout and answers (R266, R267). A part that leaves some tokens unwritten is a step of its own
(R407). -/
def continuePush (s : State) (home : Nat) (o : Obj) (q : Queue) (p : Pushing) : State :=
  let empty := q.read == p.first
  let (s1, q1, rest) := writeTail home o.hi 3 s q p.rest
  if rest.isEmpty then
    let q2 := { q1 with pushing := none, packets := q1.packets + p.ends }
    let q3 := if empty then q2.arm s1 else q2
    let op := p.asOp o.hi
    let (s2, o2) := settleQueue (bumpBy s1 0x280102 (q.push + p.rest.length - p.first)) home (creditWatches o p.ends) q3 (some op)
    let (s3, o3) := feedsAfter s2 home o2
    let toll := match o3.body with | .queue x => x.tollOut | _ => 0
    reply (noteShadow s3 o3 2 .ok p.agent) home op (BitVec.ofNat 64 p.first) (BitVec.ofNat 64 toll)
  else
    let o1 := { o with body := .queue { q1 with pushing := some { p with rest := rest } } }
    let s2 := setObj s1 home (hiIndex o.hi) o1
    if q1.push = q.push then s2 else noteShadow s2 o1 2 .ok p.agent

/-- The tokens that a Q_PUSH names; none where R266 does not permit the form. -/
def pushTokens (op : FwdOp) : Option (List Token) :=
  let n := bits op.b 3 0
  let marks := bits op.b 15 8
  match op.data with
  | none => if n = 1 ∧ marks ≤ 1 then some [⟨op.a, marks == 1⟩] else none
  | some p =>
    if 1 ≤ n ∧ n ≤ 8 ∧ op.a = 0 ∧ marks < 2 ^ n ∧ payloadNat p (8 * n) (64 - 8 * n) = 0 then
      some ((List.range n).map fun i => ⟨BitVec.ofNat 64 (payloadNat p (8 * i) 8), marks / 2 ^ i % 2 == 1⟩)
    else none

/-- Q_PUSH (R262, R266, R267). Of a form that R266 does not permit and toll that falls short, the form answers first (DESIGN
CHOICE, log entry 63: neither rule gives the order). -/
def qPush (s : State) (home : Nat) (o : Obj) (q : Queue) (op : FwdOp) : State :=
  match pushTokens op with
  | none => refuse s home op .privilege
  | some toks =>
    if q.tollOut < toks.length then refuse (bumpFn s (hiFn o.hi) 0x20) home op .quota
    else
      let p : Pushing := ⟨op.agent, op.entry, op.tag, op.release, op.scope, q.push, endCount toks, toks⟩
      continuePush s home o { q with
        tollOut := q.tollOut - toks.length, pushing := some p
        quals := (q.quals.filter fun x => q.rel < x.2.1) ++ [(q.push, q.push + toks.length, op.scope, op.release)] } p

/-! ## The other operations -/

/-- Q_POP (R268, R275). -/
def qPop (s : State) (home : Nat) (o : Obj) (q : Queue) (op : FwdOp) : State :=
  let m := bits op.a 3 0
  let stop := bit op.a 8
  let k := bits op.b 28 0
  if m = 0 ∨ 8 < m ∨ q.capacity < k then refuse s home op .privilege
  else
    let now := q.read < q.push && q.present
    let st : Option Status := if !q.returned.isEmpty || (now && q.holds k) then some .ok
      else if now && q.idleDue && 1 ≤ k then some .idleTail else none
    match st with
    | some st =>
      let (p, toks, q0) := q.give stop m
      let q1 := (if st = .idleTail then { q0 with idleDue := false } else q0).rearm s
      let s1 := bumpBy (if st = .idleTail then bump s 0x280404 else s) 0x280103 toks.length
      let (s2, o2) := settleQueue s1 home o q1 none
      answer (noteShadow s2 o2 2 .ok op.agent) home op { popInfo st p toks none with agent := none }
    | none =>
      registerWait s home o q.popEddies 4 true (popKey k m stop) op false fun es => .queue { q with popEddies := es }

/-- The tokens of a pop's answer: their words are its payload, value_a gives their count and end marks (Table 8.4). -/
def answerTokens (a : Word) (d : Payload) : List Token :=
  (List.range (bits a 3 0)).map fun i => ⟨BitVec.ofNat 64 (payloadNat d (8 * i) 8), bit a (8 + i)⟩

/-- Tokens of a pop that no member took come back (R270). They are unread again where no later pop, mark or release has passed
them; else the next pops take them before any other (DESIGN CHOICE, log entry 71). -/
def popReturned (s : State) (home : Nat) (o : Obj) (q : Queue) (first : Nat) (toks : List Token) : State :=
  if q.faultAt.isSome then s
  else
    let unread := q.read = first + toks.length && q.rel ≤ first && (!q.markValid || q.mark ≤ first)
    let q1 := if unread then { q with
        read := first, packets := q.packets + endCount toks
        marksSince := if q.markValid then q.marksSince - endCount toks else q.marksSince }
      else { q with returned := q.returned ++ toks.mapIdx fun i t => (first + i, t) }
    (settleQueue s home o (if unread && q.read = q.seen && !toks.isEmpty then q1.arm s else q1) none).1

/-- Q_REWIND (R272). -/
def qRewind (s : State) (home : Nat) (o : Obj) (q : Queue) (op : FwdOp) : State :=
  if !q.markValid then refuse s home op .stale
  else
    let q1 := { q with
      packets := q.packets + q.marksSince, marksSince := 0, read := q.mark
      returned := q.returned.filter fun r => r.1 < q.mark || q.read ≤ r.1 }
    let q2 := if q.read = q.push ∧ q1.read ≠ q1.push then q1.arm s else q1
    let (s1, o1) := settleQueue (bumpFn s (hiFn o.hi) 0x22) home o q2 none
    reply (noteShadow s1 o1 2 .ok op.agent) home op (BitVec.ofNat 64 (q.read - q.mark)) 0

/-- The release of some tokens: rel, mark, copies, toll eddies, feeds and pops (R273); the toll waits that it grants are
granted as acquire waits are (R157, R263). -/
def releaseTokens (s : State) (home : Nat) (o : Obj) (q : Queue) (n : Nat) (op : Option FwdOp) : State × Obj :=
  let rel := q.rel + n
  let q1 := ({ q with rel := rel, markValid := q.markValid && decide (rel ≤ q.mark) } : Queue).freeCopies
  let (v, es, gs) := grantAll q1.free q1.tollEddies
  let granted := (gs.map fun g => g.2.length).sum
  let q2 := { q1 with tollOut := q1.tollOut + (q1.free - v), tollEddies := es }
  let i : EndInfo := ⟨.ok, 0, 0, none, op.map (·.agent)⟩
  let s1 := sendAll s home (gs.flatMap fun g => grantMsgs (nameOf o.hi) g.1.ref g.1.threshold g.2 i)
  let s2 := match op with
    | some f => releaseTests s1 (hiFn o.hi) f (gs.map (·.1))
    | none => s1
  feedAndSettle (sampleFanout (bumpBy s2 0x240304 granted) granted) home o q2

/-- Q_RELEASE (R273). -/
def qRelease (s : State) (home : Nat) (o : Obj) (q : Queue) (op : FwdOp) : State :=
  let n := if op.a = 0 then q.read - q.rel else op.a.toNat
  if q.read < q.rel + n then refuse s home op .privilege
  else
    let (s1, o1) := releaseTokens s home o q n (some op)
    let free := match o1.body with | .queue x => x.free | _ => 0
    reply (noteShadow s1 o1 2 .ok op.agent) home op (BitVec.ofNat 64 (q.rel + n)) (BitVec.ofNat 64 free)

/-- Q_TOLL (R263). -/
def qToll (s : State) (home : Nat) (o : Obj) (q : Queue) (op : FwdOp) : State :=
  if op.a = 0 ∨ q.capacity < op.a.toNat then refuse s home op .privilege
  else if op.a.toNat ≤ q.free then
    reply (setObj s home (hiIndex o.hi) { o with body := .queue { q with tollOut := q.tollOut + op.a.toNat } }) home op 0 0
  else registerWait s home o q.tollEddies 2 true op.a op true fun es => .queue { q with tollEddies := es }

/-- The idle timeout of a policy word (R274); none for any other payload. -/
def policyIdle (s : State) (p : Payload) : Option Nat :=
  let v := payloadNat p 0 8
  if payloadNat p 8 56 ≠ 0 ∨ 2 ^ 33 ≤ v then none
  else some (if v / 2 ^ 32 = 1 then 0 else if v % 2 ^ 32 = 0 then setting s 0x280200 else v % 2 ^ 32)

/-- Q_POLICY (R274). -/
def qPolicy (s : State) (home : Nat) (o : Obj) (q : Queue) (op : FwdOp) : State :=
  match op.data with
  | none => refuse s home op .privilege
  | some p => match policyIdle s p with
    | none => refuse s home op .privilege
    | some v => reply (setObj s home (hiIndex o.hi) { o with body := .queue { q with idleAc := v } }) home op 0 0

/-- Q_READ (Table 8.4). -/
def qRead (s : State) (home : Nat) (q : Queue) (op : FwdOp) : State :=
  reply s home op (BitVec.ofNat 64 (match q.faultAt with | some p => p | none => q.push - q.read))
    (BitVec.ofNat 64 (q.packets + q.tollOut * 2 ^ 29 + q.state * 2 ^ 58))

/-- The queue operations at the home. In FAULT all but Q_READ are INTEGRITY (R279). -/
def homeQueue (s : State) (home : Nat) (o : Obj) (q : Queue) (op : FwdOp) : State :=
  match op.op with
  | .qRead => qRead s home q op
  | _ => if q.faultAt.isSome then refuse s home op .integrity else
    match op.op with
    | .qPush => qPush s home o q op
    | .qPop => qPop s home o q op
    | .qMark =>
      reply (setObj s home (hiIndex o.hi)
        { o with body := .queue { q with mark := q.read, marksSince := 0, markValid := true } }) home op
        (BitVec.ofNat 64 q.read) 0
    | .qRewind => qRewind s home o q op
    | .qRelease => qRelease s home o q op
    | .qToll => qToll s home o q op
    | .qPolicy => qPolicy s home o q op
    | _ => refuse s home op .badhandle

/-! ## Creation and destruction (R277, R280, R287) -/

/-- Whether Q_CREATE's operands and payload are valid (Table 8.5). -/
def queueFieldsOk (s : State) (op : FwdOp) : Bool :=
  let c := bits op.a 28 0
  1 ≤ c && c ≤ 2 ^ 28 && bits op.a 60 32 ≤ c && match op.data with | some p => (policyIdle s p).isSome | none => true

/-- A new queue (Table 8.6). Without a payload it has the idle timeout of a policy word of zeros, q_idle_default_ac (DESIGN
CHOICE, log entry 63: R274 gives no timeout for it). -/
def newQueue (s : State) (op : FwdOp) : Queue where
  push := 0
  read := 0
  rel := 0
  mark := 0
  markValid := false
  capacity := bits op.a 28 0
  tollOut := bits op.a 60 32
  packets := 0
  marksSince := 0
  popEddies := []
  tollEddies := []
  headCopy := false
  head := none
  tailBlock := 0
  tail := []
  spillTail := 0
  spillHead := 0
  refills := []
  refilled := none
  pushing := none
  bwBlocks := []
  bwReserved := (bits op.a 28 0 + 15) / 16 + 1
  idleAc := match op.data with | some p => (policyIdle s p).getD 0 | none => setting s 0x280200
  idleDeadline := none
  idleDue := false
  faultAt := none
  quals := []
  returned := []

/-- Q_CREATE at its home: quota (check 11 of Table 2.4), then its fields (check 12); the entry is taken and the extent requested
(R287). A queue with bad fields in a function without backwater is PRIVILEGE, since the extent's QUOTA comes with the slice's
answer (DESIGN CHOICE, log entry 63). -/
def createQueue (s : State) (home : Nat) (op : FwdOp) : State :=
  let fn := Handle.fn op.handle
  if !objectQuota s fn || !windowQuota s fn then refuse s home op .quota
  else
    let q := newQueue s op
    match newObj s home fn 4 (.queue q) with
    | none => refuse s home op .quota
    | some (o, t) =>
      if !queueFieldsOk s op then refuse s home op .privilege else
      let u := send t home (ferryStation t (hiIndex o.hi)) (.reserveExtent (nameOf o.hi) q.bwReserved)
      onStation u home fun st => { st with jobs := st.jobs ++ [⟨o.hi, .queueCreate, op.entry, op.tag, op.agent⟩] }

/-- Every wait of a queue ends with a status. -/
def endQueueWaits (s : State) (home : Nat) (o : Obj) (q : Queue) (st : Status) : State :=
  sendAll s home (endEddies s home (nameOf o.hi) (q.popEddies ++ q.tollEddies) (plain st))

/-- A push that waits ends with a status. -/
def endPushing (s : State) (home : Nat) (o : Obj) (q : Queue) (st : Status) : State :=
  match q.pushing with
  | some p => refuse s home (p.asOp o.hi) st
  | none => s

/-- DESTROY of a queue (R280): its waits end, its extent is released, and the index returns when the slice answers. -/
def destroyQueue (s : State) (home : Nat) (o : Obj) (q : Queue) (entry tag agent : Nat) (st : Status) : State :=
  let s1 := endPushing (endQueueWaits s home o q st) home o q st
  let (s2, _) := lapseAll s1 home o .badhandle
  let s3 := send s2 home (ferryStation s2 (hiIndex o.hi)) (.releaseExtent (nameOf o.hi))
  onStation (dropObj s3 home (hiIndex o.hi)) home fun x => { x with jobs := x.jobs ++ [⟨o.hi, .queueDestroy, entry, tag, agent⟩] }

/-! ## What the ferry answers (R256, R258, R259, R279, R297) -/

/-- The queue of a message's handle at a home; messages name the object alone. -/
def queueAt (s : State) (home : Nat) (h : Word) : Option (Obj × Queue) :=
  match liveObj s home h with
  | some o => match o.body with
    | .queue q => some (o, q)
    | _ => none
  | none => none

/-- A queue whose tail window has become free: its push goes on, or its feeds and pops run. -/
def tailFree (s : State) (home : Nat) (o : Obj) (q : Queue) : State :=
  match q.pushing with
  | some p => continuePush s home o q p
  | none => (feedAndSettle s home o q).1

/-- The slice has accepted a spill: the tail window is free, or the head window's block has left. -/
def spillAccepted (s : State) (home : Nat) (h : Word) (b : Nat) : State :=
  match queueAt s home h with
  | none => s
  | some (o, q) =>
    let keep := fun (x : Queue) => if x.rel < 16 * (b + 1) then { x with bwBlocks := x.bwBlocks ++ [b] } else x
    if q.spillTail ≠ 0 ∧ b = q.tailBlock then
      tailFree s home o (keep { q with spillTail := 0, tail := [], tailBlock := b + 1 })
    else if q.spillHead != 0 && (match q.head with | some (k, _) => k == b | none => false) then
      (settleQueue s home o (keep { q with spillHead := 0, head := none }) none).1
    else s

/-- The slice has refused a spill: the home keeps the block and sends it again later. -/
def spillRefused (s : State) (home : Nat) (h : Word) (b : Nat) : State :=
  match queueAt s home h with
  | none => s
  | some (o, q) =>
    let q' := if q.spillTail = 1 ∧ b = q.tailBlock then { q with spillTail := 2 }
      else if q.spillHead = 1 then { q with spillHead := 2 } else q
    setObj s home (hiIndex o.hi) { o with body := .queue q' }

/-- spill_retry_fc has passed: refused spills are sent again (R297). Those of a queue that is moving wait for its move to end
(R281). -/
def retrySpill (s : State) (home index : Nat) : State :=
  if movingHere (station s home) index then s else
  match objAt s home index with
  | some o => match o.body with
    | .queue q =>
      if q.spillTail = 2 ∨ q.spillHead = 2 then
        let s0 := passFc s (setting s 0x290301)
        let s1 := if q.spillTail = 2 then sendSpill s0 home o.hi q.tailBlock q.tail else s0
        let s2 := if q.spillHead = 2 then
          match q.head with | some (k, toks) => sendSpill s1 home o.hi k toks | none => s1 else s1
        setObj s2 home index { o with body := .queue { q with
          spillTail := if q.spillTail = 2 then 1 else q.spillTail, spillHead := if q.spillHead = 2 then 1 else q.spillHead } }
      else s
    | _ => s
  | none => s

/-- A queue enters FAULT (R279): its waits and a waiting push end with INTEGRITY, its watches lapse. -/
def queueFault (s : State) (home : Nat) (o : Obj) (q : Queue) (b : Nat) : State :=
  let s1 := bumpFn (bump s 0x280406) (hiFn o.hi) 0x21
  let s2 := endPushing (endQueueWaits s1 home o q .integrity) home o q .integrity
  let (s3, o') := lapseAll s2 home o .integrity
  setObj s3 home (hiIndex o.hi) { o' with body := .queue { q with
    faultAt := some (16 * b), popEddies := [], tollEddies := [], pushing := none, idleDeadline := none, refills := [] } }

/-- A refill segment reaches the home: with the fourth the block waits to enter or enters the head window (R259,
R298). -/
def refillArrives (s : State) (home : Nat) (h : Word) (b : Nat) (fail : Bool) (d : Payload) : State :=
  match queueAt s home h with
  | none => s
  | some (o, q) =>
    match q.refills.find? fun r => r.1 == b with
    | none => s
    | some (_, segs) =>
      if fail then (if q.faultAt.isSome then s else queueFault s home o q b)
      else
        let segs' := segs ++ [d]
        if segs'.length < 4 then
          setObj s home (hiIndex o.hi) { o with body := .queue { q with
            refills := q.refills.map fun r => if r.1 = b then (b, segs') else r } }
        else
          let q1 := { q with refills := q.refills.filter fun r => r.1 != b }
          let useful := q1.bwBlocks.contains b && q1.refilled.isNone && !q1.hasBlock b
          let q2 := if useful then { q1 with refilled := some (b, frameTokens (segs'.flatMap payloadBytes)) } else q1
          (settleQueue (bump s 0x280403) home o q2 none).1

/-- The idle deadline passes (R275): one pop of the oldest eddy with a packet threshold, or idle_due. The fc of the test ends
with it, so that every operation of that fc came before (R276). A queue that is moving waits for its move to end (R281). -/
def idlePasses (s : State) (home index : Nat) : State :=
  if movingHere (station s home) index then s else
  match objAt s home index with
  | some o => match o.body with
    | .queue q => match q.idleDeadline with
      | some d =>
        let t := passDeadline s d
        passFc (settleQueue t home o { q with idleDeadline := none, idleDue := true } none).1 1
      | none => s
    | _ => s
  | none => s

end Sys2Proof.Machine
end

