-- ==== Sys2Proof/Machine/Slices.lean ====
section
/-!
DEFINITION. Ferry slices: their extents, the addresses of backwater blocks, and the queue of transactions that wait for
tags (R284 to R290, R299, R300).
-/

namespace Sys2Proof.Machine

/-- A slice. -/
def sliceAt (s : State) (j : Nat) : Slice := tgetD s.slices j Slice.initial

/-- A slice is replaced. -/
def setSlice (s : State) (j : Nat) (x : Slice) : State := { s with slices := tput s.slices j x }

/-- A slice changes. -/
def onSlice (s : State) (j : Nat) (f : Slice → Slice) : State := setSlice s j (f (sliceAt s j))

/-- The extent of an index at a slice. -/
def extentAt (s : State) (j index : Nat) : Option Extent := tget (sliceAt s j).extents index

/-- The blocks of a function's sub-region (R286). -/
def subBlocks (s : State) (fn : Nat) : Nat := fnSetting s fn 0x24 / max 1 s.gelari.initiators

/-- The address of a block offset in the sub-region of an index (R286, R600: a deputy issues the drained slice's own). -/
def subAddress (s : State) (fn index offset : Nat) : Nat :=
  fnSetting s fn 0x23 + 256 * (index % max 1 s.gelari.initiators * subBlocks s fn + offset)

/-- The first block of the place where a slot lies (R288). -/
def Extent.place (e : Extent) (slot : Nat) : Nat := if e.moving ∧ slot < e.cursor then e.newBase else e.base

/-- The address of a block (R288). -/
def blockAddress (s : State) (index : Nat) (e : Extent) (b : Nat) : Nat :=
  let slot := b % max 1 e.length
  subAddress s e.fn index (e.place slot + slot)

/-- The stack of an address and its bank group within the stack (R290). -/
def bankOf (s : State) (address : Nat) : Nat × Nat :=
  (address / 2 ^ s.gelari.stackShift % max 1 s.gelari.stackCount,
   address / 2 ^ s.gelari.groupShift % max 1 s.gelari.groupsPerStack)

/-- The index whose extent a transaction reads or writes. -/
def Purpose.index : Purpose → Option Nat
  | .refill h _ _ _ => some (Handle.index h)
  | .spill h _ => some (Handle.index h)
  | .moveRead i _ => some i
  | .moveWrite i _ => some i
  | _ => none

/-- The address of a transaction as its extent stands now. -/
def xactAddress (s : State) (j : Nat) (x : Xact) : Nat :=
  match x.purpose.index.bind (extentAt s j) with
  | none => x.address
  | some e =>
    match x.purpose with
    | .refill h b _ _ => blockAddress s (Handle.index h) e b
    | .spill h b => blockAddress s (Handle.index h) e b
    | .moveRead i slot => subAddress s e.fn i (e.base + slot)
    | .moveWrite i slot => subAddress s e.fn i (e.newBase + slot)
    | _ => x.address

/-- A transaction joins the queue of its slice. -/
def queueXact (s : State) (j : Nat) (x : Xact) : State := onSlice s j fun l => { l with waiting := l.waiting ++ [x] }

/-- Whether a transaction writes. -/
def Purpose.writes : Purpose → Bool
  | .refill .. | .moveRead .. => false
  | .keeper _ _ _ w => w
  | _ => true

end Sys2Proof.Machine
end

