-- ==== Sys2Proof/Machine/Confluence.lean ====
section
/-!
DEFINITION. Confluence arithmetic (chapter 06): formats, exact accumulation, the order of the selecting
operations, partials as bytes, final rounding and riffle. Sums of floating-point lanes are exact integers in units
of 2^-149 (R196).
-/

namespace Sys2Proof.Machine

/-! ## Formats (Table 6.2) -/

/-- A floating-point format: lane width, bias, trailing bits, precision, least exponent, largest finite value in
units of 2^-149, whether it has infinity, its canonical NaN and B_f. -/
structure FloatFmt where
  width : Nat
  bias  : Nat
  k     : Nat
  prec  : Nat
  emin  : Int
  top   : Nat
  inf   : Bool
  nan   : Nat
  bf    : Nat
  deriving DecidableEq, Repr

/-- The floating-point format of a code. -/
def floatFmt (code : Nat) : Option FloatFmt :=
  match code with
  | 1 => some ⟨32, 127, 23, 24, -126, (2 ^ 24 - 1) * 2 ^ 253, true, 0x7FC00000, 149⟩
  | 2 => some ⟨16, 127, 7, 8, -126, 255 * 2 ^ 269, true, 0x7FC0, 133⟩
  | 3 => some ⟨16, 15, 10, 11, -14, 65504 * 2 ^ 149, true, 0x7E00, 24⟩
  | 4 => some ⟨8, 7, 3, 4, -6, 448 * 2 ^ 149, false, 0x7F, 9⟩
  | 5 => some ⟨8, 15, 2, 3, -14, 57344 * 2 ^ 149, true, 0x7E, 16⟩
  | _ => none

/-- The lane width in bits of a format code. -/
def laneWidth (code : Nat) : Nat := [512, 32, 16, 16, 8, 8, 32, 64].getD code 512

/-- The lanes of a contribution in a format. -/
def laneCount (code : Nat) : Nat := 512 / laneWidth code

/-- The biased exponent field of an element. -/
def FloatFmt.expOf (f : FloatFmt) (x : Nat) : Nat := x / 2 ^ f.k % 2 ^ (f.width - 1 - f.k)

/-- The trailing significand field of an element. -/
def FloatFmt.manOf (f : FloatFmt) (x : Nat) : Nat := x % 2 ^ f.k

/-- The sign of an element. -/
def FloatFmt.negOf (f : FloatFmt) (x : Nat) : Bool := x / 2 ^ (f.width - 1) % 2 == 1

/-- NaN: in E4M3 exponent 15 with trailing field 7, elsewhere the top exponent with a trailing field (R191). -/
def FloatFmt.isNan (f : FloatFmt) (x : Nat) : Bool :=
  f.expOf x == 2 ^ (f.width - 1 - f.k) - 1 && (if f.inf then f.manOf x != 0 else f.manOf x == 2 ^ f.k - 1)

/-- Infinity; E4M3 has none. -/
def FloatFmt.isInf (f : FloatFmt) (x : Nat) : Bool :=
  f.inf && f.expOf x == 2 ^ (f.width - 1 - f.k) - 1 && f.manOf x == 0

/-- A finite element in units of 2^-149 (R197). -/
def FloatFmt.exact (f : FloatFmt) (x : Nat) : Int :=
  let e := f.expOf x
  let sig := if e = 0 then f.manOf x else f.manOf x + 2 ^ f.k
  let m : Int := (sig * 2 ^ (max e 1 - 1 + 149 - f.bf) : Nat)
  if f.negOf x then -m else m

/-- The signed value of an integer lane. -/
def signedLane (w x : Nat) : Int := if x < 2 ^ (w - 1) then (x : Int) else (x : Int) - 2 ^ w

/-- A signed number as a lane of `w` bits. -/
def toLane (w : Nat) (z : Int) : Nat := (z % 2 ^ w).toNat

/-! ## Lanes and merging -/

/-- A lane that has merged nothing. -/
def Lane.zero : Lane := ⟨0, false, false, false, 0, 0⟩

/-- The order key of a floating-point lane, -0 below +0 (R203). -/
def FloatFmt.key (f : FloatFmt) (x : Nat) : Int :=
  let m : Int := (x % 2 ^ (f.width - 1) : Nat)
  if f.negOf x then -m - 1 else m

/-- The order key of a lane for a selecting operation: NaN wins ARGMAX (8) and ARGMIN (9). -/
def laneKey (op code x : Nat) : Int :=
  match floatFmt code with
  | some f => if f.isNan x then (if op = 9 then -(2 ^ 70) else 2 ^ 70) else f.key x
  | none => signedLane (laneWidth code) x

/-- One element as a lane (R197, R203): `i` is its participant index. -/
def elementLane (op code x i : Nat) : Lane :=
  match op, floatFmt code with
  | 1, some f =>
    if f.isNan x then { Lane.zero with nan := true }
    else if f.isInf x then (if f.negOf x then { Lane.zero with ninf := true } else { Lane.zero with pinf := true })
    else { Lane.zero with sum := f.exact x }
  | 1, none => { Lane.zero with sum := signedLane (laneWidth code) x }
  | 7, some f => { Lane.zero with sum := if x % 2 ^ (f.width - 1) = 0 then 0 else 1 }
  | 7, none => { Lane.zero with sum := if x = 0 then 0 else 1 }
  | 2, some f => { Lane.zero with bits := if f.isNan x then f.nan else x, nan := f.isNan x }
  | 3, some f => { Lane.zero with bits := if f.isNan x then f.nan else x, nan := f.isNan x }
  | _, _ => { Lane.zero with bits := x, index := i }

/-- Whether `b` is selected over `a` (R203). -/
def selects (op code : Nat) (a b : Lane) : Bool :=
  let ka := laneKey op code a.bits
  let kb := laneKey op code b.bits
  match op with
  | 2 => kb < ka
  | 3 => ka < kb
  | 8 => ka < kb || (ka == kb && b.index < a.index)
  | _ => kb < ka || (ka == kb && b.index < a.index)

/-- Two lanes merged (R198, R203). -/
def mergeLane (op code : Nat) (a b : Lane) : Lane :=
  match op with
  | 1 | 7 => ⟨a.sum + b.sum, a.nan || b.nan, a.pinf || b.pinf, a.ninf || b.ninf, 0, 0⟩
  | 4 => { a with bits := a.bits &&& b.bits }
  | 5 => { a with bits := a.bits ||| b.bits }
  | 6 => { a with bits := a.bits ^^^ b.bits }
  | 2 | 3 => if a.nan then a else if b.nan then b else if selects op code a b then b else a
  | _ => if selects op code a b then b else a

/-- Two partials merged: an empty one has merged nothing; non-finite counts add and saturate (R205). -/
def mergePartial (op code : Nat) (a b : Partial) : Partial :=
  if a.lanes.isEmpty then b else if b.lanes.isEmpty then a
  else ⟨a.lanes.zipWith (mergeLane op code) b.lanes, min 0xFFFFFFFF (a.nf + b.nf)⟩

/-- The lanes of 64 bytes, each least significant byte first (R192). -/
def lanesOf (w : Nat) (bytes : List Byte) : List Nat :=
  (List.range (512 / w)).map fun i => ofBytesLE ((bytes.drop (i * (w / 8))).take (w / 8))

/-- A contribution as a partial (R192, R205). -/
def contribution (op code : Nat) (p : Payload) (i : Nat) : Partial :=
  let xs := lanesOf (laneWidth code) (payloadBytes p)
  let nf := match floatFmt code with
    | some f => (xs.filter fun x => f.isNan x || f.isInf x).length
    | none => 0
  ⟨xs.map fun x => elementLane op code x i, nf⟩

/-! ## Partials as bytes (R194, R195, R201) -/

/-- The compact word of a SUM lane: its width in bits and the exponent that its bit 0 drops (Table 6.5). -/
def compactWord (code : Nat) : Nat × Nat :=
  match code with
  | 1 => (320, 0) | 2 => (320, 16) | 3 => (80, 125) | 4 => (64, 140) | 5 => (64, 133) | 6 => (64, 0) | _ => (128, 0)

/-- A SUM lane's compact word. -/
def packSum (code : Nat) (l : Lane) : List Byte :=
  let (w, sh) := compactWord code
  let isF := (floatFmt code).isSome
  let fixed := toLane (if isF then w - 3 else w) (l.sum / 2 ^ sh)
  let flags := if isF then flag l.nan * 2 ^ (w - 1) + flag l.pinf * 2 ^ (w - 2) + flag l.ninf * 2 ^ (w - 3) else 0
  bytesLE (w / 8) (fixed + flags)

/-- The SUM lane of a compact word. -/
def unpackSum (code : Nat) (bytes : List Byte) : Lane :=
  let (w, sh) := compactWord code
  let v := ofBytesLE bytes
  if (floatFmt code).isSome then
    { Lane.zero with
      sum := signedLane (w - 3) (v % 2 ^ (w - 3)) * 2 ^ sh
      nan := v / 2 ^ (w - 1) % 2 == 1, pinf := v / 2 ^ (w - 2) % 2 == 1, ninf := v / 2 ^ (w - 3) % 2 == 1 }
  else { Lane.zero with sum := signedLane w v }

/-- The bytes of a partial (R195). -/
def packPartial (op code : Nat) (p : Partial) : List Byte :=
  let lanes := if p.lanes.isEmpty then List.replicate (laneCount code) Lane.zero else p.lanes
  let w := laneWidth code / 8
  let values := lanes.flatMap fun l => bytesLE w l.bits
  let body := match op with
    | 1 => lanes.flatMap (packSum code)
    | 7 => lanes.flatMap fun l => bytesLE 4 l.sum.toNat
    | 8 | 9 => values ++ lanes.flatMap fun l => bytesLE 4 l.index
    | _ => values
  if (floatFmt code).isSome then body ++ bytesLE 4 p.nf ++ bytesLE 4 0 else body

/-- The pieces of `n` bytes of a list. -/
def pieces (n : Nat) : Nat → List Byte → List (List Byte)
  | 0, _ => []
  | k + 1, l => l.take n :: pieces n k (l.drop n)

/-- The partial of some bytes (R195). -/
def unpackPartial (op code : Nat) (bytes : List Byte) : Partial :=
  let n := laneCount code
  let w := laneWidth code / 8
  let isF := floatFmt code
  let sized := fun k => pieces k n bytes
  let (lanes, used) := match op with
    | 1 => let k := (compactWord code).1 / 8; ((sized k).map (unpackSum code), k * n)
    | 7 => ((sized 4).map fun b => { Lane.zero with sum := (ofBytesLE b : Nat) }, 4 * n)
    | 8 | 9 =>
      (((sized w).zip (pieces 4 n (bytes.drop 64))).map fun b =>
        { Lane.zero with bits := ofBytesLE b.1, index := ofBytesLE b.2 }, 64 + 4 * n)
    | _ =>
      ((sized w).map fun b =>
        let x := ofBytesLE b
        { Lane.zero with bits := x, nan := (op == 2 || op == 3) && (match isF with | some f => f.isNan x | none => false) },
        64)
  ⟨lanes, if isF.isSome then ofBytesLE ((bytes.drop used).take 4) else 0⟩

/-- The 64-byte segments of a partial, the last padded with zeros (R195). -/
def segmentsOf (op code : Nat) (p : Partial) : List Payload :=
  (pieces 64 (segmentCount op code) (packPartial op code p)).map payloadOf

/-- The partial of its segments. -/
def ofSegments (op code : Nat) (segs : List Payload) : Partial := unpackPartial op code (segs.flatMap payloadBytes)

/-! ## Final rounding (R207 to R209) -/

/-- The overflow value of a sign: infinity, or the largest finite of E4M3 (R208). -/
def FloatFmt.overflow (f : FloatFmt) (neg : Bool) : Nat :=
  flag neg * 2 ^ (f.width - 1) + (if f.inf then (2 ^ (f.width - 1 - f.k) - 1) * 2 ^ f.k else 0x7E)

/-- An infinity as a result: the canonical NaN where the format has none (Table 6.6). -/
def FloatFmt.infinity (f : FloatFmt) (neg : Bool) : Nat := if f.inf then f.overflow neg else f.nan

/-- The encoding of `t` quanta of 2^`qe` (R207): `t` is at most 2^P. -/
def FloatFmt.encode (f : FloatFmt) (neg : Bool) (t : Nat) (qe : Int) : Nat :=
  let (t', q') := if t = 2 ^ f.prec then (2 ^ (f.prec - 1), qe + 1) else (t, qe)
  let s := flag neg * 2 ^ (f.width - 1)
  if t' < 2 ^ (f.prec - 1) then s + t'
  else s + (q' + f.prec - 1 + f.bias).toNat * 2 ^ f.k + (t' - 2 ^ (f.prec - 1))

/-- finish_lane of R207 on an exact value in units of 2^-149. -/
def finishLane (n : Int) (f : FloatFmt) (stochastic : Bool) (z : Nat) : Nat :=
  if n = 0 then 0 else
  let neg := decide (n < 0)
  let m := n.natAbs
  let e : Int := (Nat.log2 m : Int) - 149
  let qe : Int := max e f.emin - f.prec + 1
  let sh := (149 + qe).toNat
  let t := m / 2 ^ sh
  let rem := m - t * 2 ^ sh
  let up : Bool :=
    if sh = 0 then false
    else if stochastic then decide (2 ^ 32 ≤ rem * 2 ^ 32 / 2 ^ sh + z)
    else decide (2 ^ (sh - 1) < rem) || (rem == 2 ^ (sh - 1) && t % 2 == 1)
  let t' := if up then t + 1 else t
  if f.top < t' * 2 ^ sh then f.overflow neg else f.encode neg t' qe

/-- A SUM, MIN or MAX lane of a floating-point weir as a result lane (R206 to R208). -/
def floatResult (op : Nat) (fin fout : FloatFmt) (stochastic : Bool) (z : Nat) (l : Lane) : Nat :=
  if op = 1 then
    if l.nan || (l.pinf && l.ninf) then fout.nan
    else if l.pinf then fout.infinity false
    else if l.ninf then fout.infinity true
    else finishLane l.sum fout stochastic z
  else if l.nan then fout.nan
  else if fin.isInf l.bits then fout.infinity (fin.negOf l.bits)
  else if fin.exact l.bits = 0 then flag (fin.negOf l.bits) * 2 ^ (fout.width - 1)
  else finishLane (fin.exact l.bits) fout stochastic z

/-- A lane of every other kind as a result lane of `w` bits, and whether it saturated (R209). -/
def intResult (op w : Nat) (l : Lane) : Nat × Bool :=
  match op with
  | 1 => let (v, sat) := clampInt (-(2 ^ (w - 1))) (2 ^ (w - 1) - 1) l.sum; (toLane w v, sat)
  | 7 => (min l.sum.toNat (2 ^ w - 1), false)
  | 8 | 9 => (l.index, false)
  | _ => (l.bits, false)

/-! ## Riffle (R210, R211) -/

/-- A 32-bit word rotated left. -/
def rotl32 (x n : Nat) : Nat := (x * 2 ^ n + x / 2 ^ (32 - n)) % 2 ^ 32

/-- The four rounds of riffle. -/
def riffleRounds (k0 k1 : Nat) : List Nat → Nat → Nat × Nat → Nat × Nat
  | [], _, lr => lr
  | rot :: rots, i, (l, r) =>
    let key := ((if i % 2 = 0 then k1 else k0) + i * 0x9E3779B9) % 2 ^ 32
    let t := rotl32 ((r + key) % 2 ^ 32) rot
    riffleRounds k0 k1 rots (i + 1) (r, l ^^^ t)

/-- riffle(seed, index, epoch, lane). -/
def riffle (seed index epoch lane : Nat) : Nat :=
  let (l, r) := riffleRounds (seed / 2 ^ 32 % 2 ^ 32) (seed % 2 ^ 32) [5, 11, 17, 23] 0
    (epoch % 2 ^ 32, index % 2 ^ 14 * 64 + lane % 64)
  l * 2 ^ 32 + r

/-- The rounded result of a bank and its count: non-finite elements, or saturated lanes of an integer SUM (R205,
R207 to R211). -/
def finishPartial (p : WeirParams) (acc : Partial) (seed index epoch : Nat) : Payload × Nat :=
  if p.redOp = 0 then (0, 0) else
  match floatFmt p.inFormat, floatFmt p.outFormat with
  | some fin, some fout =>
    if p.redOp ≤ 3 then
      let xs := acc.lanes.mapIdx fun i l =>
        floatResult p.redOp fin fout p.stochastic (riffle seed index epoch i % 2 ^ 32) l
      (payloadOf (xs.flatMap (bytesLE (fout.width / 8))), acc.nf)
    else
      let w := fin.width
      (payloadOf ((acc.lanes.map fun l => (intResult p.redOp w l).1).flatMap (bytesLE (w / 8))), acc.nf)
  | _, _ =>
    let w := laneWidth p.inFormat
    let xs := acc.lanes.map (intResult p.redOp w)
    (payloadOf ((xs.map (·.1)).flatMap (bytesLE (w / 8))),
      if p.redOp = 1 then (xs.filter (·.2)).length else 0)

/-- Whether a creation's reduction is permitted (R193), of `n` participants. -/
def redOk (p : WeirParams) (n : Nat) : Bool :=
  let fi := floatFmt p.inFormat
  let fo := floatFmt p.outFormat
  if p.redOp = 0 then p.inFormat == 0 && p.outFormat == 0 && !p.stochastic
  else if 9 < p.redOp || p.inFormat == 0 then false
  else
    let combo := if 1 ≤ p.redOp ∧ p.redOp ≤ 3 ∧ fi.isSome then
        fo.isSome && laneWidth p.outFormat ≤ laneWidth p.inFormat
      else p.outFormat == p.inFormat
    let bitwise := !(4 ≤ p.redOp && p.redOp ≤ 6 && fi.isSome)
    let stoch := !p.stochastic || (p.redOp ≤ 3 && fo.isSome)
    let arg := !(8 ≤ p.redOp) ||
      ((laneWidth p.inFormat != 8 || n ≤ 256) && (p.scope != 5 || 32 ≤ laneWidth p.inFormat))
    combo && bitwise && stoch && arg

end Sys2Proof.Machine
end

