-- ==== Sys2Proof/Machine/Keeper.lean ====
section
/-!
DEFINITION. The scale keeper's own state (chapter 11): the decision of a step, policies, views and the checkpoint
image. Weirs call `decideBlock`; the operations of a keeper stand in `Machine/KeeperHome.lean`.
-/

namespace Sys2Proof.Machine

/-! ## Deciding a step (R361) -/

/-- What a group's decision reports besides its record. -/
structure Verdict where
  group    : Group
  backoff  : Bool
  alarm    : Bool
  silent   : Bool
  deriving DecidableEq, Repr

/-- A decision code is written into the history (R361). -/
def Group.record (g : Group) (code : Nat) : Group :=
  let k := 2 * g.histHead
  { g with
    history := BitVec.ofNat 256 (g.history.toNat - bits g.history (k + 1) k * 2 ^ k + code * 2 ^ k)
    histHead := (g.histHead + 1) % 128 }

/-- The growth part of an unskipped, finite step: group and code. -/
def Group.grow (g : Group) : Group × Nat :=
  let iv := if g.anchored then g.interval else 64
  let g1 := { g with cleanRun := g.cleanRun + 1 }
  if iv ≤ g1.cleanRun then
    let g2 := { g1 with s := min 40 (g1.s + 1), cleanRun := 0 }
    if g2.anchored then (g2, 1)
    else if g2.anchorIntervals + 1 = 4 then ({ g2 with anchored := true, anchorIntervals := 0 }, 1)
    else ({ g2 with anchorIntervals := g2.anchorIntervals + 1 }, 1)
  else (g1, 0)

/-- The underflow part of an unskipped, finite step: group, code, and whether the alarm fires. -/
def Group.underflow (g : Group) (code : Nat) : Group × Nat × Bool :=
  let t := g.flushed + g.nonzero
  let uf := if 0 < t ∧ t ≤ g.flushed * 2 ^ g.ufShift then g.ufCount + 1 else 0
  if g.ufRun ≤ uf then
    if g.autoRaise ∧ code = 0 then ({ g with s := min 40 (g.s + 1), cleanRun := 0, ufCount := 0 }, 3, true)
    else ({ g with ufCount := 0 }, code, true)
  else ({ g with ufCount := uf }, code, false)

/-- The silent count of a step (R361, R365). -/
def Group.quiet (g : Group) : Group × Bool :=
  if g.nonzero = 0 then
    if g.silentRun ≤ g.silentCount + 1 then ({ g with silentCount := 0 }, true)
    else ({ g with silentCount := g.silentCount + 1 }, false)
  else ({ g with silentCount := 0 }, false)

/-- The decision of one group. -/
def decideGroup (skip : Bool) (g : Group) : Verdict :=
  let bo : Nat := if g.anchored then g.backoff else 4
  let (g1, code, backoff, alarm) :=
    if 0 < g.nonfinite then
      ({ g with s := max (-16) (g.s - bo), cleanRun := 0, anchorIntervals := if g.anchored then g.anchorIntervals else 0 },
        2, !g.anchored, false)
    else if skip then (g, 0, false, false)
    else
      let (a, c) := g.grow
      let (b, d, al) := a.underflow c
      (b, d, false, al)
  let (g2, silent) := g1.quiet
  ⟨g2.record code, backoff, alarm, silent⟩

/-- An event that a keeper raises (Table 11.8): kind, group, s, count_a and count_b. -/
structure KeeperEvent where
  kind   : Nat
  group  : Nat
  s      : Int
  countA : Nat
  countB : Nat
  deriving DecidableEq, Repr

/-- The events of a group's verdict: the underflow alarm, then the notice. -/
def Verdict.events (v : Verdict) (i : Nat) : List KeeperEvent :=
  (if v.alarm && v.group.ufEvent then [⟨1, i, v.group.s, v.group.flushed, v.group.nonzero⟩] else []) ++
  (if v.silent then [⟨2, i, v.group.s, v.group.flushed, v.group.silentRun⟩] else [])

/-- The decision of a step for every group (R361): the keeper, its events, and how many alarms fired. -/
def decideStep (k : Keeper) : Keeper × List KeeperEvent × Nat :=
  let skip := k.groups.any fun g => decide (0 < g.nonfinite)
  let vs := k.groups.map (decideGroup skip)
  let backoffs := min 0xFFFF (k.episodeBackoffs + (vs.filter (·.backoff)).length)
  let k1 := { k with groups := vs.map (·.group), steps := k.steps + 1, lastSkipped := skip, episodeBackoffs := backoffs }
  let evs := (vs.mapIdx fun i v => v.events i).flatten
  if k1.episode && k1.groups.all (·.anchored) then
    ({ k1 with episode := false }, evs ++ [⟨3, 0, 0, k1.episodeBackoffs, k1.episodeStart.toNat⟩],
      (vs.filter (·.alarm)).length)
  else (k1, evs, (vs.filter (·.alarm)).length)

/-- The sums of block `j` enter the *_last fields of its groups (R361). -/
def Keeper.latch (k : Keeper) (j : Nat) (sums : List Nat) : Keeper :=
  { k with groups := k.groups.mapIdx fun i g =>
      if i / 4 = j then
        let c := fun n => sums.getD (4 * (i % 4) + n) 0
        { g with nonfinite := c 0, flushed := c 1, nonzero := c 2, stalled := c 3 }
      else g }

/-- B, the blocks of a keeper (R352). -/
def Keeper.blocks (k : Keeper) : Nat := (k.groups.length + 3) / 4

/-- The record of a keeper event (Table 11.8). -/
def keeperRecord (handle : Word) (steps : Word) (e : KeeperEvent) : BitVec 256 :=
  BitVec.ofNat 256 (handle.toNat * 2 ^ 192 + steps.toNat * 2 ^ 128 + field 8 120 e.kind
    + (if e.kind ≤ 2 then field 8 112 e.group + field 8 104 (toSignedByte e.s) else 0)
    + field 32 72 e.countA + field 32 40 e.countB + field 12 28 (Handle.fn handle))

/-- A keeper event is raised: sk_underflow, sk_silent or sk_anchored (Table 11.8), the notices counted. -/
def raiseKeeper (s : State) (hi : BitVec 40) (steps : Word) (e : KeeperEvent) : State :=
  let code := match e.kind with | 1 => 0x40 | 2 => 0x41 | _ => 0x42
  let t := if e.kind = 2 then bumpFn (bump s 0x2B0304) (hiFn hi) 0x2B else s
  raise t code (keeperRecord (issue s hi 0) steps e)

/-- A completed block of a keeper: its sums, and at the last block the decision (R361). -/
def decideBlock (s : State) (hi : BitVec 40) (k : Keeper) (j : Nat) (sums : List Nat) : State × Keeper :=
  let k1 := k.latch j sums
  if j + 1 = k1.blocks then
    let (k2, evs, alarms) := decideStep k1
    let s1 := bumpBy (bump s 0x2B0301) 0x2B0303 alarms
    let s2 := bumpFnBy s1 (hiFn hi) 0x2C alarms
    let s3 := if k2.lastSkipped then bumpFn (bump s2 0x2B0302) (hiFn hi) 0x2A else s2
    (evs.foldl (fun t e => raiseKeeper t hi k2.steps e) s3, k2)
  else (s, k1)

/-! ## Start (R366) -/

/-- A group's restart state (R366). -/
def Group.restart (g : Group) : Group :=
  { g with anchored := false, anchorIntervals := 0, s := g.restartExp, cleanRun := 0, ufCount := 0, silentCount := 0,
           history := 0, histHead := 0 }

/-- Every group restarts and an episode opens. -/
def Keeper.restart (k : Keeper) : Keeper :=
  { k with groups := k.groups.map Group.restart, episode := true, episodeBackoffs := 0,
           episodeStart := k.steps.setWidth 32 }

/-! ## Policies (R370, Table 11.6) -/

/-- A policy value. -/
structure Policy where
  count      : Nat
  first      : Nat
  s0Set      : Bool
  restartSet : Bool
  autoRaise  : Bool
  ufEvent    : Bool
  silentRun  : Nat
  ufRun      : Nat
  ufShift    : Nat
  backoff    : Nat
  interval   : Nat
  restartExp : Int
  s0         : Int
  deriving DecidableEq, Repr

/-- The fields of a policy payload. -/
def policyOf (p : Payload) : Policy :=
  let v : BitVec 128 := BitVec.ofNat 128 (payloadNat p 0 16)
  { count := bits v 110 102, first := bits v 101 94, s0Set := bit v 93, restartSet := bit v 92,
    autoRaise := bit v 91, ufEvent := bit v 90, silentRun := bits v 89 79, ufRun := bits v 78 63,
    ufShift := bits v 62 58, backoff := bits v 57 54, interval := bits v 53 38,
    restartExp := signedByte (bits v 37 30), s0 := signedByte (bits v 29 22) }

/-- An exponent within its range. -/
def expOk (z : Int) : Bool := -16 ≤ z && z ≤ 40

/-- Whether a policy payload's fields are within their ranges and its reserved bits zero (Table 11.6). -/
def policyOk (p : Payload) : Bool :=
  let v : BitVec 128 := BitVec.ofNat 128 (payloadNat p 0 16)
  let q := policyOf p
  bits v 127 111 == 0 && bits v 21 0 == 0 && payloadNat p 16 48 == 0 &&
  q.silentRun ≤ 1024 && q.ufShift ≤ 20 && expOk q.restartExp && expOk q.s0

/-- A policy with the dictionary defaults in its zero fields. -/
def Policy.resolve (s : State) (q : Policy) : Policy :=
  let d := fun v k => if v = 0 then setting s k else v
  { q with silentRun := d q.silentRun 0x2B0207, ufRun := d q.ufRun 0x2B0206, ufShift := d q.ufShift 0x2B0205,
           backoff := d q.backoff 0x2B0204, interval := d q.interval 0x2B0203 }

/-- A policy in force at a group; the exponents where they are given (R370). -/
def Group.apply (g : Group) (q : Policy) : Group :=
  let g1 := { g with
    silentRun := q.silentRun, ufRun := q.ufRun, ufShift := q.ufShift, backoff := q.backoff, interval := q.interval,
    autoRaise := q.autoRaise, ufEvent := q.ufEvent, restartExp := if q.restartSet then q.restartExp else g.restartExp }
  if q.s0Set then { g1 with s := q.s0, cleanRun := 0, ufCount := 0 } else g1

/-- A group of a new keeper: s0 and restart_exp, or the dictionary defaults (R366, R370). -/
def Group.fresh (s : State) (q : Policy) : Group where
  history := 0
  nonfinite := 0
  flushed := 0
  nonzero := 0
  stalled := 0
  s := if q.s0Set then q.s0 else signedByte (setting s 0x2B0201)
  cleanRun := 0
  ufCount := 0
  silentCount := 0
  histHead := 0
  anchored := true
  anchorIntervals := 0
  interval := q.interval
  backoff := q.backoff
  ufShift := q.ufShift
  ufRun := q.ufRun
  silentRun := q.silentRun
  restartExp := if q.restartSet then q.restartExp else signedByte (setting s 0x2B0202)
  autoRaise := q.autoRaise
  ufEvent := q.ufEvent

/-! ## Views (R369) -/

/-- View 1 of a group. -/
def Group.view (g : Group) : Payload :=
  payloadOf (bytesLE 32 g.history.toNat ++ bytesLE 4 g.nonfinite ++ bytesLE 4 g.flushed ++ bytesLE 4 g.nonzero
    ++ bytesLE 4 g.stalled ++ bytesLE 2 g.cleanRun ++ bytesLE 2 g.ufCount ++ bytesLE 2 g.silentCount
    ++ bytesLE 1 (toSignedByte g.s) ++ bytesLE 1 g.histHead ++ bytesLE 1 (flag g.anchored + 2 * g.anchorIntervals))

/-- View 2 of a group: its policy. DEDUCED (log entry 30): a group holds no s0 of its own, so s0 reads as s. -/
def Group.policyView (g : Group) : Payload :=
  payloadOf (bytesLE 16 (2 ^ 93 + 2 ^ 92 + flag g.autoRaise * 2 ^ 91 + flag g.ufEvent * 2 ^ 90 + g.silentRun * 2 ^ 79
    + g.ufRun * 2 ^ 63 + g.ufShift * 2 ^ 58 + g.backoff * 2 ^ 54 + g.interval * 2 ^ 38
    + toSignedByte g.restartExp * 2 ^ 30 + toSignedByte g.s * 2 ^ 22))

/-- The 64 bytes of a view and selector; none where they are out of range (Table 11.7). -/
def Keeper.view (k : Keeper) (view sel : Nat) : Option Payload :=
  match view with
  | 0 => if 64 * sel < k.groups.length then
      some (payloadOf ((((k.groups.drop (64 * sel)).take 64)).map fun g => BitVec.ofNat 8 (toSignedByte g.s))) else none
  | 1 => (k.groups[sel]?).map Group.view
  | 2 => (k.groups[sel]?).map Group.policyView
  | _ => none

/-! ## The image (R371) -/

/-- A group record as 512 bits (Table 11.3). -/
def Group.image (g : Group) : Payload :=
  BitVec.ofNat 512 (g.history.toNat * 2 ^ 256 + field 32 224 g.nonfinite + field 32 192 g.flushed
    + field 32 160 g.nonzero + field 32 128 g.stalled + field 8 120 (toSignedByte g.s) + field 16 104 g.cleanRun
    + field 16 88 g.ufCount + field 11 77 g.silentCount + field 7 70 g.histHead + field 1 69 (flag g.anchored)
    + field 2 67 g.anchorIntervals + field 16 51 g.interval + field 4 47 g.backoff + field 5 42 g.ufShift
    + field 16 26 g.ufRun + field 11 15 g.silentRun + field 8 7 (toSignedByte g.restartExp)
    + field 1 6 (flag g.autoRaise) + field 1 5 (flag g.ufEvent))

/-- The group record of 512 bits. -/
def groupOf (v : Payload) : Group where
  history := BitVec.ofNat 256 (bits v 511 256)
  nonfinite := bits v 255 224
  flushed := bits v 223 192
  nonzero := bits v 191 160
  stalled := bits v 159 128
  s := signedByte (bits v 127 120)
  cleanRun := bits v 119 104
  ufCount := bits v 103 88
  silentCount := bits v 87 77
  histHead := bits v 76 70
  anchored := bit v 69
  anchorIntervals := bits v 68 67
  interval := bits v 66 51
  backoff := bits v 50 47
  ufShift := bits v 46 42
  ufRun := bits v 41 26
  silentRun := bits v 25 15
  restartExp := signedByte (bits v 14 7)
  autoRaise := bit v 6
  ufEvent := bit v 5

/-- Whether a group record of an image is within the ranges of Table 11.3, its reserved field zero. -/
def groupOk (v : Payload) : Bool :=
  let g := groupOf v
  bits v 4 0 == 0 && expOk g.s && expOk g.restartExp && 1 ≤ g.interval && 1 ≤ g.backoff &&
  1 ≤ g.ufShift && g.ufShift ≤ 20 && 1 ≤ g.ufRun && 1 ≤ g.silentRun && g.silentRun ≤ 1024

/-- The checksum of an image: bytes 0 to 3 taken as zero. -/
def imageSum (image : List Byte) : Nat := crc32c ([0, 0, 0, 0] ++ image.drop 4)

/-- The image of a keeper. -/
def Keeper.image (k : Keeper) (seedLow : Nat) : List Byte :=
  let body := [0x01] ++ bytesLE 2 k.groups.length ++ [0] ++ bytesLE 8 k.steps.toNat ++ bytesLE 4 seedLow
    ++ List.replicate 44 0 ++ k.groups.flatMap fun g => payloadBytes g.image
  bytesLE 4 (imageSum ([0, 0, 0, 0] ++ body)) ++ body

/-- The keeper that an image of 64 + 64·G bytes gives; none where R372 makes the import fail. -/
def Keeper.load (k : Keeper) (image : List Byte) (sumWord : Nat) : Option Keeper :=
  let at_ := fun i n => ofBytesLE ((image.drop i).take n)
  let recs := (List.range k.groups.length).map fun g => payloadOf ((image.drop (64 + 64 * g)).take 64)
  let sum := imageSum image
  if at_ 4 1 = 1 ∧ at_ 5 2 = k.groups.length ∧ at_ 0 4 = sum ∧ sumWord = sum ∧ at_ 7 1 = 0 ∧ at_ 20 44 = 0
      ∧ recs.all groupOk then
    some { k with steps := BitVec.ofNat 64 (at_ 8 8), groups := recs.map groupOf }
  else none

end Sys2Proof.Machine
end

