-- ==== Sys2Proof/Machine/Weirs.lean ====
section
/-!
DEFINITION. Weirs (chapter 05, with R431 to R437 of chapter 13): participants, the combining tree, nodes and their
banks, arrivals, completion, waits and listeners, and the weir's state at its home.
-/

namespace Sys2Proof.Machine

/-! ## Participants (R159, R160) -/

/-- The engine kinds of a mask, in rank order. -/
def maskKinds (m : BitVec 4) : List Nat := (List.range 4).filter fun k => bit m k

/-- Every participant, in participant order. -/
def Participants.agents : Participants → List Nat
  | .range first count mask => (List.range count).flatMap fun i => (maskKinds mask).map fun k => 4 * (first + i) + k
  | .list l => l

/-- How many participants there are. -/
def Participants.count : Participants → Nat
  | .range _ count mask => count * (maskKinds mask).length
  | .list l => l.length

/-- The participant index of an agent (R159). -/
def Participants.indexOf (p : Participants) (agent : Nat) : Option Nat :=
  match p with
  | .range first count mask =>
    let c := agentCore agent
    if agentAux agent || c < first || first + count ≤ c then none
    else ((maskKinds mask).findIdx? (· == agentKind agent)).map fun r => (c - first) * (maskKinds mask).length + r
  | .list l => l.findIdx? (· == agent)

/-- The entry stations of the participants, each once. -/
def memberStations (s : State) (p : Participants) : List Nat :=
  let slots := match p with
    | .range first count _ => (List.range count).map fun i => 4 * (first + i)
    | .list l => l
  (slots.map (entryOf s)).foldl (fun l n => if l.contains n then l else l ++ [n]) []

/-- The members of a weir: its home and the entry stations of its participants (R162). -/
def membersOf (s : State) (p : Participants) (home : Nat) : List Nat :=
  let l := memberStations s p
  if l.contains home then l else home :: l

/-- The participants whose entry station is this one. -/
def localCount (s : State) (p : Participants) (n : Nat) : Nat :=
  match p with
  | .range first count mask =>
    ((List.range count).filter fun i => entryOf s (4 * (first + i)) == n).length * (maskKinds mask).length
  | .list l => (l.filter fun a => entryOf s a == n).length

/-- The first member on the route from a station toward the home (R162). -/
def firstMember (g : Gelari) (members : List Nat) (home : Nat) : Nat → Nat → Nat
  | 0, _ => home
  | fuel + 1, n =>
    let m := nextHop g n home
    if m = home ∨ members.contains m then m else firstMember g members home fuel m

/-- The parent of a member (R162); 127 at the home. -/
def parentOf (s : State) (p : Participants) (home n : Nat) : Nat :=
  if n = home then 127 else firstMember s.gelari (membersOf s p home) home 20 n

/-- The children of a member. -/
def childrenOf (s : State) (p : Participants) (home n : Nat) : List Nat :=
  (membersOf s p home).filter fun m => m != home && parentOf s p home m == n

/-- The agents of a list-form payload (R160). -/
def listAgents (p : Payload) (n : Nat) : List Nat := (List.range n).map fun i => payloadNat p (2 * i) 2

/-- The parameters of a creation (Table 5.2). -/
def weirParams (a b : Word) (data : Option Payload) : WeirParams where
  parts := if bit a 63 then .list (listAgents (data.getD 0) (bits a 37 32))
    else .range (bits a 10 0) (bits a 22 11) (BitVec.ofNat 4 (bits a 26 23))
  scope := bits b 2 0
  publish := none
  redOp := bits b 7 4
  inFormat := bits b 10 8
  outFormat := bits b 13 11
  stochastic := bit b 14
  remote := bits b 19 15
  keeper := none

/-- Whether a list entry is a well-formed agent (R160, Table 3.2). -/
def agentOk (v : Nat) : Bool := v < 0x4000 && (!agentAux v || v % 8192 < 64)

/-- The PRIVILEGE conditions of R161 on the fields and the payload. -/
def weirFieldsOk (a b : Word) (data : Option Payload) : Bool :=
  let n := bits a 37 32
  bits b 19 15 ≤ 16 &&
  if bit a 63 then
    1 ≤ n && n ≤ 32 && bits a 26 0 == 0 &&
    match data with
    | none => false
    | some p =>
      let l := listAgents p n
      l.all agentOk && decide (l.Nodup) && ((List.range 32).drop n).all fun i => payloadNat p (2 * i) 2 == 0xFFFF
  else
    n == 0 && bits a 26 23 != 0 && 1 ≤ bits a 22 11 && bits a 22 11 ≤ 2048 &&
    bits a 10 0 + bits a 22 11 ≤ 2048 && data.isNone

/-- The PRIVILEGE conditions of R161 on the participants and the reduction. An auxiliary agent that is absent is
refused like an absent core (DEDUCED, log entry 32). -/
def weirPartsOk (s : State) (fn : Nat) (p : WeirParams) : Bool :=
  let l := p.parts.agents
  l.all (fun a => entryOf s a < 66 && (agentAux a || corePartition s (agentCore a) == fnPartition s fn)) &&
  redOk p p.parts.count

/-- The SCOPE conditions of R161. -/
def weirScopeOk (s : State) (fn : Nat) (p : WeirParams) : Bool :=
  let l := p.parts.agents
  1 ≤ p.scope && p.scope ≤ 5 && (p.remote == 0 || p.scope == 5) &&
  l.all fun a => sameUnit s fn p.scope a (l.headD 0)

/-- Whether a creation is refused for its fields, and with which status (R161). R161 gives no order among its lists: where
conditions of several hold the model tests QUOTA first, as Table 2.4 does (`ledgerOpen`), then PRIVILEGE, then SCOPE
(DESIGN CHOICE, log entry 63). -/
def weirRefusal (s : State) (fn : Nat) (a b : Word) (data : Option Payload) : Option Status :=
  let p := weirParams a b data
  if !weirFieldsOk a b data || !weirPartsOk s fn p then some .privilege
  else if !weirScopeOk s fn p then some .scope
  else none

/-- The cost of a weir's home: the distance of every participant's site (R341). -/
def weirCost (s : State) (p : Participants) (n : Nat) : Nat :=
  (p.agents.map fun a => distanceOf s (siteOf s (agentSlot a)) n).sum

/-! ## Nodes and banks -/

/-- A node of a station. -/
def nodeAt (s : State) (n index : Nat) : Option Node := tget (station s n).nodes index

/-- Where a station keeps the listener node of a handle whose index holds a node of another generation (R173). -/
def strayKey (hi : BitVec 40) : Nat := 2 ^ 14 + hi.toNat

/-- The node of a handle at a station. -/
def nodeFor (s : State) (n : Nat) (h : Word) : Option Node :=
  match nodeAt s n (Handle.index h) with
  | some x => if x.hi = Handle.hi h then some x else nodeAt s n (strayKey (Handle.hi h))
  | none => nodeAt s n (strayKey (Handle.hi h))

/-- An empty bank. -/
def Bank.empty : Bank := ⟨0, 0, false, [], ⟨[], 0⟩, ⟨[], 0⟩⟩

/-- What a slot's bank holds (R213, R215): what it has sent up and what it has merged since. -/
def Bank.slotSum (p : WeirParams) (b : Bank) : Partial := mergePartial p.redOp p.inFormat b.kept b.acc

/-- A bank whose partial has gone up: the slot keeps it, and what is merged later goes up by itself. -/
def Bank.passed (p : WeirParams) (b : Bank) : Bank := { b with acc := Bank.empty.acc, kept := b.slotSum p }

/-- The bank of a parity: `true` is the odd epoch. -/
def Node.bank (x : Node) (odd : Bool) : Bank := if odd then x.bank1 else x.bank0

/-- A bank is replaced. -/
def Node.setBank (x : Node) (odd : Bool) (b : Bank) : Node := if odd then { x with bank1 := b } else { x with bank0 := b }

/-- The parity of an epoch. -/
def odd32 (e : BitVec 32) : Bool := bit e 0

/-- Whether every report of a bank is in (R168): at the home the remote arrivals too. -/
def Node.full (x : Node) (odd : Bool) : Bool :=
  let b := x.bank odd
  b.arrived.length == x.local_ && b.kids == x.children &&
  (x.role != 2 || b.rem == x.params.remote && x.due.all fun d => d.2 != odd)

/-- The hint_missing that acts on a node's open bank (R189). -/
def Node.missing (s : State) (x : Node) : Nat := match x.hintKept with | some k => k.1 | none => setting s 0x250201

/-- Whether a node's open bank is in the condition of R187: it lacks at most hint_missing local arrivals and is not full. The
bank of a BROKEN or LOST weir never is, since nothing can fill it (DESIGN CHOICE, log entry 64). -/
def Node.nearlyFull (s : State) (x : Node) : Bool :=
  let odd := odd32 x.open_
  x.role != 0 && !x.broken && x.local_ ≤ (x.bank odd).arrived.length + x.missing s && !x.full odd

/-- The overdue time of a node's weir in fc (R175, R189). -/
def Node.overdue (s : State) (x : Node) : Nat :=
  if x.overdueFc ≠ 0 then x.overdueFc else match x.hintKept with | some k => k.2.1 | none => setting s 0x250202

/-- The hint_max_fc that acts on a node's open bank (R189). -/
def Node.longest (s : State) (x : Node) : Nat := match x.hintKept with | some k => k.2.2 | none => setting s 0x250203

/-- Whether a node's open bank has been nearly full for its overdue time. -/
def Node.overdueNow (s : State) (x : Node) : Bool :=
  match x.hintSince with
  | some t => t + x.overdue s ≤ s.clock.fc
  | none => false

/-- Whether a node asks for the throttle-hint output (R187). -/
def Node.late (s : State) (x : Node) : Bool := x.hintEnable && setting s 0x250200 == 1 && x.overdueNow s

/-- The throttle-hint output falls when no node of the station is late (R187). -/
def hintDrop (s : State) (n : Nat) : State :=
  let st := station s n
  if st.hint.level && !(st.nodes.any fun p => p.2.late s) then
    setStation s n { st with hint := { st.hint with level := false } }
  else s

/-- How long a node's open bank has been nearly full, brought up to date. -/
def Node.timed (s : State) (x : Node) : Node :=
  if x.nearlyFull s then
    { x with hintSince := match x.hintSince with | some t => some t | none => some s.clock.fc }
  else { x with hintSince := none, hintKept := none }

/-- A station's nodes with the place at an index free for a weir: a node there of another generation gives way. -/
def makeRoom (nodes : Table Node) (index : Nat) (hi : BitVec 40) : Table Node :=
  match tget nodes index with
  | some x => if x.hi = hi then nodes else tput (tdel nodes (strayKey hi)) (strayKey x.hi) x
  | none => tdel nodes (strayKey hi)

/-- A node is put back: how long it has been nearly full is kept (R187). -/
def putNode (s : State) (n index : Nat) (x : Node) : State :=
  hintDrop (onStation s n fun st => { st with nodes := tput (makeRoom st.nodes index x.hi) index (x.timed s) }) n

/-- A node is freed. -/
def dropNode (s : State) (n index : Nat) : State :=
  hintDrop (onStation s n fun st => { st with nodes := tdel st.nodes index }) n

/-- A node of a handle is freed, wherever the station keeps it. -/
def dropNodeOf (s : State) (n : Nat) (x : Node) : State :=
  if (nodeAt s n (hiIndex x.hi)).any fun y => y.hi == x.hi then dropNode s n (hiIndex x.hi)
  else dropNode s n (strayKey x.hi)

/-- A write to an entry of the throttle hint (Table 5.10): banks that are overdue keep the values that made them so, and
every node is looked at again. -/
def hintWrites (s : State) (k v : Nat) : State :=
  let keep := fun (x : Node) =>
    if x.overdueNow s && x.hintKept.isNone then
      { x with hintKept := some (x.missing s, setting s 0x250202, setting s 0x250203) }
    else x
  let t := setSetting s k v
  t.stations.foldl (fun u p => hintDrop (onStation u p.1 fun st =>
    { st with nodes := st.nodes.map fun q => (q.1, (keep q.2).timed t) }) p.1) t

/-- Whether a node is of the weir of a keeper. -/
def Node.ofKeeper (x : Node) (hi : BitVec 40) : Bool := x.params.keeper.any fun k => k.1 == hi

/-- A node of a station with its parameters, at epoch 0. -/
def newNode (s : State) (hi : BitVec 40) (p : WeirParams) (home n : Nat) (epoch : BitVec 32) : Node where
  hi := hi
  home := home
  params := p
  open_ := epoch
  role := if n = home then 2 else 1
  broken := false
  lost := false
  parent := parentOf s p.parts home n
  children := (childrenOf s p.parts home n).length
  local_ := localCount s p.parts n
  bank0 := Bank.empty
  bank1 := Bank.empty
  segments := []
  hintEnable := false
  overdueFc := 0
  hintSince := none
  hintKept := none
  due := []
  pendingReply := false
  failed := false
  keeperLost := false
  lastResult := 0
  lastArrival := []

/-- Whether a function may take a node's records and slot at a station (R164, R214). -/
def nodeQuota (s : State) (fn : Nat) (x : Node) (n extra : Nat) : Bool :=
  recordsFree s n fn (x.records + extra) && (!x.slot || slotFree s n fn)

/-- A node setup that is refused for want of a slot, or of overflow records alone, is counted (Table 6.9). -/
def countSlotRefusal (s : State) (n fn : Nat) (x : Node) (extra : Nat) : State :=
  let spare := 4 * (segmentCount x.params.redOp x.params.inFormat - 1)
  let k := x.records + extra
  if (x.slot && !slotFree s n fn) || (!recordsFree s n fn k && recordsFree s n fn (k - spare)) then bump s 0x260102 else s

/-- A setup reaches a station (R163, R182): a member takes its node and answers; at a moved home's setup a member
recomputes its place in the tree. -/
def takeSetup (s : State) (n src : Nat) (h : Word) (p : WeirParams) (home : Nat) (moving : Bool) : State :=
  let i := Handle.index h
  if moving then
    match nodeFor s n h with
    | some x =>
      if n = home then s
      else if x.role = 0 then putNode s n i { x with home := home }
      else putNode s n i { x with
        home := home, role := 1, parent := parentOf s p.parts home n
        children := (childrenOf s p.parts home n).length, local_ := localCount s p.parts n }
    | none => s
  else if (membersOf s p.parts home).contains n && n != home then
    let x := newNode s (Handle.hi h) p home n 0
    if nodeQuota s (Handle.fn h) x n 0 then send (putNode s n i x) n src (.setupAck h false)
    else send (countSlotRefusal s n (Handle.fn h) x 0) n src (.setupAck h true)
  else s

/-! ## Waits of a node -/

/-- The index and epoch of a wait on a weir. -/
def Waiter.onWeir (w : Waiter) (index : Nat) (hi : BitVec 40) : Bool :=
  Handle.hi w.handle == hi && match w.place with
    | .weir i _ => i == index
    | .listener i _ => i == index
    | _ => false

/-- The waits of a weir at a station, oldest first, pending listener waits among them. -/
def weirWaits (s : State) (n index : Nat) (hi : BitVec 40) : List Waiter :=
  (station s n).waiters.filter fun w => w.onWeir index hi && w.phase != .ended

/-- The waits linked to a bank. -/
def bankWaits (s : State) (n index : Nat) (hi : BitVec 40) (odd : Bool) : List Waiter :=
  (weirWaits s n index hi).filter fun w => match w.place with
    | .weir _ e => odd32 e == odd
    | _ => false

/-- The first eight bytes of a result. -/
def result8 (p : WeirParams) (r : Payload) : Word := if p.redOp = 0 then 0 else BitVec.ofNat 64 (payloadNat r 0 8)

/-- How a wait on a completed epoch ends (Table 5.6 and the text under it): a wake carries the result's first bytes
where the weir reduces. -/
def weirEnd (p : WeirParams) (hold : Bool) (latest : BitVec 32) (r : Payload) : EndInfo :=
  let e := BitVec.ofNat 64 latest.toNat
  ⟨.ok, if hold || p.redOp == 0 then e else result8 p r, result8 p r, none, none⟩

/-- Some waits of a station end, oldest first. A wait that has not been registered yet is refused on its own
transaction. -/
def endWaits (s : State) (n : Nat) (ws : List Waiter) (i : Waiter → EndInfo) : State :=
  ws.foldl (fun t w =>
    match w.phase with
    | .pending => respond (dropWaiter t n w.id) n w.reply (mkRsp w.acquire w.scope w.opTag (i w))
    | .ended => t
    | _ => endWait t n w (i w)) s

/-- The home ends waits of its own node by messages that its step takes itself, so that a held shadow record holds
them too (R408). -/
def endWaitsHome (s : State) (n : Nat) (h : Word) (ws : List Waiter) (i : Waiter → EndInfo) : State :=
  sendAll s n (ws.map fun w => (n, .wake h 0 none false [w.id] (i w)))

/-! ## Combining (R168) -/

/-- The participant index used by the confluence (R435). -/
def redIndex (s : State) (p : WeirParams) (i : Nat) : Nat := if p.scope = 5 then chipId s * 16384 + i else i

/-- The segments of a bank as messages: one without body where the weir does not reduce, or where nothing has been merged
since the bank was last sent up (DESIGN CHOICE, log entry 66: a tree that was rebuilt asks such a member again). -/
def bankSegments (p : WeirParams) (b : Bank) : List (Nat × Option Payload) :=
  if p.redOp = 0 ∨ b.acc.lanes.isEmpty then [(0, none)]
  else (segmentsOf p.redOp p.inFormat b.acc).mapIdx fun k d => (k, some d)

/-- The combined arrival of a bank goes to the parent (R168). -/
def sendCombined (s : State) (n : Nat) (x : Node) (odd break_ lost : Bool) : State :=
  let segs := if break_ then [(0, none)] else bankSegments x.params (x.bank odd)
  sendAll s n (segs.map fun g =>
    (x.parent, .combined (issue s x.hi 0) odd break_ lost g.1 (segs.length - 1) g.2))

/-- A full bank of a member that is not the home is sent once (R168); the slot keeps what was sent until the node advances
(R215). -/
def checkMember (s : State) (n index : Nat) (odd : Bool) : State :=
  match nodeAt s n index with
  | some x =>
    if x.role = 1 ∧ x.full odd ∧ !(x.bank odd).sent ∧ !x.broken then
      sendCombined (putNode s n index (x.setBank odd { (x.bank odd).passed x.params with sent := true })) n x odd
        false false
    else s
  | none => s

/-- A segment of a combined arrival from a sender; the partial once every segment is in. -/
def takeSegment (x : Node) (sender : Nat) (odd : Bool) (segment last : Nat) (d : Payload) : Node × Option Partial :=
  let old := (x.segments.find? fun g => g.sender == sender && g.parity == odd)
  let segs := (match old with | some g => g.segs | none => []) ++ [d]
  let rest := x.segments.filter fun g => !(g.sender == sender && g.parity == odd)
  if segment = last then ({ x with segments := rest }, some (ofSegments x.params.redOp x.params.inFormat segs))
  else ({ x with segments := rest ++ [⟨sender, odd, segs⟩] }, none)

/-- The sender under which the home collects the segments of an arrival that travelled as its weir moved. -/
def movedKey (origin : Nat) : Nat := 2 ^ 20 + origin

/-- A child's or a child chip's report counts in a bank after its last segment (R168). -/
def countReport (x : Node) (sender : Nat) (odd : Bool) (segment last : Nat) (d : Option Payload) (link : Bool) : Node :=
  let add := fun (y : Node) (acc : Partial) =>
    let b := y.bank odd
    y.setBank odd { b with
      kids := if link then b.kids else b.kids + 1, rem := if link then b.rem + 1 else b.rem
      acc := mergePartial y.params.redOp y.params.inFormat b.acc acc }
  match d with
  | none => add x ⟨[], 0⟩
  | some p =>
    match takeSegment x sender odd segment last p with
    | (y, some acc) => add y acc
    | (y, none) => y

/-! ## The home -/

/-- The weir of an index at a home. -/
def weirAt (s : State) (home index : Nat) : Option (Obj × Weir) :=
  match objAt s home index with
  | some o => match o.body with
    | .weir w => some (o, w)
    | _ => none
  | none => none

/-- A weir's system record (Table 13.3). -/
def Weir.record (w : Weir) : SysRecord := w.sys.getD ⟨0, 0xFFFF, 0, 2, false, [], none⟩

/-- Whether the weir completes here: it has no parent chip (R434). -/
def Weir.isRoot (w : Weir) : Bool := w.record.bind == 2

/-- A ref: generation and index of a handle (Table 13.2). -/
def refOf (hi : BitVec 40) : Nat := bits hi 27 18 * 2 ^ 14 + hiIndex hi

/-- The upper handle bits of a function's weir with a ref. -/
def refHi (fn ref : Nat) : BitVec 40 := handleHi fn (ref / 2 ^ 14 % 1024) 2 (ref % 2 ^ 14)

/-- WEIR_UP caravans of a bank, or of a flag, to the parent chip (R434, R436): whether every one found its route. -/
def sendUp (s : State) (home : Nat) (o : Obj) (w : Weir) (odd : Bool) (flg : Nat) (b : Bank) : State × Bool :=
  let r := w.record
  let segs := if flg = 0 then bankSegments w.params b else [(0, none)]
  segs.foldl (fun (t, ok) g =>
    let c := mkCaravan t 0x12 r.parentChip (hiFn o.hi) 5 0
      (r.parentRef.toNat * 2 ^ 34 + flag odd * 2 ^ 33 + flg * 2 ^ 31 + g.1 * 2 ^ 25 + (segs.length - 1) * 2 ^ 19)
      (match g.2 with | some p => payloadFlits p | none => [])
    let (u, sent) := originate t home r.parentChip [c] false
    (u, ok && sent)) (s, true)

/-- WEIR_DOWN caravans to every listed child chip (R434): whether every one found its route. -/
def sendDown (s : State) (home : Nat) (o : Obj) (w : Weir) (odd : Bool) (outcome : Nat) (result : Payload) : State × Bool :=
  w.record.children.foldl (fun (t, ok) ch =>
    let c := mkCaravan t 0x13 ch.1 (hiFn o.hi) 5 0 (ch.2.toNat * 2 ^ 34 + flag odd * 2 ^ 33 + outcome * 2 ^ 31)
      (if w.params.redOp ≠ 0 ∧ outcome = 0 then payloadFlits result else [])
    let (u, sent) := originate t home ch.1 [c] false
    (u, ok && sent)) (s, true)

/-- The stations that the home sends a completion to: its children and the listeners (R170). -/
def completionTargets (s : State) (home : Nat) (w : Weir) : List Nat :=
  childrenOf s w.params.parts home home ++ w.listeners.filter (· != home)

/-- A node takes a completion with outcome OK (R170 steps 1, 2 and 4): it passes it on, advances, clears the bank and
ends the bank's waits. -/
def nodeCompletes (s : State) (n index : Nat) (x : Node) (odd : Bool) (result : Payload) (isHome : Bool) : State :=
  let h := issue s x.hi 0
  let ws := bankWaits s n index x.hi odd
  let s1 := if isHome then s else
    sendAll s n ((childrenOf s x.params.parts x.home n).map fun m => (m, .completion h .ok odd result))
  let y := (x.setBank odd Bank.empty)
  let s2 := putNode s1 n index { y with
    open_ := x.open_ + 1, lastResult := result, lastArrival := tdel x.lastArrival (flag odd) }
  let s3 := match x.params.publish with
    | some w => setBeacon s2 n w (BitVec.ofNat 64 (x.open_ + 1).toNat)
    | none => s2
  let s4 := match tget x.lastArrival (flag odd) with
    | some t => if x.role = 0 then s3 else sampleLatency s3 (s3.clock.fc - t)
    | none => s3
  let fin := fun (w : Waiter) => weirEnd x.params w.hold x.open_ result
  if isHome then endWaitsHome s4 n h ws fin else endWaits s4 n ws fin

/-- A node takes a completion with outcome BROKEN or LINKLOST (R177, R179): it passes it on and ends every wait. -/
def nodeBreaks (s : State) (n index : Nat) (x : Node) (odd lost : Bool) (isHome : Bool) : State :=
  let h := issue s x.hi 0
  let st : Status := if lost then .linklost else .broken
  let ws := weirWaits s n index x.hi
  let s1 := if isHome then s else
    sendAll s n ((childrenOf s x.params.parts x.home n).map fun m => (m, .completion h st odd 0))
  let y := { x with broken := true, lost := lost, bank0 := Bank.empty, bank1 := Bank.empty, segments := [], due := [] }
  let s2 := putNode s1 n index y
  if isHome then endWaitsHome s2 n h ws fun _ => plain st else endWaits s2 n ws fun _ => plain st

/-- The home completes the open epoch with BROKEN or LINKLOST and does not advance it (R177, R179): once. -/
def weirFails (s : State) (home : Nat) (o : Obj) (w : Weir) (lost : Bool) : State :=
  if w.state ≠ 1 then s else
  let index := hiIndex o.hi
  let st : Status := if lost then .linklost else .broken
  let odd := odd32 w.openEpoch
  let h := issue s o.hi 0
  let w' := { w with state := if lost then 3 else 2, sys := w.sys.map fun r => { r with lost := r.lost || lost } }
  let s1 := bumpFn (bump s 0x250302) (hiFn o.hi) 0x19
  let s2 := sendAll s1 home ((completionTargets s1 home w).map fun m => (m, .completion h st odd 0))
  let s3 := (sendDown s2 home o w odd (if lost then 2 else 1) 0).1
  let (s4, o') := lapseAll s3 home { o with body := .weir w' } st
  let s5 := setObj s4 home index o'
  let s6 := match nodeAt s5 home index with
    | some x => nodeBreaks s5 home index x odd lost true
    | none => s5
  noteStep s6 o' st

/-- A child chip's route has failed: the weir is LOST (R448). The root completes with LINKLOST, another home tells its
parent; where that route fails too, its own loss follows. -/
def childRouteLost (s : State) (home : Nat) (o : Obj) (w : Weir) : State :=
  if w.isRoot then weirFails s home o w true
  else
    let w' := { w with sys := w.sys.map fun r => { r with lost := true } }
    let o' := { o with body := .weir w' }
    let t := setObj s home (hiIndex o.hi) o'
    if w.record.bind = 1 then
      let (u, ok) := sendUp t home o' w' (odd32 w.openEpoch) 2 Bank.empty
      if ok then u else weirFails u home o' w' true
    else t

/-- Whether a keeper weir's completion must wait (R353, R372): its keeper is elsewhere, or a transfer runs. -/
def keeperHolds (s : State) (home : Nat) (p : WeirParams) : Bool :=
  match p.keeper with
  | none => false
  | some (khi, _) =>
    match objAt s home (hiIndex khi) with
    | some o => match o.body with
      | .keeper k => !o.failed && (k.transfer != 0 || homeOf s home (hiIndex khi) != home)
      | _ => true
    | none => true

/-- A keeper's block is written and, at the last block, its step decided, before the epoch advances (R361). -/
def keeperDecides (s : State) (home : Nat) (w : Weir) (result : Payload) : State :=
  match w.params.keeper with
  | none => s
  | some (khi, _) =>
    match objAt s home (hiIndex khi) with
    | some o => if o.failed then s else match o.body with
      | .keeper k =>
        let j := k.epochs % max 1 k.blocks
        let sums := lanesOf 32 (payloadBytes result)
        let (t, k') := decideBlock s khi k j sums
        let o' := { o with body := .keeper { k' with epochs := k.epochs + 1 } }
        let u := setObj t home (hiIndex khi) o'
        if j + 1 = k.blocks then noteStep u o' .ok else u
      | _ => s
    | none => s

/-- A completion's count is reported (Table 6.9): an epoch with non-finite elements, or the saturated lanes of an
integer SUM. -/
def countResult (s : State) (fn : Nat) (p : WeirParams) (count : Nat) : State :=
  if count = 0 then s
  else if (floatFmt p.inFormat).isSome then bumpFn (bump s 0x260103) fn 0x1B
  else bumpBy s 0x260104 count

/-- The home performs a completion with outcome OK (R169, R170, R434): keeper, advance, completion to children,
listeners and child chips, beacon, watches, own node. -/
def homeCompletes (s : State) (home : Nat) (o : Obj) (w : Weir) (x : Node) (result : Payload) (count : Nat) : State :=
  let index := hiIndex o.hi
  let odd := odd32 w.openEpoch
  let h := issue s o.hi 0
  let s1 := countResult (bump (keeperDecides s home w result) 0x250301) (hiFn o.hi) w.params count
  let w' := { w with openEpoch := w.openEpoch + 1, result := result, resultCount := count }
  let o' := { o with body := .weir w' }
  let s2 := sendAll s1 home ((completionTargets s1 home w).map fun m => (m, .completion h .ok odd result))
  let (s3, downOk) := sendDown s2 home o w odd 0 result
  let s4 := match w.params.publish with
    | some b => broadcast s3 home (.beaconUpdate b (BitVec.ofNat 64 w'.openEpoch.toNat) false true h)
    | none => s3
  let s5 := nodeCompletes (setObj s4 home index o') home index x odd result true
  let s6 := noteStep (putObserved s5 home o') o' .ok
  if downOk then s6 else
  match weirAt s6 home index with
  | some (o2, w2) => childRouteLost s6 home o2 w2
  | none => s6

/-- The count of a completion that comes from the parent chip, which carries none (log entry 9): zero where R205 makes it
zero, else a free value. WEIR_READ returns it, and 0x2601.03, 0x2601.04 and f.1B count by it (DESIGN CHOICE, log entry 9: R217
does not say whether a chip that has not rounded counts the epoch). -/
def downCount (o : Obj) (w : Weir) (r : Payload) : Nat :=
  if w.params.redOp = 0 ∨ (6 ≤ w.params.inFormat ∧ w.params.redOp ≠ 1) then 0
  else (Config.downCount o.hi w.openEpoch r).toNat

/-- The home acts on full banks (R168, R169, R434): the root completes the open epoch, and the other bank after it;
any other home sends its bank to the parent chip, and takes the completions that waited for a transfer (R372). -/
def homeChecks : Nat → State → Nat → Nat → State
  | 0, s, _, _ => s
  | fuel + 1, s, home, index =>
    match weirAt s home index, nodeAt s home index with
    | some (o, w), some x =>
      if w.state ≠ 1 ∨ (x.broken ∧ w.isRoot) then s
      else if w.isRoot then
        let odd := odd32 w.openEpoch
        if x.full odd ∧ !keeperHolds s home w.params then
          let (r, n) := finishPartial w.params (x.bank odd).acc w.seed.toNat index w.openEpoch.toNat
          homeChecks fuel (homeCompletes s home o w x r n) home index
        else s
      else if w.record.bind = 1 then
        let due := fun odd => !x.broken && x.full odd && !(x.bank odd).sent
        let odd := odd32 w.openEpoch
        let pick := if due odd then some odd else if due (!odd) then some (!odd) else none
        match pick with
        | none =>
          match w.heldDown with
          | r :: rest =>
            if keeperHolds s home w.params then s
            else
              homeChecks fuel (homeCompletes s home o { w with heldDown := rest } x r (downCount o w r)) home index
          | [] => s
        | some p =>
          let (t, ok) := sendUp s home o w p 0 (x.bank p)
          if ok then homeChecks fuel (putNode t home index (x.setBank p { x.bank p with sent := true })) home index
          else weirFails t home o w true
      else s
    | _, _ => s

/-- A bank of a node may be full (R168). -/
def checkNode (s : State) (n index : Nat) (odd : Bool) : State :=
  match nodeAt s n index with
  | some x => if x.role = 2 then homeChecks 4 s n index else checkMember s n index odd
  | none => s

/-- A break reaches a home (R177, R436): the root completes with BROKEN or LINKLOST, another home sends the flag up at
once, or when it is bound. A home that is still FORMING keeps it in its node until the weir is OPEN (`openWeir`; DESIGN
CHOICE, log entry 65: Table 5.8 has no such row). -/
def breakHome (s : State) (home index : Nat) (lost : Bool) : State :=
  match weirAt s home index with
  | none => s
  | some (o, w) =>
    if w.state = 0 then
      match nodeAt s home index with
      | some x => putNode s home index { x with broken := true, lost := x.lost || lost }
      | none => s
    else if w.state ≠ 1 then s
    else if w.isRoot then weirFails s home o w lost
    else
      let odd := odd32 w.openEpoch
      let s1 := match nodeAt s home index with
        | some x => nodeBreaks s home index x odd lost true
        | none => s
      if w.record.bind = 1 then
        let (t, ok) := sendUp s1 home o w odd (if lost then 2 else 1) Bank.empty
        if ok then t else weirFails t home o w true
      else s1

/-- A break takes effect at a node (R177): its waits end, and the break goes toward its parent. -/
def breakNode (s : State) (n index : Nat) (lost : Bool) : State :=
  match nodeAt s n index with
  | none => s
  | some x =>
    if x.role = 2 then breakHome s n index lost
    else if x.role = 0 ∨ x.broken then s
    else
      let y := { x with broken := true, lost := lost }
      let s1 := putNode s n index y
      let st : Status := if lost then .linklost else .broken
      let s2 := endWaits s1 n (weirWaits s1 n index x.hi) fun _ => plain st
      sendCombined s2 n y (odd32 x.open_) true lost

/-- A combined arrival that travelled as its weir moved (R182): it is forwarded to the home, and its bank parity says which
bank it is counted in there. -/
def movedArrives (s : State) (n : Nat) (h : Word) (origin : Nat) (odd : Bool) (segment last : Nat) (d : Option Payload) :
    State :=
  let index := Handle.index h
  match nodeFor s n h with
  | some x =>
    if x.role ≠ 2 then
      if x.home = n then s else send s n x.home (.combinedMoved h origin odd segment last d)
    else if x.broken then s
    else
      let add := fun (y : Node) (acc : Partial) =>
        let b := y.bank odd
        { y.setBank odd { b with acc := mergePartial y.params.redOp y.params.inFormat b.acc acc } with
          due := y.due.erase (origin, odd) }
      match d with
      | none => checkNode (putNode s n index (add x ⟨[], 0⟩)) n index odd
      | some p =>
        match takeSegment x (movedKey origin) odd segment last p with
        | (y, some acc) => checkNode (putNode s n index (add y acc)) n index odd
        | (y, none) => putNode s n index y
  | none =>
    let m := homeOf s n index
    if m ≠ n then send s n m (.combinedMoved h origin odd segment last d) else s

/-- A combined arrival reaches a station (R168, R177): counted in its bank, or a break raised. One that finds no node
is forwarded where the chart names another home, else discarded (R180, R182). -/
def combinedArrives (s : State) (n src : Nat) (h : Word) (odd break_ lost : Bool) (segment last : Nat)
    (d : Option Payload) : State :=
  let index := Handle.index h
  match nodeFor s n h with
  | some x =>
    if x.role = 0 then s
    else if break_ then breakNode s n index lost
    else if x.broken then s
    else checkNode (putNode s n index (countReport x src odd segment last d false)) n index odd
  | none =>
    let m := homeOf s n index
    if m ≠ n then send s n m (.combined h odd break_ lost segment last d) else s

/-- A completion reaches a member or listener (R170, R177, R179). -/
def completionArrives (s : State) (n : Nat) (h : Word) (outcome : Status) (odd : Bool) (result : Payload) : State :=
  let index := Handle.index h
  match nodeFor s n h with
  | none => s
  | some x =>
    match outcome with
    | .ok => nodeCompletes s n index x odd result false
    | .linklost => nodeBreaks s n index x odd true false
    | _ => nodeBreaks s n index x odd false false

/-! ## Arriving and waiting at the entry station (R165 to R173) -/

/-- The distance of an epoch from a node's open epoch. -/
def epochDelta (e open_ : BitVec 32) : Nat := (e - open_).toNat

/-- Table 5.4: the classification of an arrival for epoch `e`. `none` accepts it. -/
def arrivalRefusal (s : State) (n : Nat) (x : Node) (agent : Nat) (e : BitVec 32) (data : Option Payload) : Option EndInfo :=
  let o := BitVec.ofNat 64 x.open_.toNat
  let d := epochDelta e x.open_
  if x.failed then some (plain .integrity)
  else if x.broken then some ⟨if x.lost then .linklost else .broken, o, 0, none, none⟩
  else if x.role = 0 ∨ (x.params.parts.indexOf agent).isNone ∨ entryOf s agent ≠ n then some (plain .privilege)
  else if data.isSome ≠ (x.params.redOp != 0) then some (plain .privilege)
  else if d ≤ 1 then
    if (x.bank (odd32 e)).arrived.contains agent then some ⟨.stale, o, 0, none, none⟩ else none
  else if d < 2 ^ 31 then some ⟨.ahead, o, 0, none, none⟩
  else some ⟨.stale, o, 0, none, none⟩

/-- An arrival is counted and its contribution merged (R168); value_b tells whether it filled the bank (Table 5.6;
DEDUCED, log entry 33: full as in R168). -/
def countArrival (s : State) (n index : Nat) (x : Node) (agent : Nat) (e : BitVec 32) (data : Option Payload) :
    State × Bool :=
  let odd := odd32 e
  let b := x.bank odd
  let i := redIndex s x.params ((x.params.parts.indexOf agent).getD 0)
  let acc := match data with
    | some p => mergePartial x.params.redOp x.params.inFormat b.acc (contribution x.params.redOp x.params.inFormat p i)
    | none => b.acc
  let y := x.setBank odd { b with arrived := b.arrived ++ [agent], acc := acc }
  let z := { y with lastArrival := tput y.lastArrival (flag odd) s.clock.fc }
  (putNode s n index z, z.full odd)

/-- STALE and AHEAD refusals are counted (Table 5.10). -/
def countStale (s : State) (fn : Nat) (st : Status) : State :=
  if st = .stale ∨ st = .ahead then bumpFn s fn 0x18 else s

/-- The weir test (Table 12.5) on a record that a node accepts: an arrival tests its release, a wait its acquire, and an
arrival that waits is counted once. -/
def weirTest (s : State) (fn : Nat) (p : WeirParams) (qualified : Bool) (scope : Nat) : State :=
  if qualified ∧ scope < p.scope then countMismatch s fn 0x2C0103 else s

/-- Whether what a step of a node causes waits behind shadow records (R408): the node is the home's. -/
def nodeHeld (s : State) (n index fn : Nat) : Bool :=
  hostObserved s fn && (nodeAt s n index).any fun x => x.role == 2

/-- An answer that leaves as a message of the home to its own station, which holds it as any other. -/
def answerLate (s : State) (x : Adm) (i : EndInfo) : State :=
  let (t, tag) := openAdm s x none
  send t x.n x.n (.response tag i.status i.a i.b i.data)

/-- The answer of a node to an arrival or a wait. -/
def answerNode (s : State) (x : Adm) (index : Nat) (i : EndInfo) : State :=
  if nodeHeld s x.n index x.fn then answerLate s x i else answerAdm s x i

/-- WEIR_ARRIVE, and SK_REPORT after its own checks, at a station with a node. -/
def nodeArrive (s : State) (x : Adm) (node : Node) (e : BitVec 32) (data : Option Payload) : State :=
  match arrivalRefusal s x.n node x.agent e data with
  | some i => answerNode (countStale s x.fn i.status) x (hiIndex node.hi) i
  | none =>
    let index := hiIndex node.hi
    let (t, filled) :=
      countArrival (weirTest s x.fn node.params (x.release != 0) x.scope) x.n index node x.agent e data
    let u := answerNode t x index ⟨.ok, BitVec.ofNat 64 e.toNat, BitVec.ofNat 64 (flag filled), none, none⟩
    checkNode u x.n index (odd32 e)

/-- How a wait on an epoch stands at a node (R172): it ends at once, or it is linked. -/
def waitEnding (x : Node) (e : BitVec 32) : Option EndInfo :=
  let d := epochDelta e x.open_
  if x.failed then some (plain .integrity)
  else if x.broken then some (plain (if x.lost then .linklost else .broken))
  else if 2 ^ 31 ≤ d then some (weirEnd x.params true (x.open_ - 1) x.lastResult)
  else if 2 ≤ d then some ⟨.ahead, BitVec.ofNat 64 x.open_.toNat, 0, none, none⟩
  else none

/-- A wait is linked into its bank and parked (R172). -/
def linkWait (s : State) (x : Adm) (index : Nat) (e : BitVec 32) : State :=
  let t := (takeWaiter s x 0 .joined (.weir index e)).1
  if !x.hold && nodeHeld s x.n index x.fn then answerLate t x (plain .parked) else parkAdm t x

/-- WEIR_WAIT at a station with a node. -/
def nodeWait (s : State) (x : Adm) (node : Node) (e : BitVec 32) : State :=
  let index := hiIndex node.hi
  if node.pendingReply then
    if recordsFree s x.n x.fn 1 then (takeWaiter s x 0 .pending (.listener index e)).1 else refuseAdm s x .quota
  else match waitEnding node e with
    | some i => answerNode (countStale s x.fn i.status) x index i
    | none =>
      if recordsFree s x.n x.fn 1 then linkWait (weirTest s x.fn node.params (x.acquire != 0) x.scope) x index e
      else refuseAdm s x .quota

/-- WEIR_ARRIVE_WAIT at a station with a node (R172): the waiter record before the arrival. -/
def nodeArriveWait (s : State) (x : Adm) (node : Node) (e : BitVec 32) : State :=
  if !recordsFree s x.n x.fn 1 then refuseAdm s x .quota else
  match arrivalRefusal s x.n node x.agent e x.data with
  | some i => answerNode (countStale s x.fn i.status) x (hiIndex node.hi) i
  | none =>
    let index := hiIndex node.hi
    let t := linkWait (weirTest s x.fn node.params (x.release != 0 || x.acquire != 0) x.scope) x index e
    let (u, _) := countArrival t x.n index node x.agent e x.data
    checkNode u x.n index (odd32 e)

/-- WEIR_WAIT at a station without a node of the weir (R173): a listener node and a subscription; the weir's home is the
chart's. A node of another generation at the index is another weir's, and stays. -/
def listenWait (s : State) (x : Adm) (home : Nat) (e : BitVec 32) : State :=
  let hi := Handle.hi x.handle
  let index := Handle.index x.handle
  if !recordsFree s x.n x.fn 2 then refuseAdm s x .quota else
  let p : WeirParams := ⟨.list [], 0, none, 0, 0, 0, false, 0, none⟩
  let node := { newNode s hi p home x.n 0 with role := 0, parent := 127, children := 0, local_ := 0, pendingReply := true }
  let t := if (nodeAt s x.n index).isSome then
      onStation s x.n fun st => { st with nodes := tput st.nodes (strayKey hi) node }
    else putNode s x.n index node
  let u := (takeWaiter t x 0 .pending (.listener index e)).1
  send u x.n home (.subscribe x.handle)

/-- The state that a subscribe reply gives for a FAILED weir: its listeners answer INTEGRITY (R588). DESIGN CHOICE (log entry
34): the code 4, which is no state of Table 5.1. -/
def failedState : Nat := 4

/-- A subscribe reaches the weir's home (R173): the listener is noted and told where the weir stands. Where the weir has
moved the subscribe goes on to its home (R29); a weir that does not exist answers with a teardown, so that the pending
waits end with BADHANDLE. -/
def subscribeArrives (s : State) (n src : Nat) (h : Word) : State :=
  let index := Handle.index h
  match liveObj s n h with
  | some o => match o.body with
    | .weir w =>
      let w' := { w with listeners := if w.listeners.contains src then w.listeners else w.listeners ++ [src] }
      send (setObj s n index { o with body := .weir w' }) n src
        (.subscribeReply h w.params w.openEpoch (if o.failed then failedState else w.state) w.result)
    | _ => send s n src (.teardown h false)
  | none =>
    let m := homeOf s n index
    if m ≠ n then send s src m (.subscribe h) else send s n src (.teardown h false)

/-- A subscribe reply reaches a listener (R173): it learns where the weir stands, and its pending waits are classified
in order of registration. It writes a published weir's word, whose updates the listener's station has ignored
(DEDUCED, log entry 34). -/
def subscribed (s : State) (n : Nat) (h : Word) (p : WeirParams) (open_ : BitVec 32) (state : Nat) (result : Payload) :
    State :=
  let index := Handle.index h
  match nodeFor s n h with
  | none => s
  | some x =>
    let y := { x with params := p, open_ := open_, broken := state == 2 || state == 3,
                      lost := state == 3, lastResult := result, pendingReply := false
                      failed := x.failed || state == failedState }
    let ws := (weirWaits s n index x.hi).filter fun w => w.phase == .pending
    ws.foldl (fun t w =>
      let e := match w.place with | .listener _ e => e | _ => 0
      match waitEnding y e with
      | some i =>
        respond (dropWaiter (countStale t (Handle.fn w.handle) i.status) n w.id) n w.reply
          (mkRsp w.acquire w.scope w.opTag i)
      | none =>
        let t0 := weirTest t (Handle.fn w.handle) y.params (w.acquire != 0) w.scope
        let t1 := setWaiter t0 n { w with phase := .joined, place := .weir index e }
        if w.hold then t1 else respond t1 n w.reply (parkedRsp w.scope w.opTag))
      (match p.publish with
        | some b => setBeacon (putNode s n index y) n b (BitVec.ofNat 64 open_.toNat)
        | none => putNode s n index y)

/-- A teardown reaches a station (R180): waits end with BADHANDLE, the node is freed, and the home is told. -/
def teardownArrives (s : State) (n src : Nat) (h : Word) : State :=
  let index := Handle.index h
  match nodeFor s n h with
  | none => s
  | some x =>
    let t := endWaits s n (weirWaits s n index x.hi) fun _ => plain .badhandle
    send (dropNodeOf t n x) n src (.teardownAck h)

/-! ## Operations at the home -/

/-- A weir and its home node are taken and its setup sent (R163): the job waits for every other member. `khi` names
the keeper of a keeper weir. -/
def startWeir (s : State) (home fn : Nat) (p : WeirParams) (entry tag agent : Nat) : Option (State × Obj) :=
  let seed := BitVec.ofNat 64 (fnSetting s fn 0x1A)
  let w : Weir := ⟨p, 0, 0, membersOf s p.parts home, [], seed, 0, 0, none, []⟩
  match newObj s home fn 2 (.weir w) with
  | none => none
  | some (o, t) =>
    let h := issue t o.hi 0
    let node := newNode t o.hi p home home 0
    let u := putNode t home (hiIndex o.hi) node
    let v := broadcast u home (.setup h p home false)
    let waiting := (membersOf s p.parts home).filter (· != home)
    some (addJob v home ⟨o.hi, .weirCreate waiting false, entry, tag, agent⟩, o)

/-- BIND goes to the parent chip (R433); where its route fails the weir is LOST (R418). -/
def sendBind (s : State) (home : Nat) (o : Obj) (w : Weir) : State :=
  let r := w.record
  let c := mkCaravan s 0x10 r.parentChip (hiFn o.hi) 5 0 (r.sysNum * 2 ^ 42 + refOf o.hi * 2 ^ 18) []
  let (t, ok) := originate s home r.parentChip [c] false
  if ok then t else weirFails t home o w true

/-- A weir that was broken while it formed breaks as it becomes OPEN (R177; log entry 65). -/
def brokenForming (s : State) (home index : Nat) : State :=
  match nodeAt s home index with
  | some x => if x.broken then breakHome s home index x.lost else s
  | none => s

/-- A weir becomes OPEN (Table 5.8): published, and bound to its domain at scope 5 (R431, R433). -/
def openWeir (s : State) (home : Nat) (o : Obj) (w : Weir) (agent : Nat) : State :=
  let fn := hiFn o.hi
  let index := hiIndex o.hi
  if w.params.scope = 5 then
    let parent := setting s 0x2D0101
    let r : SysRecord := ⟨fnSetting s fn 0x31, parent, 0, if parent = 0xFFFF then 2 else 0, false, [], none⟩
    let w' := { w with state := 1, sys := some r }
    let o' := { o with body := .weir w' }
    let t := publish (bumpFn (setObj s home index o') fn 0x31) home o' agent
    brokenForming (if parent = 0xFFFF then t else sendBind t home o' w') home index
  else
    let o' := { o with body := .weir { w with state := 1 } }
    brokenForming (publish (setObj s home index o') home o' agent) home index

/-- A weir that was refused goes again: its members free their nodes, its word, index and keeper return (R163). -/
def undoWeir (s : State) (home : Nat) (o : Obj) (w : Weir) : State :=
  let h := issue s o.hi 0
  let s1 := broadcast (dropNode s home (hiIndex o.hi)) home (.teardown h true)
  let s2 := match w.params.publish with | some b => freeWord s1 b | none => s1
  let s3 := match w.params.keeper with
    | some (khi, _) => match objAt s2 home (hiIndex khi) with | some k => abandon s2 home k | none => s2
    | none => s2
  abandon s3 home o

/-- Every setup answer is in (R163): the handle returns, or QUOTA. A keeper's handle returns with its weir's. -/
def weirFormed (s : State) (home : Nat) (j : Job) (refused : Bool) : State :=
  match weirAt s home (hiIndex j.hi) with
  | none => dropJob s home j.hi
  | some (o, w) =>
    let t := dropJob s home j.hi
    if refused then jobAnswer (undoWeir t home o w) home j (plain .quota) else
    match w.params.keeper with
    | some (khi, _) =>
      let u := match objAt t home (hiIndex khi) with
        | some k =>
          let opened := match k.body with | .keeper x => x.episode | _ => false
          publish (if opened then bump t 0x2B0305 else t) home k j.agent
        | none => t
      let v := openWeir u home o w j.agent
      announce v home o.hi j.entry j.tag j.agent (issue v khi 0) (issue v o.hi 0)
    | none =>
      let v := openWeir t home o w j.agent
      announce v home o.hi j.entry j.tag j.agent (issue v o.hi 0) (BitVec.ofNat 64 (w.params.publish.getD 0))

/-- A member's setup answer reaches the home (R163). -/
def setupAnswered (s : State) (home src : Nat) (h : Word) (refused : Bool) : State :=
  match jobOf s home (Handle.hi h) with
  | some j => match j.kind with
    | .weirCreate waiting r =>
      let left := waiting.filter (· != src)
      let r' := r || refused
      if left.isEmpty then weirFormed s home j r'
      else setJob s home { j with kind := .weirCreate left r' }
    | _ => s
  | none => s

/-- A creation's job whose members are all in at once: the home alone. -/
def weirSettled (s : State) (home : Nat) (o : Obj) : State :=
  match jobOf s home o.hi with
  | some j => match j.kind with
    | .weirCreate [] r => weirFormed s home j r
    | _ => s
  | none => s

/-- WEIR_CREATE at its home, after R161's checks at the entry station. -/
def createWeir (s : State) (home : Nat) (op : FwdOp) : State :=
  let fn := Handle.fn op.handle
  let p := weirParams op.a op.b op.data
  let probe := newNode s 0 p home home 0
  if !objectQuota s fn then refuse s home op .quota else
  if !nodeQuota s fn probe home 0 then refuse (countSlotRefusal s home fn probe 0) home op .quota else
  let word := if bit op.b 3 then takeWord s fn else some (0, s)
  match word with
  | none => refuse s home op .quota
  | some (w, t) =>
    let p' := { p with publish := if bit op.b 3 then some w else none }
    match startWeir t home fn p' op.entry op.tag op.agent with
    | none => refuse s home op .quota
    | some (u, o) => weirSettled u home o

/-- WEIR_POLICY (R175): the payload's two fields, at every node at once; another bit or no payload is PRIVILEGE. -/
def weirPolicy (s : State) (home : Nat) (o : Obj) (op : FwdOp) : State :=
  match op.data with
  | none => refuse s home op .privilege
  | some p =>
    let v := payloadNat p 0 8
    let on := v % 2
    let overdue := v / 2 ^ 16 % 2 ^ 16
    if payloadNat p 8 56 ≠ 0 ∨ v ≠ on + overdue * 2 ^ 16 then refuse s home op .privilege
    else
      let index := hiIndex o.hi
      let t := s.stations.foldl (fun t q =>
        match nodeAt t q.1 index with
        | some x => if x.hi = o.hi then putNode t q.1 index { x with hintEnable := on == 1, overdueFc := overdue } else t
        | none => t) s
      reply t home op 0 0

/-- The weir's teardown is sent, its own node freed and its entry gone (R180): the job waits for every other station
that held a node, and for every station that clears a published word (R136), noted as 1000 more. `keeper` is the
keeper destroyed with it. -/
def startTeardown (s : State) (home : Nat) (o : Obj) (w : Weir) (entry tag agent : Nat) (keeper : Option (BitVec 40))
    (st : Status) : State :=
  let index := hiIndex o.hi
  let h := issue s o.hi 0
  let waiting := ((membersOf s w.params.parts home) ++ w.listeners).foldl
    (fun l n => if n = home ∨ l.contains n then l else l ++ [n]) []
  let (s1, words) := match w.params.publish with
    | some b =>
      let t := setBeacon (broadcast s home (.teardown h true)) home b 0
      (broadcast t home (.beaconUpdate b 0 true true h), (others t home).map (1000 + ·))
    | none => (broadcast s home (.teardown h true), [])
  let s2 := endWaitsHome s1 home h (weirWaits s1 home index o.hi) fun _ => plain .badhandle
  let (s3, _) := lapseAll (dropNode s2 home index) home o st
  addJob (dropObj s3 home index) home ⟨o.hi,   .weirDestroy (waiting ++ words) w.params.publish keeper, entry, tag, agent⟩

/-- Every teardown acknowledgement is in (R180, R374): the word, then the index, a keeper's index too, and OK. -/
def weirGone (s : State) (home : Nat) (j : Job) (word : Option Nat) (keeper : Option (BitVec 40)) : State :=
  let s1 := match word with | some b => freeWord (dropJob s home j.hi) b | none => dropJob s home j.hi
  let s2 := retireHi s1 home j.hi j.agent
  let s3 := match keeper with | some k => retireHi s2 home k j.agent | none => s2
  jobAnswer s3 home j ⟨.ok, 0, 0, none, none⟩

/-- A station's teardown acknowledgement reaches the home; `src` itself once nothing is left to wait for. -/
def teardownAcked (s : State) (home src : Nat) (hi : BitVec 40) : State :=
  match jobOf s home hi with
  | some j => match j.kind with
    | .weirDestroy waiting word keeper =>
      let left := waiting.filter (· != src)
      if left.isEmpty then weirGone s home j word keeper
      else setJob s home { j with kind := .weirDestroy left word keeper }
    | _ => s
  | none => s

/-- DESTROY of a weir (R180), a keeper's with it (R374). -/
def destroyWeir (s : State) (home : Nat) (o : Obj) (w : Weir) (entry tag agent : Nat) (keeper : Option (BitVec 40)) :
    State :=
  teardownAcked (startTeardown s home o w entry tag agent keeper .badhandle) home home o.hi

/-- The weir operations at the home. An arrival here comes from a station without a node (R165). -/
def homeWeir (s : State) (home : Nat) (o : Obj) (w : Weir) (op : FwdOp) : State :=
  match op.op with
  | .weirRead =>
    answer s home op ⟨.ok, BitVec.ofNat 64 w.openEpoch.toNat, BitVec.ofNat 64 (w.resultCount * 2 ^ 32 + w.state),
      some w.result, none⟩
  | .weirPolicy => weirPolicy s home o op
  | .weirArrive | .weirArriveWait => refuse s home op .privilege
  | _ => refuse s home op .badhandle

/-! ## The throttle hint (R187) -/

/-- The overdue time of a node has passed: the station asserts its output, unless it is held off. -/
def hintAsserts (s : State) (n index : Nat) : State :=
  match nodeAt s n index with
  | some x =>
    match x.hintSince with
    | some t =>
      let u := passToFc s (t + x.overdue s)
      let st := station u n
      if x.late u && !st.hint.level && st.hint.blockedTill ≤ u.clock.fc then
        bump (setStation u n { st with hint :=
          { st.hint with level := true, since := u.clock.fc, longest := x.longest u } }) 0x250303
      else u
    | none => s
  | none => s

/-- The output has been asserted for the hint_max_fc of its assertion (R189): it falls and stays low as long. -/
def hintMaxed (s : State) (n : Nat) : State :=
  let st := station s n
  if st.hint.level then
    let t := passToFc s (st.hint.since + st.hint.longest)
    onStation t n fun x => { x with hint := ⟨false, x.hint.since, t.clock.fc + st.hint.longest, st.hint.longest⟩ }
  else s

end Sys2Proof.Machine
end

