-- ==== Sys2Proof/Machine/KeeperHome.lean ====
section
/-!
DEFINITION. Scale keepers at their home (chapter 11): creation with the keeper weir, reads, policies, the transfer of a
checkpoint image, and destruction.
-/

namespace Sys2Proof.Machine

/-! ## Creation (R351, R366, R368) -/

/-- The participants operand of SK_CREATE, with the fields of a keeper weir (R351, Table 11.5). -/
def keeperParams (a b : Word) : WeirParams where
  parts := .range (bits a 10 0) (bits a 22 11) (BitVec.ofNat 4 (bits a 26 23))
  scope := bits b 18 16
  publish := none
  redOp := 1
  inFormat := 6
  outFormat := 6
  stochastic := false
  remote := bits b 23 19
  keeper := none

/-- The refusal of SK_CREATE's fields (Table 11.7): PRIVILEGE, then SCOPE. -/
def keeperRefusal (s : State) (fn : Nat) (a b : Word) (data : Option Payload) : Option Status :=
  let p := keeperParams a b
  let count := bits a 22 11
  let fields := 1 ≤ bits b 8 0 && bits b 8 0 ≤ 256 && p.remote ≤ 16 && bits a 26 23 != 0 && 1 ≤ count && count ≤ 2048 &&
    bits a 10 0 + count ≤ 2048 &&
    match data with
    | some d => policyOk d && (policyOf d).count == 0 && (policyOf d).first == 0
    | none => false
  if !fields || !weirPartsOk s fn p then some .privilege
  else if !weirScopeOk s fn p then some .scope
  else none

/-- What SK_CREATE takes at a home besides its node's records. -/
def keeperTakes (s : State) (a b : Word) (n : Nat) : Takes :=
  ⟨2, 2 * bits b 8 0 + (newNode s 0 (keeperParams a b) n n 0).records, true, 0⟩

/-- A new keeper. -/
def newKeeper (s : State) (b : Word) (q : Policy) : Keeper :=
  let k : Keeper := ⟨0, 0, false, false, 0, 0, 0, 0, List.replicate (bits b 8 0) (Group.fresh s (q.resolve s))⟩
  if bit b 9 then k.restart else k

/-- SK_CREATE at its home (R368): the keeper, then its weir, which answers for both. -/
def createKeeper (s : State) (home : Nat) (op : FwdOp) : State :=
  let fn := Handle.fn op.handle
  let g := bits op.b 8 0
  let p := keeperParams op.a op.b
  let probe := newNode s 0 p home home 0
  if !objectQuota s fn 2 then refuse s home op .quota else
  if !nodeQuota s fn probe home (2 * g) then refuse (countSlotRefusal s home fn probe (2 * g)) home op .quota else
  let k := newKeeper s op.b (policyOf (op.data.getD 0))
  match newObj s home fn 6 (.keeper k) with
  | none => refuse s home op .quota
  | some (ko, t) =>
    match startWeir t home fn { p with keeper := some (ko.hi, g) } op.entry op.tag op.agent with
    | none => refuse (abandon t home ko) home op .quota
    | some (u, wo) =>
      let ko' := { ko with body := .keeper { k with weirHi := wo.hi } }
      let v := setObj u home (hiIndex ko.hi) ko'
      weirSettled v home wo

/-! ## Reads and policies (R368 to R370) -/

/-- SK_READ. -/
def skRead (s : State) (home : Nat) (k : Keeper) (op : FwdOp) : State :=
  match k.view (bits op.a 1 0) (Handle.sel op.handle) with
  | none => refuse s home op .privilege
  | some d =>
    let un := (k.groups.filter fun g => !g.anchored).length
    answer s home op ⟨.ok, k.steps, BitVec.ofNat 64 (flag k.lastSkipped + 2 * flag k.episode + 2 ^ 32 * un), some d, none⟩

/-- SK_POLICY. -/
def skPolicy (s : State) (home : Nat) (o : Obj) (k : Keeper) (op : FwdOp) : State :=
  match op.data with
  | none => refuse s home op .privilege
  | some d =>
    let q := policyOf d
    if !policyOk d || q.count == 0 || !(q.first + q.count ≤ k.groups.length) then refuse s home op .privilege
    else
      let r := q.resolve s
      let gs := k.groups.mapIdx fun i g => if q.first ≤ i ∧ i < q.first + q.count then g.apply r else g
      reply (setObj s home (hiIndex o.hi) { o with body := .keeper { k with groups := gs } }) home op 0 0

/-! ## Export and import (R371, R372) -/

/-- Whether a keeper stands between steps (R372). Its own count of epochs tells it, wherever the weir is in a station drain:
the open epoch is that count modulo 2^32, and its multiples of B are the ends of steps only until it wraps (DEDUCED, log
entry 74). -/
def betweenSteps (k : Keeper) : Bool := k.epochs % max 1 k.blocks == 0

/-- The transactions that move an image: 256 bytes each, the last the rest. Each goes over the course to
the attach station of the serving slice (R41), and its answer comes back so; the manual names no message type for the two,
and they travel as shadow records and their answers do (DEDUCED, log entry 36). -/
def imageXacts (s : State) (home : Nat) (o : Obj) (address : Nat) (length : Nat) (image : Option (List Byte)) : State :=
  (List.range ((length + 255) / 256)).foldl (fun t n =>
    let len := min 256 (length - 256 * n)
    send t home (sliceStation t (servingSlice t (hiIndex o.hi)))
      (.imageRequest (nameOf o.hi) (address + 256 * n) len n (image.map fun l => (l.drop (256 * n)).take len))) s

/-- A part of an image reaches the slice: a transaction in the shadow class, with the function's stamp (R372). A slice
takes it while the function is ENABLED (R310). -/
def takeImage (s : State) (src : Nat) (h : Word) (address length part : Nat) (data : Option (List Byte)) : State :=
  if (fnOf s (Handle.fn h)).state ≠ .enabled then s
  else queueXact s (servingSlice s (Handle.index h))
    ⟨.shadow, Handle.fn h, address, length / 32, data.getD [], Handle.fn h, .keeper h src part data.isSome⟩

/-- A keeper's image length: 64 + 64·G bytes. -/
def Keeper.length (k : Keeper) : Nat := 64 + 64 * k.groups.length

/-- SK_EXPORT. -/
def skExport (s : State) (home : Nat) (o : Obj) (k : Keeper) (op : FwdOp) : State :=
  if !betweenSteps k || k.transfer != 0 then refuse s home op .stale
  else
    let image := k.image (fnSetting s (hiFn o.hi) 0x1A % 2 ^ 32)
    let s1 := setObj s home (hiIndex o.hi) { o with body := .keeper { k with transfer := 1 } }
    let s2 := addJob s1 home ⟨o.hi, .keeperExport ((k.length + 255) / 256) image, op.entry, op.tag, op.agent⟩
    imageXacts s2 home o op.a.toNat k.length (some image)

/-- SK_IMPORT. -/
def skImport (s : State) (home : Nat) (o : Obj) (k : Keeper) (op : FwdOp) : State :=
  match op.data with
  | none => refuse s home op .privilege
  | some d =>
    if payloadNat d 4 4 ≠ k.length ∨ payloadNat d 8 56 ≠ 0 then refuse s home op .privilege
    else if !betweenSteps k || k.transfer != 0 then refuse s home op .stale
    else
      let n := (k.length + 255) / 256
      let s1 := setObj s home (hiIndex o.hi) { o with body := .keeper { k with transfer := 2 } }
      let s2 := addJob s1 home
        ⟨o.hi, .keeperImport n n [] (BitVec.ofNat 32 (payloadNat d 0 4)) false, op.entry, op.tag, op.agent⟩
      imageXacts s2 home o op.a.toNat k.length none

/-- A transfer has ended: completions that waited become due (R372). -/
def transferEnds (s : State) (home : Nat) (o : Obj) (k : Keeper) : State :=
  homeChecks 4 (setObj s home (hiIndex o.hi) { o with body := .keeper { k with transfer := 0 } }) home (hiIndex k.weirHi)

/-- An import's parts are all in: the keeper that the image gives, or the restart state (R372). -/
def importEnds (s : State) (home : Nat) (o : Obj) (k : Keeper) (j : Job) (parts : Table (List Byte)) (sumWord : Nat)
    (bad : Bool) : State :=
  let image := (parts.map (·.2)).flatten
  match if bad then none else k.load image sumWord with
  | some k' => jobAnswer (transferEnds s home o k') home j ⟨.ok, k'.steps, 0, none, none⟩
  | none =>
    jobAnswer (transferEnds (bump (bump s 0x2B0306) 0x2B0305) home o k.restart) home j (plain .integrity)

/-- A transaction of an image completes at the slice; one whose keeper has gone is discarded (R374). -/
def keeperPart (s : State) (h : Word) (home n : Nat) (bad : Bool) (data : List Byte) : State :=
  match jobOf s home (Handle.hi h), objAt s home (Handle.index h) with
  | some j, some o =>
    match o.body, j.kind with
    | .keeper k, .keeperExport left image =>
      if left = 1 then
        jobAnswer (transferEnds (dropJob s home j.hi) home o k) home j
          ⟨.ok, BitVec.ofNat 64 k.length, BitVec.ofNat 64 (ofBytesLE (image.take 4)), none, none⟩
      else setJob s home { j with kind := .keeperExport (left - 1) image }
    | .keeper k, .keeperImport left total parts sumWord b =>
      let parts' := tput parts n data
      if left = 1 then importEnds (dropJob s home j.hi) home o k j parts' sumWord.toNat (b || bad)
      else setJob s home { j with kind := .keeperImport (left - 1) total parts' sumWord (b || bad) }
    | _, _ => s
  | _, _ => s

/-! ## Destruction (R374) -/

/-- The station that holds the weir of a keeper: the keeper's own, or in a station drain the weir's new home (R353). -/
def keeperWeirHome (s : State) (home : Nat) (k : Keeper) : Nat :=
  match s.stations.find? fun p => p.1 != home && (weirAt s p.1 (hiIndex k.weirHi)).any fun w => w.1.hi == k.weirHi with
  | some p => if (weirAt s home (hiIndex k.weirHi)).any fun w => w.1.hi == k.weirHi then home else p.1
  | none => home

/-- DESTROY of a keeper: an open episode is reported, a transfer's operation ends, and its weir goes with it, wherever a
station drain has moved it. -/
def destroyKeeper (s : State) (home : Nat) (o : Obj) (k : Keeper) (entry tag agent : Nat) : State :=
  let s1 := if k.episode then raiseKeeper s o.hi k.steps ⟨4, 0, 0, k.episodeBackoffs, k.episodeStart.toNat⟩ else s
  let s2 := match jobOf s1 home o.hi with
    | some j => jobAnswer (dropJob s1 home o.hi) home j (plain .badhandle)
    | none => s1
  let s3 := dropObj s2 home (hiIndex o.hi)
  let at_ := keeperWeirHome s3 home k
  match weirAt s3 at_ (hiIndex k.weirHi) with
  | some (wo, w) => destroyWeir s3 at_ wo w entry tag agent (some o.hi)
  | none =>
    jobAnswer (retireHi s3 home o.hi agent) home ⟨o.hi, .queueDestroy, entry, tag, agent⟩ ⟨.ok, 0, 0, none, none⟩

/-- The keeper operations at the home. A report here comes from a station without a node (R165). -/
def homeKeeper (s : State) (home : Nat) (o : Obj) (k : Keeper) (op : FwdOp) : State :=
  match op.op with
  | .skRead => skRead s home k op
  | .skPolicy => skPolicy s home o k op
  | .skExport => skExport s home o k op
  | .skImport => skImport s home o k op
  | .skReport => refuse s home op .privilege
  | _ => refuse s home op .badhandle

end Sys2Proof.Machine
end

