-- ==== Sys2Proof/Machine/Ferry.lean ====
section
/-!
DEFINITION. The work of the ferry's slices (chapter 09): extents, spills and refills, tags and the rotation of classes,
shadow records (R405 to R409), capture writes (R466 to R470), compaction, and drains.
-/

namespace Sys2Proof.Machine

/-! ## Extents (R286, R287, R311) -/

/-- The blocks of a sub-region that extents occupy: runs of first block and length; a moving extent has two. -/
def occupied (l : Slice) (fn sub i : Nat) : List (Nat × Nat) :=
  (l.extents.filter fun p => p.2.fn == fn && p.1 % max 1 i == sub).flatMap fun p =>
    (p.2.base, p.2.length) :: (if p.2.moving then [(p.2.newBase, p.2.length)] else [])

/-- Whether a run of blocks meets none of some runs. -/
def clear (runs : List (Nat × Nat)) (b n : Nat) : Bool := runs.all fun r => decide (b + n ≤ r.1) || decide (r.1 + r.2 ≤ b)

/-- The first fit of a run of blocks: the lowest start, which is 0 or the end of an occupied run. -/
def firstFit (runs : List (Nat × Nat)) (size n : Nat) : Option Nat :=
  leastBy id ((0 :: runs.map fun r => r.1 + r.2).filter fun b => b + n ≤ size && clear runs b n)

/-- A reservation reaches the slice (R287). -/
def takeReserve (s : State) (n src : Nat) (h : Word) (length : Nat) : State :=
  let i := Handle.index h
  let fn := Handle.fn h
  let j := servingSlice s i
  let k := max 1 s.gelari.initiators
  match firstFit (occupied (sliceAt s j) fn (i % k) k) (subBlocks s fn) length with
  | some b =>
    let e : Extent := ⟨fn, Handle.gen h, length, b, false, 0, 0, none⟩
    send (onSlice s j fun l => { l with extents := tput l.extents i e }) n src (.extentReserved h)
  | none => send s n src (.extentRefused h)

/-- The tags outstanding on an index. -/
def outstanding (l : Slice) (index : Nat) : Bool := l.tags.any fun t => t.xact.purpose.index == some index

/-- An extent whose transactions have all ended and whose release waits is cleared and answered (R311). -/
def extentClears (s : State) (index : Nat) : State :=
  let j := servingSlice s index
  match extentAt s j index with
  | some e =>
    match e.releasing with
    | some home =>
      if s.slices.any (fun p => outstanding p.2 index) then s
      else
        let t := onSlice s j fun l => { l with
          extents := tdel l.extents index, spillBufs := l.spillBufs.filter fun b => Handle.index b.1 != index }
        send t (sliceStation t j) home (.extentReleased (nameOf (handleHi e.fn e.gen 4 index)))
    | none => s
  | none => s

/-- A release reaches the slice (R311): waiting transactions go, outstanding ones are discarded as they complete. -/
def takeRelease (s : State) (n src : Nat) (h : Word) : State :=
  let i := Handle.index h
  let j := servingSlice s i
  let mine := fun (x : Xact) => x.purpose.index == some i
  match extentAt s j i with
  | none => send s n src (.extentReleased h)
  | some e =>
    let held := fun (l : Slice) (b : Word × Nat) => l.tags.any fun t => t.xact.purpose == .spill b.1 b.2
    let t := s.slices.foldl (fun t p => onSlice t p.1 fun l => { l with
      waiting := l.waiting.filter fun x => !mine x
      tags := l.tags.map fun u => if mine u.xact then { u with discard := true } else u
      spillIn := l.spillIn.filter fun x => Handle.index x.handle != i
      spillBufs := l.spillBufs.filter fun b => Handle.index b.1 != i || held l b }) s
    extentClears (onSlice t j fun l => { l with extents := tput l.extents i { e with releasing := some src } }) i

/-! ## Spills and refills (R292 to R298) -/

/-- The spill buffers of a slice that hold blocks of a bank group. -/
def bufsOfBank (s : State) (j : Nat) (bank : Nat × Nat) : Nat :=
  ((sliceAt s j).spillBufs.filter fun b => match extentAt s j (Handle.index b.1) with
    | some e => bankOf s (blockAddress s (Handle.index b.1) e b.2) == bank
    | none => false).length

/-- Whether a slice accepts a spill as its segment 0 arrives (R294, R297). R294 does not say how a spill of an index whose seq is
exhausted is answered: the model refuses it, counts it with the other refusals, and its home tries again (DESIGN CHOICE, log
entry 73). -/
def acceptsSpill (s : State) (j : Nat) (h : Word) (b : Nat) : Bool :=
  match extentAt s j (Handle.index h) with
  | some e =>
    e.releasing.isNone && tgetD (sliceAt s j).seqs (Handle.index h) 0 < 2 ^ 50 - 1 &&
    (sliceAt s j).spillBufs.length < 16 && bufsOfBank s j (bankOf s (blockAddress s (Handle.index h) e b)) < 2
  | none => false

/-- What the cipher takes for a block of a queue (R293). -/
def blockName (s : State) (h : Word) (objGen b : Nat) : BlockName :=
  let f := fnOf s (Handle.fn h)
  ⟨f.key.getD 0, f.generation, Handle.index h, objGen, Handle.fn h, b⟩

/-- A spill is whole: it takes its index's seq, is encrypted, and waits for a tag; the last seq is reported (R294). -/
def spillWhole (s : State) (j : Nat) (h : Word) (b : Nat) (segs : List Payload) : State :=
  let i := Handle.index h
  let seq := tgetD (sliceAt s j).seqs i 0
  let data := storeBlock (blockName s h (Handle.gen h) b) seq (segs.flatMap payloadBytes)
  let t := onSlice s j fun l => { l with seqs := tput l.seqs i (seq + 1) }
  let u := if seq + 1 = 2 ^ 50 - 1 then raise t 0x32 (generic i 0 (Handle.fn h) 0 j) else t
  queueXact u j ⟨.spill, Handle.fn h, 0, 8, data, 0, .spill h b⟩

/-- A spill segment reaches the slice (R297); that of a function that is not ENABLED is discarded (R310). -/
def takeSpill (s : State) (n src : Nat) (h : Word) (b seg : Nat) (d : Payload) : State :=
  let j := servingSlice s (Handle.index h)
  let l := sliceAt s j
  let same := fun (x : SpillIn) => x.handle == h && x.block == b
  if (fnOf s (Handle.fn h)).state ≠ .enabled then s
  else if seg = 0 then
    let ok := acceptsSpill s j h b
    let x : SpillIn := ⟨h, b, src, ok, [d]⟩
    setSlice s j { l with
      spillIn := l.spillIn ++ [x], spillBufs := if ok then l.spillBufs ++ [(h, b)] else l.spillBufs }
  else
    match takeFirst same l.spillIn with
    | none => s
    | some (x, rest) =>
      if seg < 3 then
        setSlice s j { l with spillIn := l.spillIn.map fun y => if same y then { y with segs := y.segs ++ [d] } else y }
      else
        let t := setSlice s j { l with spillIn := rest }
        if x.accepted then send (spillWhole t j h b (x.segs ++ [d])) n src (.spillAccepted h b)
        else send (bump t 0x290505) n src (.spillRefused h b)

/-- A refill request reaches the slice (R296); that of a function that is not ENABLED is discarded (R310). -/
def takeRefill (s : State) (src : Nat) (h : Word) (b : Nat) : State :=
  let j := servingSlice s (Handle.index h)
  if (fnOf s (Handle.fn h)).state ≠ .enabled then s else
  match extentAt s j (Handle.index h) with
  | some e => if e.releasing.isSome then s
    else queueXact s j ⟨.refill, Handle.fn h, 0, 8, [], 0, .refill h b src false⟩
  | none => s

/-- ferry_integrity (Table 9.4): it carries the queue's handle with its check tag. -/
def integrityRecord (s : State) (j : Nat) (h : Word) (b address cause : Nat) : BitVec 256 :=
  BitVec.ofNat 256 ((issue s (Handle.hi h) 0).toNat * 2 ^ 192 + field 64 128 b + field 64 64 address + field 12 52 (Handle.fn h) + field 4 48 j
    + field 8 40 (bankOf s address).1 + field 8 32 (bankOf s address).2 + field 2 30 cause)

/-- A refill's read has returned (R295, R298, R305). -/
def refillRead (s : State) (j : Nat) (u : TagUse) (h : Word) (b home : Nat) (second : Bool) (data : List Byte) : State :=
  let k := servingSlice s (Handle.index h)
  match extentAt s k (Handle.index h) with
  | none => s
  | some e =>
    match if u.bad then none else openBlock (blockName s h e.gen b) data with
    | some frame =>
      let t := sendAll s (sliceStation s j) ((frameSegments frame).mapIdx fun m d => (home, .refillSegment h b m false d))
      bump (if second then bump t 0x290504 else t) 0x290502
    | none =>
      if second then
        let last := payloadOf (List.replicate 32 0 ++ bytesLE 8 b)
        let t := send (bump s 0x290503) (sliceStation s j) home (.refillSegment h b 3 true last)
        raise t 0x31 (integrityRecord t j h b u.xact.address (if u.bad then 1 else 2))
      else onSlice s k fun l => { l with waiting := { u.xact with purpose := .refill h b home true } :: l.waiting }

/-! ## Shadow records (R405 to R409) -/

/-- The 64 bytes of a shadow record (Table 12.8). -/
def shadowBytes (s : State) (r : Shadow) (seq : Nat) : List Byte :=
  payloadBytes (BitVec.ofNat 512 (field 64 448 seq + r.handle.toNat * 2 ^ 384 + r.valueA.toNat * 2 ^ 320
    + r.valueB.toNat * 2 ^ 256 + r.valueC.toNat * 2 ^ 192 + field 32 160 (fnOf s (Handle.fn r.handle)).generation
    + field 8 152 r.event + field 8 144 r.outcome.code + field 14 130 r.agent))

/-- A shadow record reaches the slice: it takes the function's next seq and waits for a tag. One whose function drains is
discarded (R409). -/
def takeShadow (s : State) (src : Nat) (r : Shadow) : State :=
  let fn := Handle.fn r.handle
  let f := fnOf s fn
  if f.state ≠ .enabled then s else
  let j := servingSlice s fn
  let x : Xact := ⟨.shadow, fn, fnSetting s fn 0x2F + 64 * Handle.index r.handle, 2, shadowBytes s r f.shadowNext, fn,
    .shadow src r.handle fn f.shadowNext⟩
  queueXact (setFn s fn { f with shadowNext := f.shadowNext + 1 }) j x

/-- The answers that a slice owes, in issue order for each function, as far as their writes are acknowledged;
shadow_seq is the latest record answered (R409). -/
def shadowAnswers : Nat → State → Nat → State
  | 0, s, _ => s
  | fuel + 1, s, j =>
    let l := sliceAt s j
    let first := fun (r : ShadowOut) =>
      r.acked && !(s.slices.any fun p => p.2.shadowOut.any fun q => q.fn == r.fn && q.seq < r.seq)
    match takeFirst first l.shadowOut with
    | none => s
    | some (r, rest) =>
      shadowAnswers fuel (send (setFnSetting (setSlice s j { l with shadowOut := rest }) r.fn 0x30 r.seq)
        (sliceStation s j) r.home (.shadowWritten r.handle r.seq)) j

/-- A shadow record's write is acknowledged. -/
def shadowAcked (s : State) (j fn seq : Nat) : State :=
  let t := onSlice (bump s 0x2C0301) j fun l => { l with
    shadowOut := l.shadowOut.map fun r => if r.fn = fn ∧ r.seq = seq then { r with acked := true } else r }
  let u := shadowAnswers ((sliceAt t j).shadowOut.length + 1) t j
  u.slices.foldl (fun v p => if p.1 = j then v else shadowAnswers (p.2.shadowOut.length + 1) v p.1) u

/-! ## Captures (R466 to R470) -/

/-- A partition's record. -/
def partAt (s : State) (p : Nat) : Partition := tgetD s.partitions p Partition.initial

/-- A partition's record changes. -/
def onPart (s : State) (p : Nat) (f : Partition → Partition) : State :=
  { s with partitions := tput s.partitions p (f (partAt s p)) }

/-- A capture write waits for a capture tag. -/
def captureXact (s : State) (j p part address : Nat) (data : List Byte) : State :=
  queueXact s j ⟨.capture, 0, address, (data.length + 31) / 32, data, 0, .capture p part⟩

/-- Entries of a capture's buffer leave as one write of up to four (R466). -/
def captureFlush (s : State) (j : Nat) (c : Capture) : State × Capture :=
  let four := c.buffer.take 4
  let data := four.flatMap payloadBytes
  let t := captureXact s j c.partition 1 (setting s (0x2E0500 + c.partition) + 4096 + 64 * c.entries) data
  (t, { c with buffer := c.buffer.drop 4, entries := c.entries + four.length, crc := BitVec.ofNat 32 (crc32cMore c.crc.toNat data) })

/-- Whether a slice's capture writes have all been acknowledged. -/
def captureIdle (l : Slice) : Bool :=
  l.waiting.all (fun x => x.cls != .capture) && l.tags.all fun t => t.xact.cls != .capture || t.discard

/-- The capture header (Table 14.11). -/
def captureHeader (s : State) (c : Capture) : List Byte :=
  let q := partAt s c.partition
  payloadBytes (BitVec.ofNat 512 (2 ^ 504 + field 1 503 (flag c.truncated) + field 6 497 c.partition + field 32 465 q.captures
    + field 32 433 c.start + field 32 401 c.acked + field 24 377 c.entries + field 24 353 (min 0xFFFFFF c.omitted)
    + field 32 321 c.crc.toNat + q.fault.toNat))

/-- The capture goes on: whole groups of four are written, then, when no entry is still to come, the rest; when every
write is acknowledged, the header. -/
def captureGoes : Nat → State → Nat → Capture → State
  | 0, s, j, c => onSlice s j fun l => { l with capture := some c }
  | fuel + 1, s, j, c =>
    let last := c.left == 0 || c.closed
    if c.step = 1 ∧ (4 ≤ c.buffer.length ∨ (last ∧ c.buffer ≠ [])) then
      let (t, d) := captureFlush s j c
      captureGoes fuel t j d
    else if c.step = 1 ∧ last ∧ captureIdle (sliceAt s j) then
      let t := captureXact s j c.partition 2 (setting s (0x2E0500 + c.partition)) (captureHeader s c)
      let u := if c.truncated then bump t 0x2E0B03 else t
      onSlice u j fun l => { l with capture := some { c with step := 2 } }
    else onSlice s j fun l => { l with capture := some c }

/-- The capture of a slice goes on as far as it can. -/
def captureRun (s : State) (j : Nat) (c : Capture) : State := captureGoes (c.buffer.length + 2) s j c

/-- An entry is taken, or omitted once the capture takes no more (R470). -/
def Capture.add (c : Capture) (e : Payload) : Capture :=
  if c.closed ∨ 65472 ≤ c.entries + c.buffer.length then { c with omitted := c.omitted + 1, truncated := true }
  else { c with buffer := c.buffer ++ [e] }

/-- Whether a slice at a station captures a partition and takes entries. -/
def capturing (s : State) (n part : Nat) (p : Nat × Slice) : Bool :=
  match p.2.capture with
  | some c => c.partition == part && sliceStation s p.1 == n && c.step < 2
  | none => false

/-- A capture entry reaches the slice (R467). -/
def takeEntry (s : State) (n : Nat) (e : CaptureEntry) : State :=
  match s.slices.find? (capturing s n e.partition) with
  | some (j, l) => match l.capture with
    | some c => captureRun s j { c.add e.entry with left := c.left - 1 }
    | none => s
  | none => s

/-- The slice of a partition's capture. -/
def captureSlice (s : State) (p : Nat) : Option (Nat × Capture) :=
  s.slices.findSome? fun q => match q.2.capture with
    | some c => if c.partition = p then some (q.1, c) else none
    | none => none

/-- capture_limit_ac has passed since the start command (R470). -/
def captureLimited (s : State) (p : Nat) : State :=
  match captureSlice s p with
  | some (j, c) =>
    if c.step < 2 ∧ !c.closed then
      let t := passAc s (c.start + setting s 0x2E0601 - s.now)
      captureRun t j { c with closed := true, truncated := c.truncated || c.left != 0 }
    else s
  | none => s

/-- A capture write is acknowledged: the header gives the count when the last entry was (R469; with no entry, when the
header's zeroes were). An acknowledgement that fails its code check closes the capture with truncated 1 (Table 16.1). -/
def captureAcked (s : State) (j part : Nat) (bad : Bool) : State :=
  match (sliceAt s j).capture with
  | some c0 =>
    let c := { c0 with acked := s.now, closed := c0.closed || bad, truncated := c0.truncated || bad }
    if part = 0 then captureRun s j { c with step := 1 }
    else if part = 2 then onSlice s j fun l => { l with capture := some { c with step := 3 } }
    else captureRun s j c
  | none => s

/-! ## Compaction (R308, R309) -/

/-- The start of the hole below an extent: the end of the occupied run that lies highest below it. -/
def holeBelow (runs : List (Nat × Nat)) (base : Nat) : Nat :=
  (runs.filter fun r => r.1 < base).foldl (fun m r => max m (r.1 + r.2)) 0

/-- The extents of a slice that a move could take, each with the start of the hole below it. -/
def movable (s : State) (l : Slice) : List (Nat × Extent × Nat) :=
  let i := max 1 s.gelari.initiators
  (l.extents.filter fun p => !p.2.moving && p.2.releasing.isNone && (fnOf s p.2.fn).state == .enabled).filterMap fun p =>
    let hole := holeBelow ((occupied l p.2.fn (p.1 % i) i)) p.2.base
    if hole < p.2.base then some (p.1, p.2, hole) else none

/-- A copy of one slot waits: its read. -/
def moveXact (fn index slot : Nat) : Xact := ⟨.compaction, fn, 0, 8, [], 0, .moveRead index slot⟩

/-- A slice starts to move the lowest extent with a free block below it (R308). The manual does not say how extents of different
sub-regions compare: the model takes the least base offset over all of them (DESIGN CHOICE, log entry 72). -/
def startMove (s : State) (j : Nat) : State :=
  let l := sliceAt s j
  if setting s 0x290400 = 0 then s else
  match leastBy (fun p => p.2.1.base) (movable s l) with
  | none => s
  | some (i, e, hole) =>
    queueXact (setSlice s j { l with extents := tput l.extents i { e with moving := true, newBase := hole, cursor := 0 } }) j
      (moveXact e.fn i 0)

/-- A slot's copy is written: the cursor advances, and the move ends or goes on (R308); it stops where the function has
left ENABLED (R309). -/
def moveWritten (s : State) (j index : Nat) : State :=
  match extentAt s j index with
  | none => s
  | some e =>
    let e' := { e with cursor := e.cursor + 1 }
    let put := fun x => onSlice s j fun l => { l with extents := tput l.extents index x }
    if e'.cursor = e.length then bump (put { e' with base := e.newBase, moving := false }) 0x290506
    else if (fnOf s e.fn).state = .enabled then queueXact (put e') j (moveXact e.fn index e'.cursor)
    else put e'

/-! ## Tags and issue (R299 to R304) -/

/-- Tags that count against the shares: all but capture's. -/
def Slice.charged (l : Slice) : List TagUse := l.tags.filter fun t => t.xact.cls != .capture

/-- Whether a transaction is a spill of the slot under copy, which waits until the copy has passed it (R309). -/
def stopped (s : State) (j : Nat) (x : Xact) : Bool :=
  match x.purpose with
  | .spill h b => match extentAt s j (Handle.index h) with
    | some e => e.moving && b % max 1 e.length == e.cursor
    | none => false
  | _ => false

/-- Whether a transaction may take a tag (R299, R301), and a spill may write its slot (R309). -/
def tagFree (s : State) (j : Nat) (x : Xact) : Bool :=
  let l := sliceAt s j
  let i := max 1 s.gelari.initiators
  if x.cls = .capture then (l.tags.filter fun t => t.xact.cls == .capture).length < 16
  else
    let a := xactAddress s j x
    let bank := bankOf s a
    l.charged.length < poolSize s - 16 &&
    (l.charged.filter fun t => bankOf s t.xact.address == bank).length < 64 / i &&
    (l.charged.filter fun t => (bankOf s t.xact.address).1 == bank.1).length < 512 / i &&
    (l.charged.filter fun t => t.xact.fn == x.fn).length < fnSetting s x.fn 0x0F / i &&
    (x.cls != .compaction || (l.tags.filter fun t => t.xact.cls == .compaction).length < setting s 0x290401) && !stopped s j x

/-- Whether no earlier shadow record of a shadow record's function waits (R307). -/
def inShadowOrder (s : State) (j : Nat) (x : Xact) : Bool :=
  x.cls != .shadow || (sliceAt s j).waiting.find? (fun y => y.cls == .shadow && y.fn == x.fn) == some x

/-- Whether a waiting transaction is at the head of its bank group's queue (R300); capture writes have their own. What waits for
another bank group delays nothing in this one: a shadow record behind an earlier one, and a spill that its slot's copy stops, are
passed. A copy passes what waits behind such a spill (R309). -/
def atHead (s : State) (j : Nat) (x : Xact) : Bool :=
  let l := (sliceAt s j).waiting
  let beside := fun (y : Xact) => y.cls != .capture && bankOf s (xactAddress s j y) == bankOf s (xactAddress s j x)
  let waits := fun (y : Xact) => !inShadowOrder s j y || stopped s j y
  l.find? (fun y => if x.cls = .capture then y.cls == .capture else beside y && !waits y) == some x ||
  x.cls == .compaction && (l.any fun y => beside y && stopped s j y) &&
    l.find? (fun y => beside y && y.cls == .compaction) == some x

/-- The oldest transaction of a class that is ready to issue. -/
def readyOf (s : State) (j : Nat) (c : FerryClass) : Option Xact :=
  (sliceAt s j).waiting.find? fun x => x.cls == c && atHead s j x && inShadowOrder s j x && tagFree s j x

/-- The slots of a class in a window of 8 (R301). -/
def classWeight : FerryClass → Nat
  | .refill => 4
  | .spill => 2
  | .shadow => 1
  | .capture => 1
  | .compaction => 0

/-- Whether a class has a slot left in the window. -/
def hasSlot (w : List FerryClass) (c : FerryClass) : Bool := (w.filter (· == c)).length < classWeight c

/-- Whether the rotation lets a ready class issue (R301): it has a slot left, or no other ready class has; compaction
only where no other class is ready. -/
def classOpen (s : State) (j : Nat) (c : FerryClass) : Bool :=
  let l := (sliceAt s j).window
  let w := if l.length < 8 then l else []
  let others := ([.refill, .spill, .shadow, .capture] : List FerryClass).filter fun d => d != c && (readyOf s j d).isSome
  if c = .compaction then others.isEmpty else hasSlot w c || others.all fun d => !hasSlot w d

/-- A transaction issues: it leaves the queue with a tag (R299), a shadow record's answer is owed in order (R409). -/
def issueXact (s : State) (j : Nat) (x : Xact) : State :=
  let l := sliceAt s j
  let a := xactAddress s j x
  let tag := leastFrom (fun t => !(l.tags.any fun u => u.tag == t)) (poolSize s) 0
  match xiDrive s j x.purpose.writes x.beats a x.stamp tag x.data (2 ^ (32 * x.beats) - 1) with
  | none => s
  | some t =>
    let rest := match takeFirst (· == x) l.waiting with | some (_, r) => r | none => l.waiting
    let w := if l.window.length < 8 then l.window else []
    let owed := match x.purpose with
      | .shadow home h fn seq => l.shadowOut ++ [⟨fn, seq, home, h, false⟩]
      | _ => l.shadowOut
    setSlice t j { l with
      waiting := rest, window := w ++ [x.cls], shadowOut := owed
      tags := l.tags ++ [⟨tag, s.now + setting s 0x290300, { x with address := a }, [], false, false, false⟩] }

/-- A slice in service issues a transaction of a class (R301). -/
def issueClass (s : State) (j : Nat) (c : FerryClass) : State :=
  match readyOf s j c with
  | some x => if classOpen s j c then issueXact s j x else s
  | none => s

/-- A tag has been outstanding for ferry_slow_ac (R304). -/
def tagSlow (s : State) (j tag : Nat) : State :=
  match (sliceAt s j).tags.find? fun t => t.tag == tag && !t.slow with
  | some u =>
    let t := passAc s (u.due - s.now)
    let bank := bankOf t u.xact.address
    raise (onSlice t j fun l => { l with tags := l.tags.map fun x => if x.tag = tag then { x with slow := true } else x })
      0x30 (generic bank.1 bank.2 0 0 j)
  | none => s

/-! ## Completion (R536, R537) -/

/-- A transaction's last transfer has arrived: its tag is free and its purpose served. -/
def xactDone (s : State) (j : Nat) (u : TagUse) : State :=
  let data := u.beats.flatMap fun b => bytesBE 32 b.toNat
  let freeBuf := fun (t : State) => match u.xact.purpose with
    | .spill h b => onSlice t j fun l => { l with spillBufs := l.spillBufs.filter fun x => x != (h, b) }
    | _ => t
  if u.discard then
    match u.xact.purpose.index with
    | some i => extentClears (freeBuf s) i
    | none => s
  else match u.xact.purpose with
    | .refill h b home second => refillRead s j u h b home second data
    | .spill _ _ => bump (freeBuf s) 0x290501
    | .shadow _ _ fn seq => shadowAcked s j fn seq
    | .capture _ part => captureAcked s j part u.bad
    | .moveRead i slot => onSlice s (servingSlice s i) fun l => { l with
        waiting := l.waiting ++ [⟨.compaction, u.xact.fn, 0, 8, data, 0, .moveWrite i slot⟩] }
    | .moveWrite i _ => moveWritten s (servingSlice s i) i
    | .keeper h home n _ => send s (sliceStation s j) home (.imagePart h n u.bad data)

/-- A response transfer for a tag of the pool: a read's data, a write's acknowledgement. -/
def tagResponse (s : State) (x : XiRsp) (u : TagUse) : State :=
  let v := { u with beats := if x.read then u.beats ++ [x.data] else u.beats, bad := u.bad || x.err || x.bad }
  let j := x.initiator
  if x.last then xactDone (onSlice s j fun l => { l with tags := l.tags.filter fun t => t.tag != x.tag }) j v
  else onSlice s j fun l => { l with tags := l.tags.map fun t => if t.tag = x.tag then v else t }

/-- A response transfer on a ferry initiator: for a tag of the pool, or for a seal write (R236). -/
def takeXi (s : State) (x : XiRsp) : State :=
  match (sliceAt s x.initiator).tags.find? fun t => t.tag == x.tag with
  | some u => if x.read = !u.xact.purpose.writes then tagResponse s x u else s
  | none =>
    let p := xiAt s x.initiator
    match tget p.sealsOut x.tag with
    | some k => if x.read then s
      else sealWritten (setXi s x.initiator { p with sealsOut := tdel p.sealsOut x.tag }) k
    | none => s

/-! ## Drains (R310) -/

/-- A function's ferry work at a slice is discarded: waiting transactions go, results of the outstanding are dropped. -/
def sliceDiscards (s : State) (j fn : Nat) : State :=
  let mine := fun (x : Xact) => x.fn == fn && x.cls != .capture
  onSlice s j fun l => { l with
    waiting := l.waiting.filter fun x => !mine x
    tags := l.tags.map fun u => if mine u.xact then { u with discard := true } else u
    spillIn := l.spillIn.filter fun x => Handle.fn x.handle != fn
    spillBufs := l.spillBufs.filter fun b => Handle.fn b.1 != fn
    shadowOut := l.shadowOut.filter fun r => r.fn != fn
    draining := if l.draining.contains fn then l.draining else l.draining ++ [fn] }

/-- Whether a slice has no tag of a function outstanding. -/
def sliceQuiet (s : State) (j fn : Nat) : Bool :=
  (sliceAt s j).tags.all fun u => u.xact.fn != fn || u.xact.cls == .capture

/-- A slice's drain of a function is done: its extent entries go, their seqs stay. -/
def sliceDrained (s : State) (j fn : Nat) : State :=
  onSlice s j fun l => { l with
    extents := l.extents.filter fun p => p.2.fn != fn
    draining := l.draining.filter (· != fn) }

end Sys2Proof.Machine
end

