-- ==== Sys2Proof/Machine/Rules.lean ====
section
/-!
DEFINITION. Fire rules, their watches and feeds, launches and engine loads (chapter 10).
-/

namespace Sys2Proof.Machine

/-! ## Fields (Tables 10.3 to 10.5) -/

/-- Input slot `i` of the payload, 96 bits. -/
def inputSlot (p : Payload) (i : Nat) : BitVec 96 := BitVec.ofNat 96 (bits p (511 - 96 * i) (416 - 96 * i))

/-- The input of a slot, its handle in the function. -/
def ruleInput (fn : Nat) (v : BitVec 96) : RuleInput where
  handle := handleOf (handleHi fn (bits v 91 82) (bits v 81 78) (bits v 77 64)) (BitVec.ofNat 16 (bits v 63 48)) 0
  threshold := bits v 47 16
  step := bits v 15 0

/-- Columns of the distance table that a locality may name (Table 10.3, R338). -/
def localityOk (c : Nat) : Bool := c < 66 || (96 ≤ c && c < 128) || c == 0xFF

/-- The engines of an eligible set (R320). -/
def eligible (first count : Nat) (mask : BitVec 4) : List Nat :=
  (List.range count).flatMap fun i => (maskKinds mask).map fun k => 4 * (first + i) + k

/-- The inputs that a creation names. -/
def ruleInputs (fn : Nat) (a : Word) (p : Payload) : List RuleInput :=
  (List.range (bits a 60 58)).map fun i => ruleInput fn (inputSlot p i)

/-- The PRIVILEGE conditions of Table 10.11 that the record alone decides. -/
def ruleFieldsOk (s : State) (fn : Nat) (a b : Word) (data : Option Payload) : Bool :=
  match data with
  | none => false
  | some p =>
    let action := bits a 63 62
    let n := bits a 60 58
    let first := bits a 10 0
    let count := bits a 22 11
    let mask := BitVec.ofNat 4 (bits a 26 23)
    let kw := bits p 127 0
    let slots := (List.range 4).all fun i =>
      let v := inputSlot p i
      if i < n then
        bits v 95 92 == 0 && (bits v 81 78 != 4 || (bits v 15 0 == 0 && 1 ≤ bits v 47 16))
      else v == 0
    action ≤ 2 && 1 ≤ n && n ≤ 4 && localityOk (bits a 57 50) && bits a 49 27 == 0 && slots &&
    (if action = 0 then
      b == 0 && mask != 0 && 1 ≤ count && count ≤ 64 && first + count ≤ 2048 &&
      count * (maskKinds mask).length ≤ 64 &&
      (List.range count).all fun i => entryOf s (4 * (first + i)) < 66 && corePartition s (first + i) == fnPartition s fn
    else
      bits a 26 0 == 0 &&
      (if action = 1 then kw < 2 else bits p 127 46 == 0 && agentOk (bits p 45 32)))

/-- The cost of a rule's home, by a station's chart (R341). -/
def ruleCost (s : State) (entry : Nat) (r : Rule) (n : Nat) : Nat :=
  let d := courseDistance s.gelari
  let ins := r.inputs.map fun i => d (homeOf s entry (Handle.index i.handle)) n
  let tgt := match r.action with
    | 1 => d (homeOf s entry (Handle.index r.target)) n
    | 2 => d (entryOf s (bits r.kernel 45 32)) n
    | _ => 0
  let engs := (eligible r.firstCore r.coreCount r.engineMask).map fun x => d (entryOf s x) n
  ins.sum + tgt + engs.sum

/-! ## Rules at their home -/

/-- The rule of a handle at a home. -/
def ruleAt (s : State) (home : Nat) (h : Word) : Option (Obj × Rule) :=
  match liveObj s home h with
  | some o => match o.body with
    | .rule r => some (o, r)
    | _ => none
  | none => none

/-- A rule is put back; a change of state or a firing has its shadow record (Table 12.9). -/
def putRule (s : State) (home : Nat) (o : Obj) (r : Rule) (agent : Nat) : State :=
  let o' := { o with body := .rule r }
  let old := match o.body with | .rule q => (q.state, q.fireSeq) | _ => (0, 0)
  let t := setObj s home (hiIndex o.hi) o'
  if old = (r.state, r.fireSeq) then t else noteShadow t o' 2 .ok agent

/-- Messages to the inputs that still hold a watch. -/
def toInputs (s : State) (home : Nat) (r : Rule) (f : Nat → Word → MsgBody) : State :=
  sendAll s home ((r.inputs.mapIdx fun i x => (i, x)).filterMap fun p =>
    if r.lapsedInputs.contains p.1 then none
    else some (homeOf s home (Handle.index p.2.handle), f p.1 p.2.handle))

/-- A rule becomes LAPSED (R327): counted, its watches DORMANT. -/
def lapseRule (s : State) (home : Nat) (o : Obj) (r : Rule) (st : Status) : State :=
  let s1 := bumpFn (bump s 0x2A0503) (hiFn o.hi) 0x27
  let r' := { r with state := 4, lapse := some st, retry := false, disarmPending := false, met := [] }
  let s2 := toInputs s1 home r fun i h => .deactivate h (nameOf o.hi) i
  putRule s2 home o r' 0

/-- A rule's action is complete (R324). -/
def ruleComplete (s : State) (home : Nat) (o : Obj) (r : Rule) : State :=
  let seq := (r.armSeq + 1) % 256
  let r1 := { r with armSeq := seq, met := [], refused := [], retry := false }
  match r.lapse with
  | some st => lapseRule s home o r1 st
  | none =>
    if r.rearm && !r.disarmPending then
      let t := toInputs s home r1 fun i h => .consume h (nameOf o.hi) i seq
      putRule t home o { r1 with state := 1 } 0
    else
      let t := toInputs s home r1 fun i h => .consumeDormant h (nameOf o.hi) i seq
      putRule t home o { r1 with state := if r.disarmPending then 0 else 3, disarmPending := false } 0

/-- An action that ends with a status other than OK lapses the rule when it completes (R327). -/
def ruleFails (s : State) (home : Nat) (o : Obj) (r : Rule) (st : Status) : State :=
  ruleComplete s home o { r with lapse := some (r.lapse.getD st) }

/-- The column that a launch is measured to (R328). -/
def Rule.column (s : State) (home : Nat) (r : Rule) : Nat :=
  if r.locality = 0xFF then
    match r.inputs with
    | i :: _ => homeOf s home (Handle.index i.handle)
    | [] => home
  else r.locality

/-- The key of an engine, its terms in one number (R328). -/
def launchKey (s : State) (home loc : Nat) (r : Rule) (x : Nat) : Nat :=
  let m := tgetD (station s home).mirror x 0
  let d := distanceOf s (siteOf s (agentCore x)) loc
  (m * 256 + d) * 8192 + (x + 8192 + 8191 - r.lastTarget) % 8192

/-- select() (R328). -/
def selectEngine (s : State) (home : Nat) (r : Rule) : Option Nat :=
  let loc := r.column s home
  leastBy (launchKey s home loc r) ((eligible r.firstCore r.coreCount r.engineMask).filter fun x =>
    entryOf s x < 66 && !agentFenced s x && !r.refused.contains x)

/-- The descriptor of a launch (Table 10.9). -/
def descriptor (r : Rule) (fireSeq target load dist : Nat) : Payload :=
  BitVec.ofNat 512 (r.kernel.toNat * 2 ^ 384 + r.argument.toNat * 2 ^ 320 + field 64 256 fireSeq + field 13 243 target
    + field 4 239 load + field 8 231 dist)

/-- A launch is chosen and sent; with no engine left the rule lapses with FENCED (R328, R329). -/
def sendLaunch (s : State) (home : Nat) (o : Obj) (r : Rule) : State :=
  match selectEngine s home r with
  | none => ruleFails s home o r .fenced
  | some x =>
    let seen := tgetD (station s home).mirror x 0
    let d := distanceOf s (siteOf s (agentCore x)) (r.column s home)
    let s1 := onStation s home fun st => { st with mirror := nput st.mirror x (min 15 (seen + 1)) }
    let s2 := send s1 home (entryOf s x) (.launch (nameOf o.hi) x r.scope r.fireSeq (descriptor r r.fireSeq x seen d))
    putRule s2 home o { r with lastTarget := x } 0

/-- The arrival of an arrive action is sent (R318). -/
def sendArrive (s : State) (home : Nat) (o : Obj) (r : Rule) : State :=
  let agent := bits r.kernel 45 32
  let epoch := BitVec.ofNat 32 (bits r.kernel 31 0 + r.fireSeq + 2 ^ 32 - 1)
  send s home (entryOf s agent) (.arrive (nameOf o.hi) r.target agent epoch 1 r.scope)

/-- fire() (R324). -/
def fireRule (s : State) (home : Nat) (o : Obj) (r : Rule) : State :=
  let r1 := { r with state := 2, fireSeq := (r.fireSeq + 1) % 2 ^ 64, refused := [], retry := false }
  let s1 := putRule (bumpFn (bump s 0x2A0502) (hiFn o.hi) 0x26) home o r1 0
  let o1 := { o with body := .rule r1 }
  match r.action with
  | 0 => sendLaunch s1 home o1 r1
  | 1 =>
    send s1 home (homeOf s1 home (Handle.index r.target)) (.feedPush r.target (nameOf o.hi) ⟨r.argument, bit r.kernel 0⟩)
  | _ => sendArrive s1 home o1 r1

/-- A MET notice (R324, R325). -/
def ruleMet (s : State) (home : Nat) (o : Obj) (r : Rule) (slot seq : Nat) : State :=
  if r.state = 1 ∧ seq = r.armSeq then
    let met := if r.met.contains slot then r.met else r.met ++ [slot]
    let r1 := { r with met := met }
    if met.length = r.inputs.length then fireRule s home o r1
    else setObj s home (hiIndex o.hi) { o with body := .rule r1 }
  else s

/-- A LAPSED notice (R327): of an input's watch, or of the target's feed. -/
def ruleLapses (s : State) (home : Nat) (o : Obj) (r : Rule) (slot : Nat) (feed : Bool) (st : Status) : State :=
  let r1 := if feed then r else { r with lapsedInputs := r.lapsedInputs ++ [slot] }
  match r.state with
  | 2 =>
    -- a feed that has lapsed will report no token written: the action ends with its status
    if feed then ruleFails s home o { r1 with lapse := r1.lapse } st
    else setObj s home (hiIndex o.hi) { o with body := .rule { r1 with lapse := some (r1.lapse.getD st) } }
  | 4 => setObj s home (hiIndex o.hi) { o with body := .rule r1 }
  | _ => lapseRule s home o r1 st

/-- A launch's or an arrival's answer (R318, R329). An answer of another engine than the chosen one is old. -/
def actionAnswered (s : State) (home : Nat) (o : Obj) (r : Rule) (st : Status) (engine : Nat) : State :=
  if r.state ≠ 2 then s else
  match r.action, st with
  | 0, .ok => if engine = r.lastTarget then ruleComplete s home o r else s
  | 0, .fenced => sendLaunch s home o { r with refused := r.refused ++ [engine] }
  | 2, .ok => ruleComplete s home o r
  | 2, .ahead => setObj s home (hiIndex o.hi) { o with body := .rule { r with retry := true } }
  | _, st => ruleFails s home o r st

/-- arrive_retry_fc has passed after AHEAD (R318). -/
def arriveAgain (s : State) (home index : Nat) : State :=
  match objAt s home index with
  | some o => match o.body with
    | .rule r =>
      if r.state = 2 ∧ r.retry then
        let t := passFc s (setting s 0x2A0301)
        sendArrive (setObj t home index { o with body := .rule { r with retry := false } }) home o r
      else s
    | _ => s
  | none => s

/-- A feed's token was written, or the push failed (R317). -/
def rulePushed (s : State) (home : Nat) (o : Obj) (r : Rule) (st : Option Status) : State :=
  if r.state = 2 ∧ r.action = 1 then
    match st with
    | none => ruleComplete s home o r
    | some x => ruleFails s home o r x
  else s

/-! ## Creation and destruction (R321, R330) -/

/-- Subscriptions of a launch rule: its eligible set's entry stations, each once. -/
def ruleStations (s : State) (r : Rule) : List Nat :=
  ((eligible r.firstCore r.coreCount r.engineMask).map (entryOf s)).foldl (fun l n => if l.contains n then l else l ++ [n]) []

/-- SUBSCRIBE or UNSUBSCRIBE goes to each of a rule's stations. -/
def subscribeRule (s : State) (home : Nat) (r : Rule) (on : Bool) : State :=
  sendAll s home ((ruleStations s r).map (·, .loadSubscribe on))

/-- Whether a rule's input or target handle passes checks 6 and 7 at the rule's home, with a permitted class. -/
def ruleHandleOk (s : State) (fn : Nat) (classes : List Nat) (h : Word) : Bool :=
  Handle.fn h == fn && classes.contains (Handle.cls h) && Handle.sel h == 0 && tagOk s h

/-- A new rule (R319). -/
def newRule (fn : Nat) (a b : Word) (p : Payload) : Rule where
  argument := 0
  state := 0
  action := bits a 63 62
  rearm := bit a 61
  inputs := ruleInputs fn a p
  met := []
  locality := bits a 57 50
  scope := 0
  engineMask := BitVec.ofNat 4 (bits a 26 23)
  coreCount := bits a 22 11
  firstCore := bits a 10 0
  lastTarget := 0
  lapse := none
  armSeq := 0
  disarmPending := false
  target := b
  kernel := BitVec.ofNat 128 (bits p 127 0)
  fireSeq := 0
  refused := []
  lapsedInputs := []
  retry := false

/-- Whether every input and target handle of a rule passes (R321); the payload has four input slots. -/
def ruleHandlesOk (s : State) (fn : Nat) (r : Rule) : Bool :=
  ((r.inputs.take 4).all fun i => ruleHandleOk s fn [1, 2, 4] i.handle) &&
  match r.action with
  | 1 => ruleHandleOk s fn [4] r.target
  | 2 => ruleHandleOk s fn [2] r.target
  | _ => true

/-- FR_CREATE at its home (R321): the handles (step 1), the extension record and the object (step 2), then the messages. -/
def createRule (s : State) (home : Nat) (op : FwdOp) : State :=
  let fn := Handle.fn op.handle
  let r := newRule fn op.a op.b (op.data.getD 0)
  if !ruleHandlesOk s fn r then refuse s home op .badhandle
  else if !objectQuota s fn || !recordsFree s home fn 1 then refuse s home op .quota
  else match newObj s home fn 5 (.rule r) with
    | none => refuse s home op .quota
    | some (o, t) =>
      let name := nameOf o.hi
      let u := toInputs t home r fun i h =>
        let x := r.inputs.getD i ⟨0, 0, 0⟩
        .register h i x.threshold x.step name
      let v := match r.action with
        | 0 => subscribeRule u home r true
        | 1 => send u home (homeOf u home (Handle.index r.target)) (.feedRegister r.target name)
        | _ => send u home (homeOf u home (Handle.index r.target)) (.validate r.target (bits r.kernel 45 32) name)
      let waiting := r.inputs.length + (if r.action = 0 then 0 else 1)
      addJob v home ⟨o.hi, .ruleCreate waiting none [], op.entry, op.tag, op.agent⟩

/-- Everything that a refused creation took is released (R321). -/
def undoRule (s : State) (home : Nat) (o : Obj) (r : Rule) (granted : List (Nat × Nat × Bool)) : State :=
  let s1 := granted.foldl (fun t g =>
    let h := if g.2.2 then r.target else (r.inputs.getD g.2.1 ⟨0, 0, 0⟩).handle
    send t home g.1 (.releaseWatch h (nameOf o.hi) g.2.1 g.2.2)) s
  abandon (if r.action = 0 then subscribeRule s1 home r false else s1) home o

/-- An input's or target's answer to a registration (R321): slot 15 marks the validation of an arrive target, which
takes no record. -/
def ruleRegistered (s : State) (home : Nat) (h : Word) (refusal : Option Status) (slot src : Nat) (feed : Bool) : State :=
  match ruleAt s home h, jobOf s home (Handle.hi h) with
  | some (o, r), some j => match j.kind with
    | .ruleCreate waiting old granted =>
      let no := match old with | some x => some x | none => refusal
      let got := if refusal.isNone && slot < 8 then granted ++ [(src, slot, feed)] else granted
      if waiting ≤ 1 then
        let t := dropJob s home j.hi
        match no with
        | some st => jobAnswer (undoRule t home o r got) home j (plain st)
        | none =>
          let u := publish t home o j.agent
          announce u home o.hi j.entry j.tag j.agent (issue u o.hi 0) 0
      else setJob s home { j with kind := .ruleCreate (waiting - 1) no got }
    | _ => s
  | _, _ => s

/-- DESTROY of a rule (R330): every watch and feed is released, and the index returns with the last answer. -/
def destroyRule (s : State) (home : Nat) (o : Obj) (r : Rule) (entry tag agent : Nat) : State :=
  let name := nameOf o.hi
  let s1 := toInputs s home r fun i h => .releaseWatch h name i false
  let s2 := if r.action = 1 then send s1 home (homeOf s1 home (Handle.index r.target)) (.releaseWatch r.target name 0 true) else s1
  let s3 := if r.action = 0 then subscribeRule s2 home r false else s2
  let waiting := (r.inputs.length - r.lapsedInputs.length) + (if r.action = 1 then 1 else 0)
  let s4 := dropObj s3 home (hiIndex o.hi)
  if waiting = 0 then
    jobAnswer (retireHi s4 home o.hi agent) home ⟨o.hi, .ruleDestroy 0, entry, tag, agent⟩ ⟨.ok, 0, 0, none, none⟩
  else addJob s4 home ⟨o.hi, .ruleDestroy waiting, entry, tag, agent⟩

/-- A RELEASED answer. -/
def ruleReleased (s : State) (home : Nat) (h : Word) : State :=
  match jobOf s home (Handle.hi h) with
  | some j => match j.kind with
    | .ruleDestroy waiting =>
      if waiting ≤ 1 then jobAnswer (retireHi (dropJob s home j.hi) home j.hi j.agent) home j ⟨.ok, 0, 0, none, none⟩
      else setJob s home { j with kind := .ruleDestroy (waiting - 1) }
    | _ => s
  | none => s

/-! ## Operations (R326, R333) -/

/-- FR_ARM. -/
def frArm (s : State) (home : Nat) (o : Obj) (r : Rule) (op : FwdOp) : State :=
  if bit op.a 8 && !localityOk (bits op.a 7 0) then refuse s home op .privilege
  else match r.state with
    | 4 => refuse s home op (r.lapse.getD .stale)
    | 1 | 2 => refuse s home op .stale
    | _ =>
      let r1 := { r with
        argument := op.b, locality := if bit op.a 8 then bits op.a 7 0 else r.locality, scope := op.scope, met := []
        armSeq := (r.armSeq + 1) % 256, state := 1 }
      let t := toInputs (putRule s home o r1 op.agent) home r1 fun i h => .activate h (nameOf o.hi) i r1.armSeq
      reply t home op (BitVec.ofNat 64 r.fireSeq) 0

/-- FR_DISARM. -/
def frDisarm (s : State) (home : Nat) (o : Obj) (r : Rule) (op : FwdOp) : State :=
  match r.state with
  | 1 =>
    let r1 := { r with state := 0, armSeq := (r.armSeq + 1) % 256, met := [] }
    let t := toInputs (putRule s home o r1 op.agent) home r1 fun i h => .deactivate h (nameOf o.hi) i
    reply t home op (BitVec.ofNat 64 r.fireSeq) 0
  | 2 =>
    reply (setObj s home (hiIndex o.hi) { o with body := .rule { r with disarmPending := true } }) home op
      (BitVec.ofNat 64 r.fireSeq) 0
  | _ => refuse s home op .stale

/-- FR_READ's value_b (Table 10.10). -/
def ruleWord (r : Rule) : Nat :=
  r.state + (r.met.map fun i => 2 ^ (i + 4)).sum + (match r.lapse with | some x => x.code * 2 ^ 8 | none => 0)
    + r.armSeq * 2 ^ 16 + r.lastTarget * 2 ^ 24

/-- FR_READ. -/
def frRead (s : State) (home : Nat) (r : Rule) (op : FwdOp) : State :=
  answer s home op ⟨.ok, BitVec.ofNat 64 r.fireSeq, BitVec.ofNat 64 (ruleWord r),
    some (descriptor r (r.fireSeq + 1) 0 0 0), none⟩

/-- The fire rule operations at the home. -/
def homeRule (s : State) (home : Nat) (o : Obj) (r : Rule) (op : FwdOp) : State :=
  match op.op with
  | .frArm => frArm s home o r op
  | .frDisarm => frDisarm s home o r op
  | .frRead => frRead s home r op
  | _ => refuse s home op .badhandle

/-! ## Watches and feeds at their object's home -/

/-- The status with which an object lapses a watch at once (Table 10.1, R588); none while it is sound. -/
def lapseStatus (o : Obj) : Option Status :=
  if o.failed then some .integrity else
  match o.body with
  | .weir w => if w.state = 2 then some .broken else if w.state = 3 then some .linklost else none
  | .queue q => if q.faultAt.isSome then some .integrity else none
  | _ => none

/-- The answer to a registration. -/
def regAnswer (s : State) (n : Nat) (rule : Word) (refusal : Option Status) (slot : Nat) (feed : Bool) : State :=
  send s n (ruleHome s n (Handle.hi rule)) (.registered rule refusal slot n feed)

/-- Whether an object may take one more watch or feed record (R322). -/
def recordRefused (s : State) (n : Nat) (o : Obj) : Bool := 16 ≤ o.watches.length || !recordsFree s n (hiFn o.hi) 1

/-- REGISTER (R313, R315, R321): a DORMANT watch; a queue's credit is its packets. A lapsing object answers and lapses
the rule. -/
def registerWatch (s : State) (n : Nat) (h : Word) (slot threshold step : Nat) (rule : Word) : State :=
  match liveObj s n h with
  | none => regAnswer s n rule (some .badhandle) slot false
  | some o =>
    let tooBig := match o.body with | .queue q => decide (q.capacity < threshold) | _ => false
    let credit := match o.body with | .queue q => q.packets | _ => 0
    if tooBig then regAnswer s n rule (some .privilege) slot false
    else if recordRefused s n o then regAnswer s n rule (some .quota) slot false
    else
      let w : Watch := ⟨false, Handle.hi rule, slot, 0, BitVec.ofNat 64 threshold, step, credit, 0, false⟩
      let t := regAnswer s n rule none slot false
      match lapseStatus o with
      | some st => sendAll t n [lapsedMsg t n st w]
      | none => setObj t n (hiIndex o.hi) { o with watches := o.watches ++ [w] }

/-- FEED_REGISTER (R321). -/
def registerFeed (s : State) (n : Nat) (h : Word) (rule : Word) : State :=
  match queueAt s n h with
  | none => regAnswer s n rule (some .badhandle) 0 true
  | some (o, _) =>
    if recordRefused s n o then regAnswer s n rule (some .quota) 0 true
    else
      let w : Watch := ⟨true, Handle.hi rule, 0, 0, 0, 0, 0, 0, false⟩
      let t := regAnswer s n rule none 0 true
      match lapseStatus o with
      | some st => sendAll t n [lapsedMsg t n st w]
      | none => setObj t n (hiIndex o.hi) { o with watches := o.watches ++ [w] }

/-- The validation of an arrive target (R321). -/
def validateArrive (s : State) (n : Nat) (h : Word) (agent : Nat) (rule : Word) : State :=
  match liveObj s n h with
  | some o => match o.body with
    | .weir w =>
      let ok := (w.params.parts.indexOf agent).isSome && w.params.redOp == 0
      regAnswer s n rule (if ok then none else some .privilege) 15 false
    | _ => regAnswer s n rule (some .badhandle) 15 false
  | none => regAnswer s n rule (some .badhandle) 15 false

/-- A rule's watch of an object changes, and the object's watches are evaluated. -/
def onWatch (s : State) (n : Nat) (h rule : Word) (slot : Nat) (f : Body → Watch → Watch) : State :=
  match liveObj s n h with
  | none => s
  | some o =>
    putObserved s n { o with watches := o.watches.map fun w =>
      if !w.feed && w.ruleHi == Handle.hi rule && w.slot == slot then f o.body w else w }

/-- ACTIVATE (R326). -/
def activateWatch (seq : Nat) (_ : Body) (w : Watch) : Watch := { w with phase := 1, armSeq := seq }

/-- DEACTIVATE (R326): a MET queue watch returns its claim. -/
def deactivateWatch (b : Body) (w : Watch) : Watch :=
  { w with phase := 0, credit := if b.isQueue && w.phase == 2 then w.credit + w.threshold.toNat else w.credit }

/-- CONSUME and CONSUME_DORMANT (R324): a counter's or weir's threshold advances. -/
def consumeWatch (dormant : Bool) (seq : Nat) (b : Body) (w : Watch) : Watch :=
  let t := match b with
    | .counter _ => w.threshold + BitVec.ofNat 64 w.step
    | .weir _ => BitVec.ofNat 64 ((w.threshold.toNat + w.step) % 2 ^ 32)
    | _ => w.threshold
  { w with threshold := t, phase := if dormant then 0 else 1, armSeq := seq }

/-- RELEASE (R330): the record is freed and the rule told. -/
def releaseWatchAt (s : State) (n : Nat) (h rule : Word) (slot : Nat) (feed : Bool) : State :=
  let t := match liveObj s n h with
    | some o => setObj s n (hiIndex o.hi) { o with watches := o.watches.filter fun w =>
        !(w.feed == feed && w.ruleHi == Handle.hi rule && (feed || w.slot == slot)) }
    | none => s
  send t n (ruleHome t n (Handle.hi rule)) (.released rule)

/-- FEED_PUSH (R317): the token is held in the feed record and written as soon as there is space; a queue that cannot
take it answers PUSH_FAILED. -/
def feedArrives (s : State) (n : Nat) (h rule : Word) (tok : Token) : State :=
  let back := fun (st : Status) =>
    if rule = 0 then s else send s n (ruleHome s n (Handle.hi rule)) (.pushed rule (some st))
  match queueAt s n h with
  | none => back .badhandle
  | some (o, q) =>
    match lapseStatus o with
    | some st => back st
    | none =>
      let ws := if rule = 0 then o.watches ++ [⟨true, 0, 0, 1, tok.word, 0, 0, 0, tok.endMark⟩] else o.watches.map fun w =>
        if w.feed && w.ruleHi == Handle.hi rule then { w with phase := 1, threshold := tok.word, endMark := tok.endMark } else w
      (feedAndSettle s n { o with watches := ws } q).1

/-! ## Launches and loads at the entry station (R329, R331) -/

/-- The subscribers of a station, each once. -/
def subscribersOf (st : Station) : List Nat :=
  st.subscribers.foldl (fun l n => if l.contains n then l else l ++ [n]) []

/-- A block becomes due to a subscriber. -/
def dueBlock (t : Table (List Nat)) (n b : Nat) : Table (List Nat) :=
  let l := tgetD t n []
  if l.contains b then t else tput t n (l ++ [b])

/-- An engine's load at its entry station; its block is due to every subscriber (R331). -/
def setLoad (s : State) (n engine load : Nat) : State :=
  onStation s n fun st =>
    if tgetD st.loads engine 0 = load then st
    else { st with
      loads := nput st.loads engine load
      digestDue := (subscribersOf st).foldl (fun t k => dueBlock t k (engine / 128)) st.digestDue }

/-- A launch reaches the target's entry station (R329). -/
def launchArrives (s : State) (n : Nat) (rule : Word) (engine scope fireSeq : Nat) (d : Payload) : State :=
  if agentFenced s engine then
    send s n (ruleHome s n (Handle.hi rule)) (.launchAnswer rule .fenced engine)
  else
    let m : PushMsg :=
      { agent := engine, wait := none, cookie := 0, handle := issue s (Handle.hi rule) 0
        value := BitVec.ofNat 64 fireSeq, status := .ok, opcode := .frArm, invalidate := true, scope := scope
        launch := some (n, Handle.hi rule, d) }
    onStation s n fun st => { st with ready := st.ready ++ [m] }

/-- An arrive action reaches the agent's entry station (R318): classified as that agent's own arrival, a release at the
rule's scope (R387). -/
def arriveActs (s : State) (n : Nat) (rule weir : Word) (agent : Nat) (e : BitVec 32) (release scope : Nat) : State :=
  let back := fun (t : State) (st : Status) =>
    send t n (ruleHome t n (Handle.hi rule)) (.launchAnswer rule st agent)
  if (fnOf s (Handle.fn weir)).state ≠ .enabled then back s .draining
  else match nodeFor s n weir with
    | none => back s .badhandle
    | some x =>
      if x.params.keeper.isSome then back s .privilege
      else match arrivalRefusal s n x agent e none with
        | some i => back (countStale s (Handle.fn weir) i.status) i.status
        | none =>
          let (t, _) := countArrival (weirTest s (Handle.fn weir) x.params (release != 0) scope) n (Handle.index weir) x agent
            e none
          checkNode (back t .ok) n (Handle.index weir) (odd32 e)

/-- SUBSCRIBE and UNSUBSCRIBE (R331): at a new subscriber, every block with a load is due to it. -/
def subscribeLoads (s : State) (n src : Nat) (on : Bool) : State :=
  onStation s n fun st =>
    if on then
      { st with subscribers := st.subscribers ++ [src]
                digestDue := if st.subscribers.contains src then st.digestDue
                  else (st.loads.map fun p => p.1 / 128).foldl (fun t b => dueBlock t src b) st.digestDue }
    else
      let rest := st.subscribers.erase src
      { st with subscribers := rest, digestDue := if rest.contains src then st.digestDue else tdel st.digestDue src }

/-- A digest period ends at a station (R331). -/
def sendDigests (s : State) (n : Nat) : State :=
  let st := station s n
  let msgs := st.digestDue.flatMap fun p => p.2.map fun b =>
    (p.1, MsgBody.digest (128 * b) (st.loads.filter fun q => q.1 / 128 == b))
  sendAll (setStation s n { st with digestDue := [] }) n msgs

/-- A digest reaches a subscriber (R331): the loads of the block's engines that the sender serves are replaced. -/
def digestArrives (s : State) (n src first : Nat) (loads : Table Nat) : State :=
  onStation s n fun st =>
    { st with mirror := (List.range 128).foldl (fun t k =>
        if entryOf s (first + k) = src then nput t (first + k) (tgetD loads (first + k) 0) else t) st.mirror }

end Sys2Proof.Machine
end

