-- ==== Sys2Proof/Machine/Home.lean ====
section
/-!
DEFINITION. An operation at its home: checks 9 and 10 (Table 2.4), the operations that act on an object of any class, and
the order that shadow records impose on a home's messages (R408).
-/

namespace Sys2Proof.Machine

/-! ## The shadow order (R407, R408) -/

/-- The messages that a home holds until the step's record is written: responses, wakes, grants, completions, subscribe
replies, watch notices and seal messages, and what a firing sends, so that every change that follows from it has a greater seq (R411). -/
def heldKind : MsgBody → Bool
  | .response .. | .registeredWait .. | .withdrawn .. | .wake .. | .popGrant .. | .completion .. | .beaconUpdate ..
  | .registered .. | .met .. | .lapsed .. | .pushed .. | .launch .. | .feedPush .. | .arrive .. | .launchAnswer ..
  | .sealDeposit .. | .sealRelease .. | .sealDiscard .. | .subscribeReply .. => true
  | .caravan out _ parts => out && headKind ((parts.headD (0, [])).1) == 0x13
  | _ => false

/-- Whether a station holds messages behind a record of an object. -/
def holdsFor (st : Station) (hi : BitVec 40) : Bool := st.shadowHolds.any fun h => h.objs.contains hi

/-- A step of a home on an object: where records are due, or earlier ones are not written yet, its messages are held
behind the records. -/
def homeStep (s : State) (n : Nat) (hi : BitVec 40) (f : State → State) : State :=
  let before := s.course.length
  let t := f { s with shadowDue := [] }
  let due := t.shadowDue
  let u := { t with shadowDue := s.shadowDue }
  if due.isEmpty && !holdsFor (station t n) hi then u
  else
    let fresh := u.course.drop before
    let hold : ShadowHold := ⟨hi :: due.map fun r => Handle.hi r.handle, due.map fun r => Handle.hi r.handle,
      fresh.filter fun m => heldKind m.body⟩
    let v := { u with course := u.course.take before ++ fresh.filter fun m => !heldKind m.body }
    let w := due.foldl (fun x r =>
      send x n (sliceStation x (servingSlice x (Handle.fn r.handle))) (.shadowRecord r)) v
    onStation w n fun st => { st with shadowHolds := st.shadowHolds ++ [hold] }

/-- A chart commit for an index has been applied: the reports kept for it go on, to the home that the chart now names
(R224). -/
def releaseReports (s : State) (n index : Nat) : State :=
  if movingHere (station s n) index then s
  else (keptReports (station s n) index).foldl (fun t r =>
    match chartAt t n index with
    | some e =>
      if e.home ≠ n then forwardReport t n e.home r
      else homeStep t n (Handle.hi r.handle) fun u => reportArrives u n r
    | none => reportArrives t n r) (dropReports s n index)

/-- The holds that may go: written, and behind no earlier one of a common object; with the rest, in order. -/
def splitHolds : List (BitVec 40) → List ShadowHold → List Msg × List ShadowHold
  | _, [] => ([], [])
  | kept, h :: rest =>
    if h.waiting.isEmpty && !h.objs.any kept.contains then
      let (m, l) := splitHolds kept rest
      (h.msgs ++ m, l)
    else
      let (m, l) := splitHolds (kept ++ h.objs) rest
      (m, h :: l)

/-- Holds that may go release their messages. -/
def releaseHolds (s : State) (n : Nat) : State :=
  let (m, l) := splitHolds [] (station s n).shadowHolds
  let t := onStation s n fun st => { st with shadowHolds := l }
  { t with course := t.course ++ m }

/-- The first hold that waits for a record of an object waits for one less. -/
def markWritten (hi : BitVec 40) : List ShadowHold → List ShadowHold
  | [] => []
  | h :: rest => if h.waiting.contains hi then { h with waiting := h.waiting.erase hi } :: rest else h :: markWritten hi rest

/-- The slice's answer that a record is written reaches the home. -/
def shadowWrittenArrives (s : State) (n : Nat) (h : Word) : State :=
  releaseHolds (onStation s n fun st => { st with shadowHolds := markWritten (Handle.hi h) st.shadowHolds }) n

/-- A function's shadow records will not be written (R409): what waits for them goes. -/
def dropShadows (s : State) (n fn : Nat) : State :=
  releaseHolds (onStation s n fun st => { st with
    shadowHolds := st.shadowHolds.map fun h => { h with waiting := h.waiting.filter fun x => hiFn x != fn } }) n

/-! ## Creation and destruction -/

/-- The jobs of a station whose commits have reached every replica end (R611). -/
def endJobs (s : State) (n : Nat) : State :=
  ((station s n).jobs.filter (jobDue s n)).foldl (fun t j => match j.kind with
    | .created .. => homeStep t n j.hi fun u => jobEnds u n j
    | _ => jobEnds t n j) s

/-- CTR_CREATE at its home (Table 4.2). -/
def createCounter (s : State) (home : Nat) (op : FwdOp) : State :=
  let fn := Handle.fn op.handle
  if !objectQuota s fn then refuse s home op .quota else
  match newObj s home fn 1 (.counter ⟨op.a, [], 0⟩) with
  | none => refuse s home op .quota
  | some (o, u) => announce (publish u home o op.agent) home o.hi op.entry op.tag op.agent (issue u o.hi 0) 0

/-- DESTROY of a beacon slot (R136). -/
def destroyBeacon (s : State) (home : Nat) (o : Obj) (b : Beacon) (entry tag agent : Nat) : State :=
  let t := setBeacon (dropObj s home (hiIndex o.hi)) home b.word 0
  let u := broadcast t home (.beaconUpdate b.word 0 true false (issue s o.hi 0))
  let waiting := others t home
  if waiting.isEmpty then
    jobAnswer (retireHi (freeWord u b.word) home o.hi agent) home ⟨o.hi, .beaconDestroy b.word [], entry, tag, agent⟩
      ⟨.ok, 0, 0, none, none⟩
  else addJob u home ⟨o.hi, .beaconDestroy b.word waiting, entry, tag, agent⟩

/-- A beacon update reaches a station (R135, R136, R170). -/
def beaconArrives (s : State) (n src word : Nat) (v : Word) (free weir : Bool) (h : Word) : State :=
  if free then send (setBeacon s n word 0) n src (.beaconAck word h)
  else if weir && (nodeFor s n h).isSome then s
  else setBeacon s n word v

/-- An acknowledgement of a zeroing update reaches the home: of a slot, or of a weir's word (R136, R180). -/
def beaconAcked (s : State) (n src word : Nat) (h : Word) : State :=
  match jobOf s n (Handle.hi h) with
  | some j => match j.kind with
    | .beaconDestroy w waiting =>
      let left := waiting.filter (· != src)
      if left.isEmpty then
        jobAnswer (retireHi (freeWord (dropJob s n j.hi) w) n j.hi j.agent) n j ⟨.ok, 0, 0, none, none⟩
      else setJob s n { j with kind := .beaconDestroy w left }
    | .weirDestroy .. => let _ := word; teardownAcked s n (1000 + src) j.hi
    | _ => s
  | none => s

/-- An object of a class that needs no other station ends, and its waits with a status. -/
def endSimple (s : State) (home : Nat) (o : Obj) (st : Status) (entry tag agent : Nat) : State :=
  let j : Job := ⟨o.hi, .queueDestroy, entry, tag, agent⟩
  let t := match o.body with
    | .counter c => destroyCounter s home o c st
    | .landing l => destroyLanding s home o l st
    | _ => s
  jobAnswer (retire t home o agent) home j ⟨.ok, 0, 0, none, none⟩

/-- DESTROY of an object, its waits ending with a status (R65, R154, R180, R243, R280, R330, R374). -/
def destroyObj (s : State) (home : Nat) (o : Obj) (st : Status) (entry tag agent : Nat) : State :=
  match o.body with
  | .counter _ | .landing _ => endSimple s home o st entry tag agent
  | .weir w => destroyWeir s home o w entry tag agent none
  | .queue q => destroyQueue s home o q entry tag agent st
  | .rule r => destroyRule s home o r entry tag agent
  | .keeper k => destroyKeeper s home o k entry tag agent
  | .beacon b => destroyBeacon s home o b entry tag agent

/-- Whether an object is a keeper weir, which only its keeper destroys (R354). -/
def isKeeperWeir (o : Obj) : Bool := match o.body with | .weir w => w.params.keeper.isSome | _ => false

/-! ## Checks 9 and 10, and the operation -/

/-- Check 9: the function's state. -/
def stateRefusal (s : State) (fn : Nat) : Option Status :=
  match (fnOf s fn).state with
  | .enabled => none
  | .draining => some .draining
  | _ => some .nofunc

/-- A creation at its home. -/
def createAt (s : State) (home : Nat) (op : FwdOp) : State :=
  match op.op with
  | .ctrCreate => createCounter s home op
  | .weirCreate => createWeir s home op
  | .landCreate => createLanding s home op
  | .qCreate => createQueue s home op
  | .frCreate => createRule s home op
  | .skCreate => createKeeper s home op
  | .bcnCreate => createBeacon s home op
  | _ => refuse s home op .badhandle

/-- The tracker of an executed operation (R342). -/
def Tracker.note (t : Tracker) (src : Nat) : Tracker :=
  let u := { t with ops := min 0xFFFF (t.ops + 1) }
  if src = u.candidate then { u with votes := min 0xFFFF (u.votes + 1) }
  else if u.votes = 0 then { u with candidate := src, votes := 1 }
  else { u with votes := u.votes - 1 }

/-- An object after an operation's tracker, where migration is enabled. -/
def track (s : State) (o : Obj) (op : FwdOp) : Obj :=
  if setting s 0x2A0400 = 0 then o else { o with tracker := o.tracker.note (entryOf s op.agent) }

/-- An acquire grant returned to its home (R589): the amount is added back and the eddies evaluated again, in one step; a
toll's returns to the queue's free capacity. -/
def grantReturned (s : State) (home : Nat) (o : Obj) (op : FwdOp) : State :=
  if o.failed then s else
  match o.body with
  | .counter c => counterWrite s home o c op ((c.value.toNat + op.a.toNat) % 2 ^ 64)
  | .queue q =>
    if bit op.b 63 then popReturned s home o q op.a.toNat (answerTokens op.b (op.data.getD 0))
    else (releaseTokens s home o { q with tollOut := q.tollOut - op.a.toNat } 0 none).1
  | _ => s

/-- Whether a handle's selector is not its landing counter's xgen (R219). A FAILED counter's xgen is not read (DESIGN CHOICE,
log entry 69). -/
def staleSelector (o : Obj) (h : Word) : Bool :=
  match o.body with
  | .landing l => !o.failed && Handle.sel h != l.xgen.toNat
  | _ => false

/-- An operation on its object. A FAILED object takes DESTROY alone, and answers every other operation with INTEGRITY, a stale
selector notwithstanding (R588; DESIGN CHOICE, log entry 69: R219 and R588 give no order). -/
def runOn (s : State) (home : Nat) (o : Obj) (op : FwdOp) : State :=
  if op.op = .destroy then
    if isKeeperWeir o then refuse s home op .privilege
    else if staleSelector o op.handle then refuse s home op .stale
    else destroyObj (releaseTests s (hiFn o.hi) op o.body.testedEddies) home o .badhandle op.entry op.tag op.agent
  else if op.op = .cancel then grantReturned s home o op
  else if o.failed then refuse s home op .integrity
  else match o.body with
    | .counter c => homeCounter s home o c op
    | .weir w => homeWeir s home o w op
    | .landing l => homeLanding s home o l op
    | .queue q => homeQueue s home o q op
    | .rule r => homeRule s home o r op
    | .keeper k => homeKeeper s home o k op
    | .beacon b => homeBeacon s home o b op

/-- Whether an operation on an object waits behind a push (R256, R267). -/
def pushWaits (o : Obj) : Bool := match o.body with | .queue q => q.pushing.isSome | _ => false

/-- An operation at the home, or at a station whose chart entry is not valid (R611): checks 9 and 10, then its effect. Its
object's tracker counts it though check 11 or 12 refuses it (DESIGN CHOICE, log entry 85: R342 counts executed operations, R68
gives a failed check no effect on any object, and neither names the tracker). -/
def runOp (s : State) (home : Nat) (op : FwdOp) : State :=
  match stateRefusal s (Handle.fn op.handle) with
  | some st => refuse s home op st
  | none =>
    if op.op.creates then createAt s home op else
    match liveObj s home op.handle with
    | none => refuse s home op .badhandle
    | some o =>
      let o' := if op.op = .cancel then o else track s o op
      runOn (setObj s home (hiIndex o.hi) o') home o' op

/-- A bridge's work. -/
def bridgeAt (s : State) (b : Nat) : Bridge := tgetD s.bridges b ⟨[], [], []⟩

/-- A bridge's work changes. -/
def onBridge (s : State) (b : Nat) (f : Bridge → Bridge) : State := { s with bridges := tput s.bridges b (f (bridgeAt s b)) }

/-- A release waits for its queue's migration. -/
def owe (s : State) (b n : Nat) : State := onBridge s b fun x => { x with owed := x.owed ++ [n] }

/-- What comes to a queue while a push on it waits takes its place behind it. -/
def waitBehind (s : State) (home index : Nat) (h : Held) : State :=
  onStation s home fun st => { st with blocked := tput st.blocked index (tgetD st.blocked index [] ++ [h]) }

/-- An operation reaches the home: it is executed, or waits behind a push on its queue. -/
def homeExec (s : State) (home : Nat) (op : FwdOp) : State :=
  let behind := !op.op.creates && match liveObj s home op.handle with | some o => pushWaits o | none => false
  if behind then waitBehind s home (Handle.index op.handle) (.op op)
  else homeStep s home (Handle.hi op.handle) fun t => runOp t home op

/-- A bridge releases tokens of its queue at the queue's home as Q_RELEASE does (R441). -/
def releaseAt (s : State) (home index n : Nat) : State :=
  match objAt s home index with
  | some o => match o.body with
    | .queue q =>
      if q.faultAt.isSome then s else
      homeStep s home o.hi fun t =>
        let (u, o') := releaseTokens t home o q (min n (q.read - q.rel)) none
        noteShadow u o' 2 .ok 0
    | _ => s
  | none => s

/-- What has waited behind a push runs. -/
def runHeld (s : State) (home index : Nat) : Held → State
  | .op f => homeStep s home (Handle.hi f.handle) fun u => runOp u home f
  | .release _ n => releaseAt s home index n

/-- The operations behind a push that has ended run in order. -/
def drainBlocked : Nat → State → Nat → Nat → State
  | 0, s, _, _ => s
  | fuel + 1, s, home, index =>
    match tget (station s home).blocked index with
    | none => s
    | some [] => onStation s home fun st => { st with blocked := tdel st.blocked index }
    | some (h :: rest) =>
      let waits := match objAt s home index with | some o => pushWaits o | none => false
      if waits then s
      else
        let t := onStation s home fun st => { st with blocked := tput st.blocked index rest }
        drainBlocked fuel (runHeld t home index h) home index

/-- Every queue of a station whose push has ended. -/
def drainAll (s : State) (n : Nat) : State :=
  (station s n).blocked.foldl (fun t p => drainBlocked (p.2.length + 2) t n p.1) s

/-! ## What the ferry answers to a creation or destruction (R287, R296, R311) -/

/-- Extent reserved: the queue's handle returns. -/
def extentReservedArrives (s : State) (n : Nat) (h : Word) : State :=
  match jobOf s n (Handle.hi h), liveObj s n h with
  | some j, some o =>
    if j.kind = .queueCreate then
      announce (publish (dropJob s n j.hi) n o j.agent) n o.hi j.entry j.tag j.agent (issue s o.hi 0) 0
    else s
  | _, _ => s

/-- Extent refused: QUOTA. -/
def extentRefusedArrives (s : State) (n : Nat) (h : Word) : State :=
  match jobOf s n (Handle.hi h), liveObj s n h with
  | some j, some o =>
    if j.kind = .queueCreate then jobAnswer (abandon (dropJob s n j.hi) n o) n j (plain .quota) else s
  | _, _ => s

/-- Extent released: the queue's index is free. -/
def extentReleasedArrives (s : State) (n : Nat) (h : Word) : State :=
  match jobOf s n (Handle.hi h) with
  | some j =>
    if j.kind = .queueDestroy then jobAnswer (retireHi (dropJob s n j.hi) n j.hi j.agent) n j ⟨.ok, 0, 0, none, none⟩ else s
  | none => s

/-! ## FAILED objects (R588, R589) -/

/-- An object fails: its waits end everywhere with INTEGRITY, the rules that watch it lapse, and the nodes of a keeper's weir
refuse its reports (R373). -/
def failObj (s : State) (home index : Nat) : State :=
  match objAt s home index with
  | none => s
  | some o =>
    if o.failed then s else
    let ours := fun (w : Waiter) => Handle.hi w.handle == o.hi
    let s1 := s.stations.foldl (fun t p =>
      ((station t p.1).waiters.filter ours).foldl (fun u w => purgeWait u p.1 w .integrity) t) s
    let s2 := match o.body with
      | .queue q => endPushing s1 home o q .integrity
      | _ => s1
    let (s3, o') := lapseAll s2 home o .integrity
    let body : Body := match o'.body with
      | .counter c => .counter { c with eddies := [] }
      | .landing l => .landing { l with eddies := [] }
      | .queue q => .queue { q with popEddies := [], tollEddies := [], pushing := none, idleDeadline := none }
      | b => b
    let s4 := s3.stations.foldl (fun t p => onStation t p.1 fun st => { st with
      nodes := st.nodes.map fun q => (q.1, { q.2 with
        failed := q.2.failed || q.2.hi == o.hi, keeperLost := q.2.keeperLost || q.2.ofKeeper o.hi }) }) s3
    bumpFn (setObj s4 home index { o' with failed := true, body := body }) (hiFn o.hi) 0x33

end Sys2Proof.Machine
end

