-- ==== Sys2Proof/Machine/Links.lean ====
section
/-!
DEFINITION. What arrives over links (chapter 13): caravans and their acceptance, the binding and combining of system
weirs, bridges on the sending side, and the states of link ports. Between a link's attach station and any other station a
caravan is course message type 0x0B (R422; log entry 37).
-/

namespace Sys2Proof.Machine

/-! ## Acceptance and routing (R417 to R424, R428) -/

/-- Caravans naming a function that is not ENABLED are discarded and counted (R419). -/
def discardFor (s : State) (fn : Nat) (k : Nat := 1) : State := bumpFnBy (discardCaravans s k) fn 0x32 k

/-- A unit that is addressed here leaves its port's buffer with its effect; where its function is not ENABLED it is discarded
(R419), a seal with the effects of R238. -/
def serveHere (s : State) (p : Nat) (u : CaravanOut) (h : Flit) (f : State → State) : State :=
  if (fnOf s (headFn h)).state = .enabled then f (returnUnit s p { u with isSeal := false })
  else
    let t := discardFor (returnUnit s p u) (headFn h) u.parts.length
    if u.isSeal then countSealDiscard t (headFn h) else t

/-- A caravan or unit that a port has accepted is relayed, served or discarded; its places return their credits when it
leaves the buffer. -/
def routeUnit (s : State) (p : Nat) (u : CaravanOut) (h : Flit) (f : State → State) : State :=
  match arrivalRoute s p h with
  | .port q => enqueueUnit s q { u with relay := some p }
  | .here => serveHere s p u h f
  | .nowhere => returnUnit (discardCaravans s u.parts.length) p u

/-- A caravan of a kind is presented at a port (R421, R424): accepted and acted on, or discarded. A command whose head is
of another kind that Table 13.2 defines is no event (log entry 5). -/
def onCaravan (s : State) (c : CaravanIn) (kind : Nat) (f : State → State) : State :=
  let k := headKind c.head
  if (linkAt s c.port).state = .absent then s
  else if k ≠ kind ∧ (kindClass k).isSome then s
  else if !acceptable s c.port c then rejectCaravan s c
  else
    let t := acceptCaravan s c
    match kindClass k with
    | none => discardCaravans t 1
    | some .control => f t
    | some _ => routeUnit t c.port ⟨[(c.head, c.bodies)], false, none⟩ c.head f

/-! ## System weirs (R431 to R437) -/

/-- The live weir at a station that a function's ref names (R415, R434). -/
def weirOfRef (s : State) (n fn ref : Nat) : Option (Obj × Weir) :=
  let hi := refHi fn ref
  match weirAt s n (hiIndex hi) with
  | some (o, w) => if o.hi = hi then some (o, w) else none
  | none => none

/-- The live scope-5 weir of a function with a sys_num (R433). -/
def weirOfNum (s : State) (fn num : Nat) : Option (Nat × Obj × Weir) :=
  s.stations.findSome? fun p => p.2.objects.findSome? fun q =>
    match q.2.body with
    | .weir w => match w.sys with
      | some r => if hiFn q.2.hi = fn ∧ r.sysNum = num then some (p.1, q.2, w) else none
      | none => none
    | _ => none

/-- BIND_REPLY goes from a station to the child chip; where its route fails a chip that is listed is a lost child (R448). -/
def sendBindReply (s : State) (n chip fn result parentRef childRef : Nat) : State × Bool :=
  originate s n chip [mkCaravan s 0x11 chip fn 5 0 (result * 2 ^ 56 + parentRef * 2 ^ 32 + childRef * 2 ^ 8) []] false

/-- BOUND goes to a child chip that a weir's home lists; where its route fails the weir has lost a child (R448). -/
def answersBound (s : State) (home chip ref : Nat) (o : Obj) (w : Weir) : State :=
  let (t, ok) := sendBindReply s home chip (hiFn o.hi) 0 (refOf o.hi) ref
  if ok || w.state != 1 then t else childRouteLost t home o w

/-- BIND reaches a station of the parent chip, whose control station finds the weir (R433): NOTYET leaves from the attach
station, the other answers from the weir's home. -/
def bindArrives (s : State) (n : Nat) (h : Flit) : State :=
  let fn := headFn h
  let chip := headSrc h
  let ref := headField h 41 18
  match weirOfNum s fn (headField h 57 42) with
  | none => (sendBindReply s n chip fn 1 0 ref).1
  | some (home, o, w) =>
    let r := w.record
    if r.children.any fun c => c.1 == chip then homeStep s home o.hi fun u => answersBound u home chip ref o w
    else if r.children.length < w.params.remote then
      let w' := { w with sys := some { r with children := r.children ++ [(chip, BitVec.ofNat 24 ref)] } }
      let o' := { o with body := .weir w' }
      homeStep s home o.hi fun u => answersBound (setObj u home (hiIndex o.hi) o') home chip ref o' w'
    else (sendBindReply s home chip fn 2 0 ref).1

/-- A link event (Table 13.6). -/
def linkRecord (s : State) (kind port fn weirs bridge : Nat) : BitVec 256 :=
  BitVec.ofNat 256 (field 8 120 kind + field 4 116 port + field 10 106 (linkAt s port).peer + field 12 94 fn
    + field 32 62 s.now + field 16 46 weirs + field 6 40 bridge)

/-- A weir that has become BOUND sends what waited: a break, a lost child, full banks (R434, R436, R448). -/
def boundSends (s : State) (home index : Nat) : State :=
  match weirAt s home index, nodeAt s home index with
  | some (o, w), some x =>
    if w.state ≠ 1 then s
    else
      let flg := if w.record.lost then 2 else if x.broken then (if x.lost then 2 else 1) else 0
      if flg = 0 then homeChecks 4 s home index
      else
        let (t, ok) := sendUp s home o w (odd32 w.openEpoch) flg Bank.empty
        if ok then t else weirFails t home o w true
  | _, _ => s

/-- BIND_REPLY reaches the child weir's home (R433); the event names the port of the parent's route. -/
def bindReplyArrives (s : State) (home : Nat) (h : Flit) : State :=
  let fn := headFn h
  match weirOfRef s home fn (headField h 31 8) with
  | none => discardCaravans s 1
  | some (o, w) =>
    let port := (originPort s w.record.parentChip).getD 0
    let r := w.record
    if r.bind ≠ 0 ∨ w.state ≠ 1 then s
    else
      let put := fun (x : SysRecord) => setObj s home (hiIndex o.hi) { o with body := .weir { w with sys := some x } }
      match headField h 57 56 with
      | 0 => homeStep (put { r with bind := 1, parentRef := BitVec.ofNat 24 (headField h 55 32), retryAt := none }) home o.hi
          fun t => boundSends t home (hiIndex o.hi)
      | 1 => put { r with retryAt := some ((s.now + setting s 0x2D0403) % 2 ^ 32) }
      | 2 => raise (homeStep s home o.hi fun t => weirFails t home o w true) 0x52 (linkRecord s 3 port fn r.sysNum 0)
      | _ => s

/-- bind_retry_ac has passed after NOTYET: BIND is sent again (R433). -/
def bindAgain (s : State) (n index : Nat) : State :=
  match weirAt s n index with
  | some (o, w) =>
    match w.record.retryAt with
    | some at_ =>
      if w.record.bind = 0 ∧ w.state = 1 then
        let ahead := (at_ + 2 ^ 32 - s.now % 2 ^ 32) % 2 ^ 32
        let t := if ahead < 2 ^ 31 then passAc s ahead else s
        let w' := { w with sys := some { w.record with retryAt := none } }
        let o' := { o with body := .weir w' }
        homeStep (setObj t n index o') n o.hi fun u => sendBind u n o' w'
      else s
    | none => s
  | none => s

/-- WEIR_UP reaches the parent's home (R434, R436, R448). -/
def upArrives (s : State) (home : Nat) (h : Flit) (bodies : List Flit) : State :=
  let fn := headFn h
  match weirOfRef s home fn (headField h 57 34) with
  | none => discardCaravans s 1
  | some (o, w) =>
    if !(w.record.children.any fun c => c.1 == headSrc h) then discardCaravans s 1
    else
      let index := hiIndex o.hi
      homeStep s home o.hi fun t =>
        match headField h 32 31 with
        | 0 =>
          match nodeAt t home index with
          | some x =>
            if x.broken then t
            else
              let d := if bodies.isEmpty then none else some (flitsPayload bodies)
              let y := countReport x (1000 + headSrc h) (bit h 33) (headField h 30 25) (headField h 24 19) d true
              homeChecks 4 (putNode t home index y) home index
          | none => t
        | 1 => breakHome t home index false
        | _ => breakHome t home index true

/-- WEIR_DOWN reaches a home that is not the root (R434): it completes with the result or outcome that it carries; a
keeper's completion waits while a transfer runs (R372). -/
def downArrives (s : State) (home : Nat) (h : Flit) (bodies : List Flit) : State :=
  let fn := headFn h
  match weirOfRef s home fn (headField h 57 34) with
  | none => discardCaravans s 1
  | some (o, w) =>
    let index := hiIndex o.hi
    if w.isRoot || w.state != 1 then s
    else if headField h 32 31 = 0 then
      let r : Payload := if bodies.isEmpty then 0 else flitsPayload bodies
      let t := setObj s home index { o with body := .weir { w with heldDown := w.heldDown ++ [r] } }
      homeStep t home o.hi fun u => homeChecks 4 u home index
    else homeStep s home o.hi fun t => weirFails t home o w (headField h 32 31 == 2)

/-! ## Bridges on the sending side (R439 to R445) -/

/-- A bridge's entry (Table 13.4). -/
def bridgeEntry (s : State) (b : Nat) : BitVec 192 := BitVec.ofNat 192 (setting s (0x2D0500 + b))

/-- Its queue's handle. -/
def bridgeQueue (s : State) (b : Nat) : Word := (bridgeEntry s b).extractLsb' 128 64

/-- Its peer handle. -/
def bridgePeer (s : State) (b : Nat) : Word := (bridgeEntry s b).extractLsb' 64 64

/-- Its mode: 1 op, 2 token. -/
def bridgeMode (s : State) (b : Nat) : Nat := bits (bridgeEntry s b) 53 52

/-- Its destination chip in token mode. -/
def bridgeChip (s : State) (b : Nat) : Nat := bits (bridgeEntry s b) 63 54

/-- Its window. -/
def bridgeWindow (s : State) (b : Nat) : Nat := bits (bridgeEntry s b) 51 47

/-- A bridge's mode becomes 0 (R440). -/
def bridgeOff (s : State) (b : Nat) : State :=
  setSetting { s with bridges := tdel s.bridges b } (0x2D0500 + b) ((setting s (0x2D0500 + b)) - bridgeMode s b * 2 ^ 52)

/-- A bridge stops: mode 0 and bridge_stopped, which names the port of its route. -/
def bridgeStops (s : State) (b : Nat) (port : Nat) : State :=
  raise (bridgeOff s b) 0x53 (linkRecord s 4 port (Handle.fn (bridgeQueue s b)) 0 b)

/-- The home and state of a queue that a handle names, from any station. -/
def queueOf (s : State) (h : Word) : Option (Nat × Obj × Queue) :=
  s.stations.findSome? fun p => match queueAt s p.1 h with
    | some (o, q) => some (p.1, o, q)
    | none => none

/-- The home of a bridge's queue where it can act on it: none while the queue moves (R345). -/
def bridgeHome (s : State) (b : Nat) : Option (Nat × Obj × Queue) :=
  s.stations.findSome? fun p => match queueAt s p.1 (bridgeQueue s b) with
    | some (o, q) => if movingHere p.2 (hiIndex o.hi) then none else some (p.1, o, q)
    | none => none

/-- A bridge releases tokens of its queue as Q_RELEASE does (R441): behind a push that waits (R256), and after a migration that
runs (R345). -/
def bridgeRelease (s : State) (b n : Nat) : State :=
  match bridgeHome s b with
  | some (home, o, q) =>
    if q.pushing.isSome then waitBehind s home (hiIndex o.hi) (.release b n) else releaseAt s home (hiIndex o.hi) n
  | none => if (queueOf s (bridgeQueue s b)).isSome then owe s b n else s

/-- The bridges whose owed releases their queue can take. -/
def owedBridges (s : State) : List (Nat × List Nat) :=
  s.bridges.filterMap fun p => if p.2.owed.isEmpty || (bridgeHome s p.1).isNone then none else some (p.1, p.2.owed)

/-- Releases that a migration has kept waiting go on. -/
def releaseOwed (s : State) : State :=
  (owedBridges s).foldl (fun t p => p.2.foldl (fun u n => bridgeRelease u p.1 n) (onBridge t p.1 fun x => { x with owed := [] })) s

/-- A reply token goes to the reply queue's home as a feed, which takes it as FEED_PUSH (R443, R317). -/
def bridgeReply (s : State) (b : Nat) (st : Nat) (opTag : BitVec 16) (a : Word) : State :=
  let h := bridgePeer s b
  if h = 0 then s else
  match queueOf s (bridgeQueue s b) with
  | some (home, _, _) =>
    let word := BitVec.ofNat 64 (field 8 56 st + opTag.toNat * 2 ^ 40 + bits a 39 0)
    send s home (homeOf s home (Handle.index h)) (.feedPush h 0 ⟨word, true⟩)
  | none => s

/-- The tokens that can be popped toward a packet's end, at most `room`. -/
def Queue.packetTokens (q : Queue) (room : Nat) : List Token := q.takeTokens true (min 8 room) q.read

/-- Tokens are popped for a bridge as Q_POP does (R441). -/
def bridgePop (s : State) (home : Nat) (o : Obj) (q : Queue) (toks : List Token) : State :=
  homeStep s home o.hi fun t =>
    let q1 := (q.popped toks).rearm t
    let (u, o') := settleQueue (bumpBy t 0x280103 toks.length) home o q1 none
    noteShadow u o' 2 .ok 0

/-- Tokens of the next packet move to the bridge until its end mark. -/
def gatherPacket : Nat → State → Nat → State
  | 0, s, _ => s
  | fuel + 1, s, b =>
    let l := (bridgeAt s b).partial_
    if (l.getLast?.map (·.endMark)).getD false then s
    else match bridgeHome s b with
      | some (home, o, q) =>
        if l.isEmpty && q.packets == 0 || q.faultAt.isSome || q.pushing.isSome then s
        else
          let toks := q.packetTokens 8
          if toks.isEmpty then s
          else gatherPacket fuel (onBridge (bridgePop s home o q toks) b fun x => { x with partial_ := x.partial_ ++ toks }) b
      | none => s

/-- Whether a packet's header and length are those of a remote operation (R442). -/
def packetOk (l : List Token) : Bool :=
  let h := (l.headD ⟨0, false⟩).word
  let op := bits h 63 56
  bits h 24 0 == 0 &&
  (if op = 0x34 then l.length == 12 else (op == 0x11 || op == 0x12 || op == 0x13 || op == 0x31) && l.length == 4)

/-- The OP of a packet, with its OP_PAYLOAD (Table 13.2). -/
def packetUnit (s : State) (b : Nat) (l : List Token) : List (Flit × List Flit) :=
  let w := fun i => ((l.getD i ⟨0, false⟩).word).toNat
  let h := (l.headD ⟨0, false⟩).word
  let dest := bits h 50 41
  let fn := Handle.fn (bridgeQueue s b)
  let seal_ := bits h 63 56 == 0x34
  let op := mkCaravan s 0x20 dest fn (bits h 53 51) (bits h 55 54)
    (bits h 63 56 * 2 ^ 50 + flag seal_ * 2 ^ 49 + bits h 40 25 * 2 ^ 33 + b * 2 ^ 27)
    [BitVec.ofNat 128 (w 1 * 2 ^ 64 + w 2), BitVec.ofNat 128 (w 3 * 2 ^ 64)]
  if seal_ then
    [op, mkCaravan s 0x21 dest fn 0 0 0 (payloadFlits (payloadOf (((l.drop 4).take 8).flatMap fun t => bytesLE 8 t.word.toNat)))]
  else [op]

/-- A whole packet is answered or sent from the queue's home (R442, R443, R448). -/
def sendPacket (s : State) (n b : Nat) (l : List Token) : State :=
  let h := (l.headD ⟨0, false⟩).word
  let tag : BitVec 16 := BitVec.ofNat 16 (bits h 40 25)
  let t := onBridge s b fun x => { x with partial_ := [] }
  if !packetOk l then bridgeRelease (bridgeReply t b 0x11 tag 0) b l.length
  else
    let (u, ok) := originate t n (bits h 50 41) (packetUnit t b l) (bits h 63 56 == 0x34)
    if ok then onBridge u b fun x => { x with items := x.items ++ [⟨tag, l.length, bits h 50 41⟩] }
    else bridgeRelease (bridgeReply t b 0x0E tag 0) b l.length

/-- An op-mode bridge takes its next packet (R443). -/
def bridgeOpSends (s : State) (b : Nat) : State :=
  if bridgeMode s b ≠ 1 ∨ bridgeWindow s b ≤ (bridgeAt s b).items.length then s
  else
    let t := gatherPacket 40 s b
    let l := (bridgeAt t b).partial_
    match queueOf t (bridgeQueue t b) with
    | some (home, _, _) => if (l.getLast?.map (·.endMark)).getD false then sendPacket t home b l else t
    | none => t

/-- Whether a caravan's function is that of the bridge it names (R415). -/
def bridgeOf (s : State) (b : Nat) (h : Flit) : Bool := Handle.fn (bridgeQueue s b) == headFn h

/-- REPLY reaches the bridge's home (R443). -/
def replyArrives (s : State) (h : Flit) (bodies : List Flit) : State :=
  let b := headField h 33 28
  let tag : BitVec 16 := BitVec.ofNat 16 (headField h 49 34)
  if !bridgeOf s b h then discardCaravans s 1
  else match takeFirst (fun i => i.opTag == tag && i.dest == headSrc h) (bridgeAt s b).items with
  | some (i, rest) =>
    if bridgeMode s b = 1 then
      let a : Word := (bodies.headD 0).extractLsb' 64 64
      bridgeRelease (bridgeReply (onBridge s b fun x => { x with items := rest }) b (headField h 57 50) tag a) b i.tokens
    else s
  | none => s

/-- The tokens outstanding of a bridge. -/
def Bridge.sum (x : Bridge) : Nat := (x.items.map (·.tokens)).sum

/-- The scope and release of the push that wrote the token at a position; none for the token of a feed. -/
def Queue.qualAt (q : Queue) (pos : Nat) : Option (Nat × Nat) :=
  (q.quals.find? fun x => x.1 ≤ pos && pos < x.2.1).map fun x => x.2.2

/-- The scope and release that a TOKENS caravan carries for tokens from a position on: those of their push (Table 13.1). Where
pushes that differ wrote them, or a feed, the manual gives none: free values (log entry 10). -/
def tokensQual (s : State) (b : Nat) (q : Queue) (n : Nat) : Nat × Nat :=
  match q.qualAt q.read with
  | some x =>
    if (List.range n).all fun i => q.qualAt (q.read + i) == some x then x else freeQual
  | none => freeQual
where freeQual : Nat × Nat :=
  let (scope, release) := Config.tokenQualifiers (bridgeQueue s b) q.read
  (scope.toNat % 6, release.toNat % 3)

/-- The TOKENS caravan of some tokens at the read position (Table 13.2). -/
def tokensCaravan (s : State) (b : Nat) (q : Queue) (l : List Token) : Flit × List Flit :=
  let w := fun i => ((l.getD i ⟨0, false⟩).word).toNat
  let (scope, release) := tokensQual s b q l.length
  mkCaravan s 0x23 (bridgeChip s b) (Handle.fn (bridgeQueue s b)) scope release
    (l.length * 2 ^ 55 + (l.mapIdx fun i t => flag t.endMark * 2 ^ i).sum * 2 ^ 48 + b * 2 ^ 42)
    [BitVec.ofNat 128 ((bridgePeer s b).toNat * 2 ^ 64 + w 0), BitVec.ofNat 128 (w 1 * 2 ^ 64 + w 2),
     BitVec.ofNat 128 (w 3 * 2 ^ 64 + w 4), BitVec.ofNat 128 (w 5 * 2 ^ 64 + w 6)]

/-- A token-mode bridge pops and sends up to 7 tokens (R445); where its route fails it stops (R418, R448). -/
def bridgeTokensSends (s : State) (b : Nat) : State :=
  if bridgeMode s b ≠ 2 then s
  else match bridgeHome s b with
    | some (home, o, q) =>
      let room := min 7 (bridgeWindow s b - (bridgeAt s b).sum)
      let toks := q.takeTokens false room q.read
      if toks.isEmpty || q.faultAt.isSome || q.pushing.isSome then s
      else if (originRoute s (bridgeChip s b)).isNone then bridgeStops s b ((originPort s (bridgeChip s b)).getD 0)
      else
        let t := (originate (bridgePop s home o q toks) home (bridgeChip s b) [tokensCaravan s b q toks] false).1
        onBridge t b fun x => { x with items := x.items ++ [⟨0, toks.length, bridgeChip s b⟩] }
    | none => s

/-- TOKEN_ACK reaches the bridge's home (R445); bridge_stopped names the port of the bridge's route. -/
def tokenAckArrives (s : State) (h : Flit) : State :=
  let b := headField h 46 41
  if !bridgeOf s b h then discardCaravans s 1
  else if bridgeMode s b ≠ 2 then s
  else match (bridgeAt s b).items with
    | i :: rest =>
      if headField h 54 47 = 0 then bridgeRelease (onBridge s b fun x => { x with items := rest }) b i.tokens
      else bridgeStops s b ((originPort s (bridgeChip s b)).getD 0)
    | [] => s

/-- The bridges whose queue has gone or whose function has left ENABLED are off (R440). -/
def bridgesCheck (s : State) : State :=
  (s.dict.filter fun p => 0x2D0500 ≤ p.1 && p.1 ≤ 0x2D053F).foldl (fun t p =>
    let b := p.1 - 0x2D0500
    if bridgeMode t b ≠ 0 ∧ ((queueOf t (bridgeQueue t b)).isNone ∨ (fnOf t (Handle.fn (bridgeQueue t b))).state ≠ .enabled)
    then bridgeOff t b else t) s

/-! ## Answers to caravans (R444, R445) -/

/-- REPLY from an attach station to the originating chip; where its route fails it is not sent. -/
def sendReply (s : State) (n chip fn : Nat) (opTag : BitVec 16) (bridge : Nat) (r : Rsp) : State :=
  (originate s n chip [mkCaravan s 0x22 chip fn 0 0 (r.status.code * 2 ^ 50 + opTag.toNat * 2 ^ 34 + bridge * 2 ^ 28)
    [BitVec.ofNat 128 (r.valueA.toNat * 2 ^ 64 + r.valueB.toNat)]] false).1

/-- TOKEN_ACK to the originating chip. -/
def sendTokenAck (s : State) (home chip fn bridge n status : Nat) : State :=
  (originate s home chip [mkCaravan s 0x24 chip fn 0 0 (n * 2 ^ 55 + status * 2 ^ 47 + bridge * 2 ^ 41) []] false).1

/-! ## The course leg (R422) -/

/-- The object whose home a caravan from a peer chip is for: a weir by the ref that names it, a bridge's queue. -/
def caravanIndex (s : State) (h : Flit) : Nat :=
  match headKind h with
  | 0x11 => headField h 31 8 % 2 ^ 14
  | 0x12 | 0x13 => headField h 57 34 % 2 ^ 14
  | 0x22 => Handle.index (bridgeQueue s (headField h 33 28))
  | _ => Handle.index (bridgeQueue s (headField h 46 41))

/-- A caravan goes on from the attach station of its port to the home that the station's chart names. -/
def caravanInward (s : State) (n : Nat) (h : Flit) (bodies : List Flit) : State :=
  send s n (homeOf s n (caravanIndex s h)) (.caravan false false [(h, bodies)])

/-- A caravan from a peer chip acts at its object's home; where its function is not ENABLED by then it is discarded (R419). -/
def caravanActs (s : State) (n : Nat) (h : Flit) (bodies : List Flit) : State :=
  if (fnOf s (headFn h)).state ≠ .enabled then discardFor s (headFn h)
  else match headKind h with
    | 0x11 => bindReplyArrives s n h
    | 0x12 => upArrives s n h bodies
    | 0x13 => downArrives s n h bodies
    | 0x22 => replyArrives s h bodies
    | _ => tokenAckArrives s h

/-! ## Link states (R447 to R450) -/

/-- The scope-5 weirs that are OPEN, each with its home. -/
def systemWeirs (s : State) : List (Nat × Obj × Weir) :=
  s.stations.flatMap fun p => p.2.objects.filterMap fun q => match q.2.body with
    | .weir w => if w.sys.isSome ∧ w.state = 1 then some (p.1, q.2, w) else none
    | _ => none

/-- Whether a weir's parent route uses a port. -/
def parentUses (s : State) (p : Nat) (w : Weir) : Bool :=
  w.record.bind != 2 && originPort s w.record.parentChip == some p

/-- Whether a listed child's route uses a port. -/
def childUses (s : State) (p : Nat) (w : Weir) : Bool := w.record.children.any fun c => originPort s c.1 == some p

/-- The weirs whose route uses a port are LOST (R448 step 2). -/
def loseWeirs (s : State) (p : Nat) : State :=
  (systemWeirs s).foldl (fun t x =>
    match weirAt t x.1 (hiIndex x.2.1.hi) with
    | some (o, w) =>
      if parentUses t p w then homeStep t x.1 o.hi fun u => weirFails u x.1 o w true
      else if childUses t p w then homeStep t x.1 o.hi fun u => childRouteLost u x.1 o w
      else t
    | none => t) s

/-- The outstanding operations of op-mode bridges routed through a port end with LINKLOST (R448 step 3). -/
def loseOps (s : State) (p : Nat) : State :=
  (List.range 64).foldl (fun t b =>
    if bridgeMode t b ≠ 1 then t else
    let gone := (bridgeAt t b).items.filter fun i => originPort t i.dest == some p
    let kept := (bridgeAt t b).items.filter fun i => originPort t i.dest != some p
    if gone.isEmpty then t else
    gone.foldl (fun u i => bridgeRelease (bridgeReply u b 0x0E i.opTag 0) b i.tokens)
      (onBridge t b fun x => { x with items := kept })) s

/-- Token-mode bridges routed through a port stop (R448 step 4). -/
def loseBridges (s : State) (p : Nat) : State :=
  (List.range 64).foldl (fun t b =>
    if bridgeMode t b = 2 ∧ originPort t (bridgeChip t b) = some p then bridgeStops t b p else t) s

/-- Caravans that a port drops: its retransmit buffer and its queues, and an OP whose OP_PAYLOAD has not come. -/
def Link.waiting (l : Link) : Nat :=
  l.held.length + l.control.length + ((l.weirWait ++ l.opWait).map fun u => u.parts.length).sum + flag l.opPart.isSome

/-- A port enters LOST (R448). Relayed units that it drops return their places. -/
def linkLost (s : State) (p : Nat) : State :=
  let l := linkAt s p
  let n := ((systemWeirs s).filter fun x => parentUses s p x.2.2 || childUses s p x.2.2).length
  let s1 := setLink s p { l with
    state := .lost, held := [], resend := [], control := [], weirWait := [], opWait := [], ackDue := false
    unitOpen := false, opPart := none }
  let s2 := (l.weirWait ++ l.opWait).foldl (fun t u => match u.relay with
    | some q => returnUnit t q u
    | none => t) (discardCaravans s1 l.waiting)
  let s3 := loseBridges (loseOps (loseWeirs s2 p) p) p
  bump (raise s3 0x50 (linkRecord s3 1 p 0 n 0)) 0x2D0606

/-- The credits that a port holds as it becomes UP (R427). -/
def Link.fresh (l : Link) : Link :=
  { l with state := .up, everUp := true, txSeq := 0, rxSeq := 0, ackSent := 4095, discarding := false,
           weirCredit := 64, opCredit := 64, sealCredit := 256 }

/-- A port leaves LOST (R449). -/
def linkRestored (s : State) (p : Nat) : State :=
  let resync := mkCaravan s 0x02 (linkAt s p).peer 0 0 0 0 []
  let t := onLink s p fun l => { l.fresh.timed s with control := [resync] }
  raise t 0x51 (linkRecord t 2 p 0 0 0)

/-- Whether a link port is out of service: it acts as if kpn_ready were low (R602). -/
def linkOut (s : State) (p : Nat) : Bool := tgetD s.unitState (256 * 4 + p) 0 != 0

/-- kpn_ready rises (Table 13.5). -/
def linkRises (s : State) (p : Nat) : State :=
  let l := linkAt s p
  if l.ready then s else
  if linkOut s p then setLink s p { l with ready := true } else
  match l.state with
  | .absent | .up => s
  | .lost => linkRestored (setLink s p { l with ready := true }) p
  | .down =>
    if l.everUp then setLink s p { l.timed s with ready := true, state := .up, resend := l.held }
    else setLink s p { l.fresh.timed s with ready := true }

/-- kpn_ready falls (R540, Table 13.5). -/
def linkFalls (s : State) (p : Nat) : State :=
  let l := linkAt s p
  match l.state with
  | .absent => s
  | .up => setLink s p { l.timed s with ready := false, flitCredit := 0, state := .down, unitOpen := false }
  | _ => setLink s p { l with ready := false, flitCredit := 0 }

/-- link_lost_ac has passed without readiness, or without an ack's advance (Table 13.5): a ready controller brings the
port UP again. -/
def linkTimesOut (s : State) (p : Nat) : State :=
  let l := linkAt s p
  match l.state with
  | .down => if l.ready && !linkOut s p then s else linkLost (passToAc s l.lossDue) p
  | .up => if l.held.isEmpty then s else linkRestored (linkLost (passToAc s l.lossDue) p) p
  | _ => s

/-- RESYNC (Table 13.5). -/
def linkResyncs (s : State) (p : Nat) : State :=
  if (linkAt s p).state = .up then linkRestored (linkLost s p) p else s

/-- CREDIT (R428). -/
def creditArrives (s : State) (p : Nat) (h : Flit) : State :=
  onLink s p fun l => { l with
    weirCredit := l.weirCredit + headField h 57 51, opCredit := l.opCredit + headField h 50 44
    sealCredit := l.sealCredit + headField h 43 35 }

/-- 64 fc have passed without a carried ack (R425): the port sends an ACK. -/
def ackNow (s : State) (p : Nat) : State :=
  let l := linkAt s p
  if l.state = .up ∧ l.ackDue then
    let t := passToFc s l.ackBy
    let c := mkCaravan t 0x00 l.peer 0 0 0 0 []
    if l.flitsOk c && !l.unitOpen then present t p (stampHead c.1 0 l.ack) [] else setLink t p { l with control := l.control ++ [c] }
  else s

/-- No ack has advanced for retx_timeout_fc: every held caravan is sent again (R425). -/
def retransmit (s : State) (p : Nat) : State :=
  let l := linkAt s p
  if l.state = .up ∧ l.held ≠ [] then
    let t := passToFc s l.retxDue
    setLink t p { l with resend := l.held, retxDue := t.clock.fc + setting t 0x2D0402 }
  else s

end Sys2Proof.Machine
end

