-- ==== Sys2Proof/Machine/Migration.lean ====
section
/-!
DEFINITION. Where messages find their object (R29, R349, R611), and migration (R342 to R349, R478).
-/

namespace Sys2Proof.Machine

/-! ## Forwarding -/

/-- Whether an object is leaving a station. -/
def leaving (s : State) (n index : Nat) : Bool :=
  match (station s n).outgoing with | some m => m.index == index | none => false

/-- Whether an object is on its way to a station. -/
def coming (s : State) (n index : Nat) : Bool :=
  match (station s n).incoming with | some m => m.index == index | none => false

/-- A message addressed by handle to an object reaches a station: taken at the object's home, forwarded where the chart
names another, and kept while the object moves (R349, R611). -/
def atObject (s : State) (n : Nat) (h : Word) (b : MsgBody) (f : State → State) : State :=
  let i := Handle.index h
  let m := homeOf s n i
  if m ≠ n then send s n m b
  else if leaving s n i || coming s n i then send s n n b
  else f s

/-- RETRY where a freeze or hold buffer is full (R345). -/
def retryOp (s : State) (n : Nat) (op : FwdOp) : State := refuse (bump s 0x2A0506) n op .retry

/-- An operation enters the freeze buffer (R345). -/
def freezeOp (s : State) (n : Nat) (op : FwdOp) : State :=
  if (station s n).frozen.length < 32 then onStation s n fun st => { st with frozen := st.frozen ++ [op] }
  else retryOp s n op

/-- An operation enters the hold buffer (R345). -/
def holdOp (s : State) (n : Nat) (op : FwdOp) : State :=
  if (station s n).hold.length < 32 then onStation s n fun st => { st with hold := st.hold ++ [op] }
  else retryOp s n op

/-- Whether a DESTROY of a keeper must wait for its weir, which is leaving the station (R353, R374; DEDUCED, log entry 76). -/
def weirLeaves (s : State) (n : Nat) (op : FwdOp) : Bool :=
  op.op == .destroy && match liveObj s n op.handle with
    | some o => match o.body with
      | .keeper k => leaving s n (hiIndex k.weirHi)
      | _ => false
    | none => false

/-- An operation at a station that is home to its object: frozen or held while the object moves, else executed. -/
def opAtHome (s : State) (n : Nat) (op : FwdOp) : State :=
  let i := Handle.index op.handle
  if op.op.creates then homeExec s n op
  else if leaving s n i || weirLeaves s n op then freezeOp s n op
  else if coming s n i then holdOp s n op
  else homeExec s n op

/-- A forwarded operation reaches a station (R29, R345, R611). -/
def opArrives (s : State) (n src : Nat) (op : FwdOp) : State :=
  let i := Handle.index op.handle
  if op.op.creates then homeExec s n op
  else if leaving s n i then freezeOp s n op
  else match (station s n).incoming with
    | some m =>
      if m.index = i ∧ src = m.oldHome ∧ 1 ≤ op.hops then homeExec s n op
      else if homeOf s n i = n then opAtHome s n op
      else if 2 ≤ op.hops then refuse (bump s 0x210501) n op .retry
      else send s n (homeOf s n i) (.fwdOp { op with hops := op.hops + 1 })
    | none =>
      if homeOf s n i = n then opAtHome s n op
      else if 2 ≤ op.hops then refuse (bump s 0x210501) n op .retry
      else send s n (homeOf s n i) (.fwdOp { op with hops := op.hops + 1 })

/-! ## Starting a migration (R343, R344) -/

/-- The home node that moves with a weir. -/
def homeNode (s : State) (n : Nat) (o : Obj) : Option Node :=
  match o.body with
  | .weir _ => nodeAt s n (hiIndex o.hi)
  | _ => none

/-- What an object takes at its new home (R343). -/
def takesOf (s : State) (n : Nat) (o : Obj) : Takes :=
  let node := homeNode s n o
  ⟨1, o.records + (match node with | some x => x.records | none => 0), match node with | some x => x.slot | none => false,
    match o.body with | .queue _ => 2 | _ => 0⟩

/-- How many 64-byte segments a copy takes (R337, R349): 32 bytes of object entry and of every record that moves, and for each
of a queue's windows six records more (DEDUCED, log entry 75: R344 gives 144 for the largest landing counter). -/
def CopyState.segments (c : CopyState) : Nat :=
  let windows := match c.obj.body with | .queue _ => 12 | _ => 0
  (1 + c.obj.records + (match c.node with | some x => x.records | none => 0) + windows + 1) / 2

/-- The copy segments of an object, in order. The model gives each the whole of what moves; the new home acts on the last. -/
def copyMsgs (c : CopyState) (h : Word) : List MsgBody :=
  (List.range c.segments).map fun k => .copy c h k (c.segments - 1)

/-- Steps 1 and 2 (R344): the journal record FROZEN, the commit with move_state 1, and the copy. Operations behind a push
enter the freeze buffer. -/
def startMigration (s : State) (n : Nat) (o : Obj) (target : Nat) (drain : Bool) : State :=
  let i := hiIndex o.hi
  let held := tgetD (station s n).blocked i []
  let s1 := { s with journal := tput s.journal n (hiFn o.hi, i, n, target, 1) }
  let s2 := bump (broadcast (chartSet s1 n i (some ⟨1, n⟩)) n (.chartCommit i 1 n false)) 0x210300
  let s3 := onStation s2 n fun st => { st with
    outgoing := some ⟨i, target, 2, [], issue s o.hi 0, drain, []⟩, blocked := tdel st.blocked i }
  let s4 := held.foldl (fun t h => match h with | .op f => freezeOp t n f | .release b k => owe t b k) s3
  sendAll s4 n ((copyMsgs ⟨{ o with tracker := ⟨0, 0, 0, setting s 0x2A0404⟩ }, homeNode s n o⟩ (issue s o.hi 0)).map
    (target, ·))

/-- migrate_min_ops and migrate_votes as they hold in the running window of a station (R350). -/
def windowSettings (s : State) (n : Nat) : Nat × Nat :=
  (station s n).migrateAt.getD (setting s 0x2A0402, setting s 0x2A0403)

/-- A write of migrate_min_ops or migrate_votes applies from the next window (R350). -/
def windowWrites (s : State) (k v : Nat) : State :=
  setSetting (s.stations.foldl (fun t p => onStation t p.1 fun st =>
    { st with migrateAt := some (windowSettings s p.1) }) s) k v

/-- A station's next window begins. -/
def newWindow (s : State) (n : Nat) : State := onStation s n fun st => { st with migrateAt := none }

/-- Whether the traffic of a window lets an object move (R343); one with an unanswered shadow record stays (R410). -/
def movesFor (s : State) (n : Nat) (o : Obj) : Bool :=
  let t := o.tracker
  let kind := match o.body with | .weir _ | .keeper _ | .beacon _ => false | _ => true
  t.candidate != n && (windowSettings s n).1 ≤ t.ops && (windowSettings s n).2 ≤ t.votes && kind && !o.failed &&
  !holdsFor (station s n) o.hi &&
  (fnOf s (hiFn o.hi)).state == .enabled && fnSetting s (hiFn o.hi) 0x29 == 0 && t.cooldown == 0 &&
  (jobOf s n o.hi).isNone

/-- Whether the candidate station can take an object. -/
def candidateTakes (s : State) (n : Nat) (o : Obj) : Bool :=
  (station s o.tracker.candidate).incoming.isNone && holds s o.tracker.candidate (takesOf s n o)

/-- The objects that may move, most votes first, lower indices first. -/
def byVotes : Nat → List Obj → List Obj
  | 0, _ => []
  | fuel + 1, l =>
    match leastBy (fun o => (0x10000 - o.tracker.votes) * 16384 + hiIndex o.hi) l with
    | none => []
    | some o => o :: byVotes fuel (l.filter (· != o))

/-- The first that its candidate can take moves; each before it is skipped and counted. -/
def tryMoves (s : State) (n : Nat) : List Obj → State
  | [] => s
  | o :: rest =>
    if candidateTakes s n o then startMigration s n o o.tracker.candidate false
    else tryMoves (bump s 0x2A0505) n rest

/-- A tracker window ends at a station: at most one migration starts, trackers are cleared, cooldowns fall. -/
def windowEnds (s : State) (n : Nat) : State :=
  if setting s 0x2A0400 = 0 then s
  else
    let objs := ((station s n).objects.map (·.2)).filter (movesFor s n)
    let t := if (station s n).outgoing.isSome then s else tryMoves s n (byVotes objs.length objs)
    onStation t n fun st => { st with objects := st.objects.map fun p =>
      (p.1, { p.2 with tracker := ⟨0, 0, 0, p.2.tracker.cooldown - 1⟩ }) }

/-! ## The new home (R344, R349) -/

/-- The eddies of an object change. -/
def Body.mapEddies (b : Body) (f : Eddy → Eddy) : Body :=
  match b with
  | .counter c => .counter { c with eddies := c.eddies.map f }
  | .landing l => .landing { l with eddies := l.eddies.map f }
  | .queue q => .queue { q with popEddies := q.popEddies.map f, tollEddies := q.tollEddies.map f }
  | x => x

/-- The eddies of an object. -/
def Body.eddies : Body → List Eddy
  | .counter c => c.eddies
  | .landing l => l.eddies
  | .queue q => q.popEddies ++ q.tollEddies
  | _ => []

/-- New references for some eddies: the least unused of the station. -/
def newRefs (used : List Nat) : List Nat → List (Nat × Nat)
  | [] => []
  | r :: rest => let k := leastUnused used; (r, k) :: newRefs (k :: used) rest

/-- What a copy takes at the new home (R346). -/
def copyTakes (c : CopyState) : Takes :=
  ⟨1, c.obj.records + (match c.node with | some x => x.records | none => 0),
    match c.node with | some x => x.slot | none => false, match c.obj.body with | .queue _ => 2 | _ => 0⟩

/-- Whether a migration still goes on: once its function has left ENABLED it is interrupted, and only its resolution in step
D3 of the drain ends it (R457, R478). -/
def moveGoes (s : State) (hi : BitVec 40) : Bool := (fnOf s (hiFn hi)).state == .enabled

/-- Whether the migration of a station goes on. -/
def outgoingGoes (s : State) (n : Nat) : Bool :=
  match (station s n).outgoing with
  | some m => moveGoes s (Handle.hi m.handle)
  | none => false

/-- Whether the migration that a station's journal record names goes on. -/
def journalGoes (s : State) (n : Nat) : Bool :=
  match tget s.journal n with
  | some j => (fnOf s j.1).state == .enabled
  | none => false

/-- A copy reaches the new home: it takes its resources, those of a home node that is still to come too, and answers with the
new references, or refuses (R346). -/
def copyArrives (s : State) (n src : Nat) (c : CopyState) (h : Word) : State :=
  let i := hiIndex c.obj.hi
  let st := station s n
  if !moveGoes s c.obj.hi then s
  else if st.incoming.isSome || !holds s n (copyTakes c) then send s n src (.copyAnswer h none)
  else
    let refs := newRefs (eddyRefs st) (c.obj.body.eddies.map (·.ref))
    let f := fun (e : Eddy) => { e with ref := match refs.find? fun p => p.1 == e.ref with | some p => p.2 | none => e.ref }
    let o := { c.obj with body := c.obj.body.mapEddies f }
    let t := onStation (setObj s n i o) n fun x => { x with incoming := some ⟨i, src, refs, c.node⟩ }
    let u := match o.body with
      | .rule r => if r.action = 0 then subscribeRule t n r true else t
      | .beacon b => setBeacon t n b.word b.value
      | _ => t
    send u n src (.copyAnswer h (some refs))

/-- Two banks of one weir at one station, merged (R182, R594). -/
def mergeBank (p : WeirParams) (a b : Bank) : Bank :=
  ⟨a.kids + b.kids, a.rem + b.rem, a.sent && b.sent, a.arrived ++ b.arrived.filter (!a.arrived.contains ·),
    mergePartial p.redOp p.inFormat a.acc b.acc, mergePartial p.redOp p.inFormat a.kept b.kept⟩

/-! ### The tree of a weir that moves (R162, R168, R182; DEDUCED, log entry 12) -/

/-- Whether no completion, setup or subscription of a weir's tree is on the course: a tree changes its home only then
(DESIGN CHOICE, log entry 12). Combined arrivals may travel. -/
def treeQuiet (s : State) (hi : BitVec 40) : Bool :=
  s.course.all fun m => match m.body with
    | .completion h .. => Handle.hi h != hi
    | .setup h .. => Handle.hi h != hi
    | .subscribe h => Handle.hi h != hi
    | .subscribeReply h .. => Handle.hi h != hi
    | _ => true

/-- The nodes that take part in a weir's tree, each with its station. -/
def treeNodes (s : State) (hi : BitVec 40) : List (Nat × Node) :=
  s.stations.filterMap fun p => match tget p.2.nodes (hiIndex hi) with
    | some x => if x.hi = hi ∧ x.role ≠ 0 then some (p.1, x) else none
    | none => none

/-- Whether a node has a child that has not sent a bank. -/
def childUnsent (odd : Bool) (ns : List (Nat × Node)) (n : Nat) : Bool :=
  ns.any fun q => q.2.role == 1 && q.2.parent == n && !(q.2.bank odd).sent

/-- The banks of a parity in a new tree: what a member has sent is with its ancestors; one with a child that has not sent
is to send again; each counts the children that have sent. -/
def retree (odd : Bool) (ns : List (Nat × Node)) : List (Nat × Node) :=
  let drop := ns.map fun p =>
    let b := p.2.bank odd
    (p.1, if p.2.role = 1 ∧ b.sent then p.2.setBank odd (b.passed p.2.params) else p.2)
  let open_ := (List.range ns.length).foldl (fun l _ => l.map fun p =>
    let b := p.2.bank odd
    (p.1, if p.2.role = 1 ∧ b.sent ∧ childUnsent odd l p.1 then p.2.setBank odd { b with sent := false } else p.2)) drop
  open_.map fun p =>
    let b := p.2.bank odd
    (p.1, p.2.setBank odd { b with
      kids := (open_.filter fun q => q.2.role == 1 && q.2.parent == p.1 && (q.2.bank odd).sent).length })

/-- The combined arrivals of a weir that travel or have come in part, by member and parity. -/
def inFlightArrivals (s : State) (hi : BitVec 40) (ns : List (Nat × Node)) : List (Nat × Bool) :=
  let travelling := s.course.filterMap fun m => match m.body with
    | .combined h odd false _ _ _ _ => if Handle.hi h = hi then some (m.src, odd) else none
    | _ => none
  let partly := ns.flatMap fun p => p.2.segments.filterMap fun g => if g.sender < 128 then some (g.sender, g.parity) else none
  (travelling ++ partly).foldl (fun l d => if l.contains d then l else l ++ [d]) []

/-- The combined arrivals of a weir that travel as its tree changes go on to its home (R182), which collects what has come of
them and waits for the rest. -/
def redirectArrivals (s : State) (home : Nat) (hi : BitVec 40) (ns : List (Nat × Node)) : State × List (Nat × Node) :=
  let due := inFlightArrivals s hi ns
  let course := s.course.map fun m => match m.body with
    | .combined h odd false _ g last d =>
      if Handle.hi h = hi then { m with body := .combinedMoved h m.src odd g last d } else m
    | _ => m
  let came := ns.flatMap fun p => (p.2.segments.filter fun g => g.sender < 128).map fun g =>
    { g with sender := movedKey g.sender }
  ({ s with course := course }, ns.map fun p =>
    let left := p.2.segments.filter fun g => 128 ≤ g.sender
    (p.1, if p.1 = home then { p.2 with segments := left ++ came, due := p.2.due ++ due } else { p.2 with segments := left }))

/-- Every node of a weir's tree recomputes its parent and children for a home and the entry map, and banks that are full
then are acted on. -/
def rewire (s0 : State) (home : Nat) (hi : BitVec 40) : State :=
  let index := hiIndex hi
  let (s, nodes) := redirectArrivals s0 home hi (treeNodes s0 hi)
  let ns := nodes.map fun p => (p.1, { p.2 with
    home := home, role := if p.1 = home then 2 else 1, local_ := localCount s p.2.params.parts p.1
    parent := parentOf s p.2.params.parts home p.1
    children := (childrenOf s p.2.params.parts home p.1).length })
  let ms := retree true (retree false ns)
  let t := ms.foldl (fun t p => putNode t p.1 index p.2) s
  let u := match weirAt t home index with
    | some (o, w) => setObj t home index { o with body := .weir { w with
        members := membersOf t w.params.parts home
        listeners := w.listeners.filter fun n => !(membersOf t w.params.parts home).contains n } }
    | none => t
  ms.foldl (fun v p => homeStep v home hi fun x => checkNode (checkNode x p.1 index false) p.1 index true) u

/-- A weir's home node takes its place at the new home, merged into a node there (R182). -/
def installNode (s : State) (n index : Nat) (x : Node) : State :=
  match nodeAt s n index with
  | some z => putNode s n index { x with
      bank0 := mergeBank x.params x.bank0 z.bank0, bank1 := mergeBank x.params x.bank1 z.bank1
      segments := x.segments ++ z.segments }
  | none => putNode s n index x

/-- What of a bank's arrivals goes with some agents. What a bank that has gone up counts is with its ancestors, so its parts have
gone up too (R202). -/
def Bank.part (b : Bank) (mine : Nat → Bool) : Bank := { Bank.empty with arrived := b.arrived.filter mine, sent := b.sent }

/-- The new home of a weir holds its node, for which it kept room, and a published word as the home has it (R128). -/
def moveWord (s : State) (n : Nat) (o : Obj) : State :=
  let t := onStation s n fun st => { st with incoming := st.incoming.map fun m => { m with node := none } }
  match o.body with
  | .weir w => match w.params.publish with
    | some b => setBeacon t n b (BitVec.ofNat 64 w.openEpoch.toNat)
    | none => t
  | _ => t

/-- A weir moves with its home node as it stands, in the step in which the control station accepts the commit. -/
def moveWeir (s : State) (n home index : Nat) : State :=
  match objAt s n index, nodeAt s n index with
  | some o, some x =>
    let t := setObj (dropObj (dropNode s n index) n index) home index { o with tracker := ⟨0, 0, 0, setting s 0x2A0404⟩ }
    let y := if (memberStations t x.params.parts).contains n then
        putNode t n index { x with role := 1, bank0 := x.bank0.part fun _ => true, bank1 := x.bank1.part fun _ => true }
      else t
    moveWord (rewire (installNode y home index { x with
      bank0 := if (memberStations t x.params.parts).contains n then { x.bank0 with arrived := [] } else x.bank0
      bank1 := if (memberStations t x.params.parts).contains n then { x.bank1 with arrived := [] } else x.bank1 }) home o.hi) home o
  | _, _ => s

/-- The load subscriptions of a launch rule's copy at a station are returned (R349). -/
def unsubscribed (s : State) (n index : Nat) : State :=
  match objAt s n index with
  | some o => match o.body with
    | .rule r => if r.action = 0 then subscribeRule s n r false else s
    | _ => s
  | none => s

/-- A chart commit reaches a replica (R28): after the journaled one the station flushes; the new home of a weir sends its
setup (R182), and the completions that waited for a keeper come due there (R353); the old home releases its entry on the last (R344). -/
def commitArrives (s : State) (n src index move home : Nat) : State :=
  let t := chartSet s n index (some ⟨move, home⟩)
  if move = 2 then
    let u := send t n src (.flush (nameOf (handleHi 0 0 0 index)))
    match (station u n).incoming with
    | some m =>
      if m.index = index ∧ home = n then
        match objAt u n index with
        | some o => match o.body with
          | .weir w => broadcast u n (.setup (issue u o.hi 0) w.params n true)
          | .keeper k => homeStep u n k.weirHi fun v => homeChecks 4 v n (hiIndex k.weirHi)
          | _ => u
        | none => u
      else releaseReports u n index
    | none => releaseReports u n index
  else if move = 0 ∧ leaving t n index ∧ home ≠ n then
    releaseReports (onStation (dropObj (unsubscribed t n index) n index) n fun st => { st with outgoing := none }) n index
  else releaseReports t n index

/-! ## The old home -/

/-- The outgoing migration of a station changes. -/
def onOutgoing (s : State) (n : Nat) (f : Migration → Migration) : State :=
  onStation s n fun st => { st with outgoing := st.outgoing.map f }

/-- Every rebind is acknowledged: the record COMMITTED goes to the control station. -/
def journalCommits (s : State) (n : Nat) (m : Migration) : State :=
  let j := tgetD s.journal n (0, 0, 0, 0, 0)
  onOutgoing { s with journal := tput s.journal n (j.1, j.2.1, j.2.2.1, j.2.2.2.1, 2) } n fun _ => { m with step := 4, waiting := [] }

/-- A refused copy: the object stays, and its held operations run. -/
def copyRefused (s : State) (n index : Nat) : State :=
  let held := (station s n).frozen
  let s1 := bump (broadcast (chartSet s n index (some ⟨0, n⟩)) n (.chartCommit index 0 n false)) 0x210300
  let s2 := onStation (bump s1 0x2A0505) n fun st => { st with outgoing := none, frozen := [] }
  let s3 := held.foldl (fun t op => homeExec t n op) { s2 with journal := tdel s2.journal n }
  releaseReports s3 n index

/-- The copy's answer reaches the old home: rebinds leave for every station that has members of a moved eddy. -/
def copyAnswered (s : State) (n : Nat) (accepted : Option (List (Nat × Nat))) : State :=
  match (station s n).outgoing with
  | none => s
  | some m =>
    if m.step ≠ 2 ∨ !outgoingGoes s n then s else
    match accepted with
    | none => copyRefused s n m.index
    | some refs =>
      let es := match objAt s n m.index with | some o => o.body.eddies | none => []
      let msgs := es.flatMap fun e =>
        let r := match refs.find? fun p => p.1 == e.ref with | some p => p.2 | none => e.ref
        e.stations.map fun k => (k, MsgBody.rebind m.handle e.ref r m.newHome)
      let m' := { m with step := 3, waiting := msgs.map (·.1), refs := refs }
      let t := sendAll (onOutgoing s n fun _ => m') n msgs
      if msgs.isEmpty then journalCommits t n m' else t

/-- A rebind reaches a station: its members of the eddy follow the object (R346). -/
def rebindArrives (s : State) (n src : Nat) (h : Word) (oldRef newRef newHome : Nat) : State :=
  let t := onWaiters s n fun l => l.map fun w =>
    if w.place = .eddy src oldRef ∧ Handle.hi w.handle = Handle.hi h then { w with place := .eddy newHome newRef } else w
  send t n src (.rebindAck h)

/-- A REBIND_ACK reaches the old home. -/
def rebindAcked (s : State) (n src : Nat) : State :=
  match (station s n).outgoing with
  | some m =>
    if m.step = 3 ∧ m.waiting.contains src ∧ outgoingGoes s n then
      let m' := { m with waiting := m.waiting.erase src }
      if m'.waiting.isEmpty then journalCommits s n m' else onOutgoing s n fun _ => m'
    else s
  | none => s

/-- Whether a migration may commit: a weir's tree messages have arrived. -/
def commitReady (s : State) (n : Nat) (m : Migration) : Bool :=
  match objAt s n m.index with
  | some o => (homeNode s n o).isNone || treeQuiet s o.hi
  | none => true

/-- The control station has accepted COMMITTED: the journaled commit leaves, and the old home waits for every FLUSH. A
weir's home node has left. -/
def commitMigration (s : State) (n : Nat) : State :=
  match (station s n).outgoing with
  | some m =>
    if m.step = 4 ∧ commitReady s n m ∧ outgoingGoes s n then
      let t := bump (broadcast (chartSet s n m.index (some ⟨2, m.newHome⟩)) n (.chartCommit m.index 2 m.newHome true)) 0x210300
      let u := match objAt t n m.index with
        | some o => if (homeNode t n o).isSome then moveWeir t n m.newHome m.index else t
        | none => t
      onOutgoing u n fun _ => { m with step := 5, waiting := others s n }
    else s
  | none => s

/-- Held operations and reports leave for the new home in order, then FORWARD_DONE. -/
def forwardHeld (s : State) (n : Nat) (m : Migration) : State :=
  let st := station s n
  let s1 := onStation (dropReports s n m.index) n fun x => { x with frozen := [] }
  let s2 := st.frozen.foldl (fun t op =>
    if 2 ≤ op.hops then refuse (bump t 0x210501) n op .retry else send t n m.newHome (.fwdOp { op with hops := op.hops + 1 })) s1
  let s3 := (keptReports st m.index).foldl (fun t r => forwardReport t n m.newHome r) s2
  onOutgoing (send s3 n m.newHome (.forwardDone m.handle)) n fun _ => { m with step := 6, waiting := [] }

/-- A FLUSH reaches the old home (R345). -/
def flushArrives (s : State) (n src : Nat) : State :=
  match (station s n).outgoing with
  | some m =>
    if m.step = 5 ∧ m.waiting.contains src ∧ outgoingGoes s n then
      let m' := { m with waiting := m.waiting.erase src }
      if m'.waiting.isEmpty then forwardHeld s n m' else onOutgoing s n fun _ => m'
    else s
  | none => s

/-- FORWARD_DONE reaches the new home: the held operations run, the last commit leaves, the journal record is cleared. -/
def forwardDoneArrives (s : State) (n src : Nat) : State :=
  match (station s n).incoming with
  | some m =>
    if m.oldHome = src ∧ journalGoes s src then
      let st := station s n
      let s1 := onStation s n fun x => { x with incoming := none, hold := [] }
      let s2 := bump (broadcast (chartSet s1 n m.index (some ⟨0, n⟩)) n (.chartCommit m.index 0 n false)) 0x210300
      let s3 := bump { s2 with journal := tdel s2.journal src } 0x2A0504
      let s4 := st.hold.foldl (fun t op => homeExec t n op) s3
      let s5 := releaseReports s4 n m.index
      match objAt s5 n m.index with
      | some o =>
        let s6 := bumpFn s5 (hiFn o.hi) 0x28
        match o.body with
        | .keeper k => homeStep s6 n k.weirHi fun u => homeChecks 4 u n (hiIndex k.weirHi)
        | .weir _ => homeStep s6 n o.hi fun u => homeChecks 4 u n m.index
        | _ => s6
      | none => s5
    else s
  | none => s

/-! ## Interrupted migrations (R478) -/

/-- Whether the home's answer that a PENDING wait is registered travels, or is held behind a shadow record. -/
def registrationDue (s : State) (n : Nat) (w : Waiter) : Bool :=
  (s.course ++ s.stations.flatMap fun p => p.2.shadowHolds.flatMap (·.msgs)).any fun m => m.dst == n && match m.body with
    | .registeredWait tag _ => tag == w.tag
    | _ => false

/-- Whether a wait is registered on an object: on an eddy of its home, the answer to the station still on its way or come, or
at a node of a weir. -/
def registeredOn (s : State) (n : Nat) (o : Obj) (w : Waiter) : Bool :=
  Handle.hi w.handle == o.hi && match w.phase, w.place with
    | .ended, _ => false
    | .pending, .eddy _ _ => registrationDue s n w
    | _, _ => true

/-- The waits registered on an object end with RETRY (R478), and its eddies are empty. -/
def retryWaits (s : State) (home : Nat) (o : Obj) : State :=
  let t := s.stations.foldl (fun t p =>
    ((station t p.1).waiters.filter (registeredOn s p.1 o)).foldl (fun u w => purgeWait u p.1 w .retry) t) s
  let b : Body := match o.body with
    | .counter c => .counter { c with eddies := [] }
    | .landing l => .landing { l with eddies := [] }
    | .queue q => .queue { q with popEddies := [], tollEddies := [] }
    | x => x
  setObj t home (hiIndex o.hi) { o with body := b }

/-- The handle, selector zero, of the object that a station's journal record names: null where neither home holds it. -/
def movedHandle (s : State) (n : Nat) : Word :=
  match tget s.journal n with
  | none => 0
  | some (_, index, oldHome, newHome, _) =>
    match (objAt s oldHome index).or (objAt s newHome index) with
    | some o => issue s o.hi 0
    | none => 0

/-- The migration of a station is resolved from its journal record (R478): the home, the chart, the held work, the record, and
the event. A resolved home that cannot act broadcasts no commit. DESIGN CHOICE (log entry 84): the migration's commits and
messages that are still on the course are gone before the resolved home's commit leaves; R28 and R478 do not say what becomes
of them. -/
def resolveMigration (s : State) (n : Nat) : State :=
  match tget s.journal n with
  | none => s
  | some (fn, index, oldHome, newHome, state) =>
    let home := if state = 2 then newHome else oldHome
    let other := if state = 2 then oldHome else newHome
    let ops := (station s oldHome).frozen.map (oldHome, ·) ++ (station s newHome).hold.map (newHome, ·)
    let reps := keptReports (station s oldHome) index ++ keptReports (station s newHome) index
    let s1 := { s with
      journal := tdel s.journal n
      course := s.course.filter fun m => match m.body with
        | .chartCommit i _ _ _ => i != index
        | .copy c .. => hiIndex c.obj.hi != index
        | .copyAnswer h _ => Handle.index h != index
        | .rebind h _ _ _ => Handle.index h != index
        | .rebindAck h => Handle.index h != index
        | .flush h => Handle.index h != index
        | .forwardDone h => Handle.index h != index
        | _ => true }
    let s2 := onStation (dropReports s1 oldHome index) oldHome fun st => { st with outgoing := none, frozen := [] }
    let s3 := onStation (dropReports s2 newHome index) newHome fun st => { st with incoming := none, hold := [] }
    let s4 := match objAt s3 oldHome index with
      | some o => if state = 2 ∧ (homeNode s3 oldHome o).isSome then moveWeir s3 oldHome newHome index else s3
      | none => s3
    let s5 := if home = other then s4 else dropObj (unsubscribed s4 other index) other index
    let s6 := match objAt s5 home index with
      | some o =>
        let t := retryWaits s5 home o
        if serving (station t home) then chartCommit t home index (some ⟨0, home⟩) else t
      | none => s5
    let s7 := ops.foldl (fun t x => refuse t x.1 x.2 .retry) s6
    let s8 := reps.foldl (fun t r => match objAt t home index with
      | some o => homeStep t home o.hi fun u => reportArrives u home r
      | none => reportArrives t home r) s7
    let s9 := match objAt s8 home index with
      | some o => match o.body with
        | .keeper k => homeStep s8 home k.weirHi fun u => homeChecks 4 u home (hiIndex k.weirHi)
        | .weir _ => homeStep s8 home o.hi fun u => homeChecks 4 u home index
        | _ => s8
      | none => s8
    raise (bump s9 0x2E0B05) 0x24 (generic (movedHandle s n).toNat home fn 0 0)

end Sys2Proof.Machine
end

