-- ==== Sys2Proof/Machine/Entry.lean ====
section
/-!
DEFINITION. The entry station (chapter 03): admission of a record, checks 1 to 8 (Tables 2.4 and 3.3), the way of an
operation to its home, CANCEL, wait limits, and the push channel.
-/

namespace Sys2Proof.Machine

/-! ## Responses that close a transaction without an operation -/

/-- The towpath answers a record with UNAVAILABLE (R532), which ops_refused counts too (R138). -/
def towpathAnswer (s : State) (r : OpRec) : State :=
  bump (bump (putRsp s r.station (.op r.aux r.initId r.xtag ⟨0, 0, r.opTag, .unavailable, false, 0, none⟩)) 0x2F0301)
    0x230502

/-- The towpath answers for a station (R531). -/
def towpathActs (s : State) (n : Nat) : Bool :=
  let st := (station s n).state
  underTest s n || st == .reset || st == .fenced || st == .off || s.power.resetting || s.power.engineOos || s.debug == .zeroising

/-- A station in step V3 or V4 of its drain answers its entry agents with UNAVAILABLE, and pushes nothing (R594). -/
def entryClosed (s : State) (n : Nat) : Bool :=
  match s.service with
  | some v => v.kind == 1 && v.number == n && v.action == 1 && 3 ≤ v.step
  | none => false

/-- While a station takes its entry role back, its substitute answers the agents that leave it with UNAVAILABLE (R595,
R596). -/
def entryLeaving (s : State) (n agent : Nat) : Bool :=
  match s.service with
  | some v => v.kind == 1 && v.action == 3 && 2 ≤ v.step && tget s.substitute v.number == some n &&
      entryOf s agent == v.number && v.number != n
  | none => false

/-! ## The record as an operation -/

/-- What the entry station keeps of a record. -/
def admOf (op : Opcode) (r : OpRec) : Adm where
  n := r.station
  op := op
  agent := r.agent.toNat
  via := .port r.aux r.initId r.xtag
  opTag := r.opTag
  handle := r.handle
  a := r.operandA
  b := r.operandB
  data := if r.payload then some r.data else none
  release := r.release.toNat
  acquire := r.acquire.toNat
  scope := r.scope.toNat
  hold := r.hold
  cookie := r.cookie
  waitLimit := r.waitLimit.toNat
  fn := r.fnStamp.toNat

/-- Whether an agent field names an engine or an auxiliary agent (Table 3.2). -/
def agentFieldOk (a : Nat) : Bool := !agentAux a || a % 8192 < 64

/-- Check 5.1 of Table 3.3. -/
def entryIsMine (s : State) (n agent : Nat) : Bool := agentFieldOk agent && entryOf s agent == n

/-- Checks 1 to 4 of Table 2.4. -/
def functionRefusal (s : State) (op : Opcode) (r : OpRec) : Option Status :=
  let fn := r.fnStamp.toNat
  let agent := r.agent.toNat
  match (fnOf s fn).state with
  | .disabled | .retired => some .nofunc
  | st =>
    if !agentAux agent && corePartition s (agentCore agent) != fnPartition s fn then some .privilege
    else if st = .draining then some .draining
    else if op.supervisor && r.badCode.isNone && !r.supervisor then some .privilege
    else none

/-- Checks 5.2 to 5.8 of Table 3.3. -/
def recordRefusal (op : Opcode) (r : OpRec) : Option Status :=
  if r.badCode.isSome then some .privilege
  else if r.release = 3 ∨ r.acquire = 3 then some .privilege
  else if 6 ≤ r.scope.toNat then some .scope
  else if !op.holdOk r.hold then some .privilege
  else if r.payload != r.wide || (r.payload && !op.payloadIn) then some .privilege
  else if r.rsv ≠ 0 ∨ (!op.waits ∧ (r.cookie ≠ 0 ∨ r.waitLimit ≠ 0)) then some .privilege
  else if !within r.operandA op.bitsA || !within r.operandB op.bitsB then some .privilege
  else match op.cls with
    | .none => if r.handle = 0 then none else some .badhandle
    | .any => if classDefined (Handle.cls r.handle) then none else some .badhandle
    | .cls c => if Handle.cls r.handle = c then none else some .badhandle

/-- Whether a class's chapter defines the selector of its handles (Table 2.2). -/
def selectorDefined (cls : Nat) : Bool := cls == 3 || cls == 6

/-- Checks 6 and 7 of Table 2.4, and check 6 of a creation template (R101). -/
def handleRefusal (s : State) (op : Opcode) (r : OpRec) : Option Status :=
  let h := r.handle
  if op.cls = .none then none
  else if op.creates then
    if h = BitVec.ofNat 64 (field 12 52 r.fnStamp.toNat + field 4 38 (Handle.cls h)) then none else some .badhandle
  else if Handle.fn h ≠ r.fnStamp.toNat ∨ (!selectorDefined (Handle.cls h) ∧ Handle.sel h ≠ 0) then some .badhandle
  else if tagOk s h then none else some .badhandle

/-- Checks 1 to 7: the first that fails. -/
def checkRefusal (s : State) (op : Opcode) (r : OpRec) : Option Status :=
  match functionRefusal s op r with
  | some st => some st
  | none => match recordRefusal op r with
    | some st => some st
    | none => handleRefusal s op r

/-! ## Check 8 (R75 to R78) -/

/-- A function's bucket at a station now, in 1/256 operation; one that was never used is full. -/
def bucketNow (s : State) (n fn : Nat) : Nat :=
  let top := 256 * fnSetting s fn 0x05
  match tget (station s n).buckets fn with
  | some b => min top (b.level + fnSetting s fn 0x04 * (s.clock.fc - b.at_))
  | none => top

/-- One whole operation is taken from the bucket. -/
def takeBucket (s : State) (n fn : Nat) : State :=
  let v := bucketNow s n fn - 256
  onStation s n fun st => { st with buckets := tput st.buckets fn ⟨v, s.clock.fc⟩ }

/-! ## Waits at the entry station -/

/-- The withdrawal of a wait leaves for its home (R152), which the chart gives. -/
def sendWithdrawal (s : State) (n : Nat) (w : Waiter) : State :=
  let ref := match w.place with | .eddy _ r => r | _ => 0
  send s n (homeOf s n (Handle.index w.handle)) (withdrawMsg n w ref)

/-- A CANCEL as its answer needs it. -/
def cancelOp (x : Adm) : OpenOp := ⟨0, .cancel, x.agent, x.via, x.opTag, x.acquire, x.scope, x.fn, none, x.handle, x.a⟩

/-- The posted wait of an agent that a CANCEL names (R105). -/
def cancelled (s : State) (x : Adm) : Option Waiter :=
  (station s x.n).waiters.find? fun w =>
    w.agent == x.agent && !w.hold && w.handle == x.handle && w.cookie == x.a && !w.failed && w.cancel.isNone &&
    (w.phase == .pending || w.phase == .joined)

/-- CANCEL (R105, R152): a wait at an eddy is withdrawn first; a weir's wait ends here. DESIGN CHOICE (log entry 59): Table
4.6 moves only a JOINED wait to WITHDRAWING; for one that is PENDING the withdrawal leaves at once, behind its registration,
and the record stays PENDING until the registration's response. A posted wait that is PENDING at a listener node is answered
PARKED first, then the CANCEL OK. -/
def cancelWait (s : State) (x : Adm) : State :=
  match cancelled s x with
  | none => refuseAdm s x .stale
  | some w =>
    match w.place with
    | .eddy _ _ =>
      let w' := { w with cancel := some (cancelOp x), phase := if w.phase = .joined then .withdrawing else .pending }
      sendWithdrawal (setWaiter s x.n w') x.n w'
    | _ =>
      let t := if w.phase = .pending then respond s x.n w.reply (parkedRsp w.scope w.opTag) else s
      answerAdm (dropWaiter t x.n w.id) x ⟨.ok, 0, 0, none, none⟩

/-- A wait's effective limit passes (R115, R152). A wait still PENDING at its home is withdrawn once it has joined. -/
def waitTimesOut (s : State) (n id : Nat) : State :=
  match waiterAt s n id with
  | none => s
  | some w =>
    match w.deadline with
    | none => s
    | some d =>
      if w.failed then s else
      let t := passDeadline s d
      match w.phase, w.place with
      | .joined, .eddy _ _ =>
        let w' := { w with phase := .withdrawing }
        sendWithdrawal (setWaiter t n w') n w'
      | .joined, _ => endWait t n w (plain .timeout)
      | .pending, .listener _ _ => respond (bump (dropWaiter t n id) 0x230507) n w.reply
          (mkRsp w.acquire w.scope w.opTag (plain .timeout))
      | _, _ => s

/-! ## On the way to the home -/

/-- An operation leaves for its home, or is executed where the entry station is the home (R26). -/
def forwardAdm (s : State) (x : Adm) (home : Nat) (wait : Option Nat) : State :=
  let (t, tag) := openAdm s x wait
  let f : FwdOp := ⟨x.op, x.agent, x.n, tag, wait.getD 0, x.handle, x.a, x.b, x.data, x.release, x.acquire, x.scope,
    x.hold, 0⟩
  let u := match wait with
    | some id => onWaiters t x.n fun l => l.map fun w => if w.id = id then { w with tag := tag } else w
    | none => t
  if home = x.n then opAtHome u x.n f else send u x.n home (.fwdOp f)

/-- An object operation: a waiting opcode takes its waiter record first (R68, R147). -/
def toHome (s : State) (x : Adm) : State :=
  let home := homeOf s x.n (Handle.index x.handle)
  if x.op.waits then
    if recordsFree s x.n x.fn 1 then
      let (t, id) := takeWaiter s x 0 .pending (.eddy home 0)
      forwardAdm t x home (some id)
    else refuseAdm s x .quota
  else forwardAdm s x home none

/-- Whether the ledger and the beacon words leave room for a creation whose fields the entry station must read to choose its
home: check 11 comes before check 12 (Table 2.4). -/
def ledgerOpen (s : State) (x : Adm) : Bool :=
  match x.op with
  | .weirCreate => objectQuota s x.fn && (!bit x.b 3 || (takeWord s x.fn).isSome)
  | .skCreate => objectQuota s x.fn 2
  | .frCreate => objectQuota s x.fn
  | _ => true

/-- What a creation takes at a home, and the cost of a home, with the refusal of its fields (R341, Tables 4.3, 5.7, 8.5,
10.11, 11.7). -/
def creationHome (s : State) (x : Adm) : Status ⊕ Nat :=
  let one : Takes := ⟨1, 0, false, 0⟩
  let pick := fun (o : Option Nat) => match o with | some n => Sum.inr n | none => Sum.inl Status.quota
  if x.op = .frCreate && !ruleHandlesOk s x.fn (newRule x.fn x.a x.b (x.data.getD 0)) then .inl .badhandle
  else if !ledgerOpen s x then .inl .quota
  else match x.op with
  | .ctrCreate | .landCreate => if hintBad x.b then .inl .privilege else pick (hintHome s x.n x.b one)
  | .qCreate => if hintBad x.b then .inl .privilege else pick (hintHome s x.n x.b { one with windows := 2 })
  | .weirCreate =>
    match weirRefusal s x.fn x.a x.b x.data with
    | some st => .inl st
    | none =>
      let p := weirParams x.a x.b x.data
      pick (chooseHome s (fun n => let y := newNode s 0 p n n 0; ⟨1, y.records, y.slot, 0⟩) (weirCost s p.parts))
  | .frCreate =>
    match chooseHome s (fun _ => { one with records := 1 }) (ruleCost s x.n (newRule x.fn x.a x.b (x.data.getD 0))) with
    | some n =>
      if !recordsFree s n x.fn 1 then .inl .quota
      else if ruleFieldsOk s x.fn x.a x.b x.data then .inr n else .inl .privilege
    | none => .inl .quota
  | .skCreate =>
    let p := keeperParams x.a x.b
    match chooseHome s (keeperTakes s x.a x.b) (weirCost s p.parts) with
    | some n =>
      if !nodeQuota s x.fn (newNode s 0 p n n 0) n (2 * bits x.b 8 0) then .inl .quota
      else match keeperRefusal s x.fn x.a x.b x.data with
        | some st => .inl st
        | none => .inr n
    | none => .inl .quota
  | _ => pick (if holds s x.n one then some x.n else none)

/-- A creation goes to its home. -/
def createAdm (s : State) (x : Adm) : State :=
  match creationHome s x with
  | .inl st => refuseAdm s x st
  | .inr home => forwardAdm s x home none

/-! ## Operations that the entry station serves -/

/-- LOAD_REPORT (R331). -/
def loadAdm (s : State) (x : Adm) : State :=
  if agentAux x.agent then refuseAdm s x .privilege
  else answerAdm (setLoad s x.n x.agent (bits x.a 3 0)) x ⟨.ok, 0, 0, none, none⟩

/-- The epoch operand. -/
def epochOf (a : Word) : BitVec 32 := a.setWidth 32

/-- Arrivals and waits on a weir (R165 to R173, R354). A step of the home's own node is the home's step. An arrival at a
station without a node goes to the home (R165), one that waits with its waiter record taken first (R68). -/
def weirAdm (s : State) (x : Adm) : State :=
  let home := homeOf s x.n (Handle.index x.handle)
  let e := epochOf x.a
  match nodeFor s x.n x.handle with
  | some node =>
    match x.op with
    | .weirWait => homeStep s x.n (Handle.hi x.handle) fun t => nodeWait t x node e
    | _ =>
      if node.params.keeper.isSome then refuseAdm s x .privilege
      else homeStep s x.n (Handle.hi x.handle) fun t =>
        if x.op = .weirArrive then nodeArrive t x node e x.data else nodeArriveWait t x node e
  | none =>
    match x.op with
    | .weirWait => if (chartAt s x.n (Handle.index x.handle)).isSome then listenWait s x home e else refuseAdm s x .badhandle
    | _ => toHome s x

/-- The node of a keeper's weir at a station; a listener's takes no report (R354). -/
def keeperNode (s : State) (n : Nat) (hi : BitVec 40) : Option Node :=
  ((station s n).nodes.find? fun p => p.2.role != 0 && p.2.ofKeeper hi).map (·.2)

/-- The refusal of a report at the entry station (R358). -/
def reportBad (x : Adm) (g : Nat) : Bool :=
  let j := Handle.sel x.handle
  let blocks := (g + 3) / 4
  blocks ≤ j || match x.data with
    | none => true
    | some d => (List.range 16).any fun l => 4 * j + l / 4 < g && 2 ^ 31 ≤ payloadNat d (4 * l) 4

/-- SK_REPORT (R352, R357, R358). -/
def reportAdm (s : State) (x : Adm) : State :=
  match keeperNode s x.n (Handle.hi x.handle) with
  | some node =>
    let g := match node.params.keeper with | some (_, k) => k | none => 0
    if node.keeperLost then refuseAdm s x .integrity
    else if reportBad x g then refuseAdm s x .privilege
    else
      let e : BitVec 32 := BitVec.ofNat 32 (bits x.a 31 0 * ((g + 3) / 4) + Handle.sel x.handle)
      homeStep s x.n node.hi fun t => nodeArrive t x node e x.data
  | none => forwardAdm s x (homeOf s x.n (Handle.index x.handle)) none

/-- The free entry of a link seal buffer (R238). -/
def linkEntry (s : State) (port : Nat) : Option Nat :=
  (List.range 256).find? fun k => (tget s.seals (256 * (16 + port) + k)).isNone

/-- A seal that came over a link is turned away: its entry is free, and it is counted (R238). -/
def linkSealRefused (s : State) (x : Adm) (port : Nat) (st : Status) : State :=
  refuseAdm (countSealDiscard (returnCredit s port 0 0 1) x.fn) x st

/-- A refusal at the entry station: a seal from a peer chip frees its entry too. -/
def turnAway (s : State) (x : Adm) (st : Status) : State :=
  match x.op, x.via with
  | .landSeal, .link port .. => linkSealRefused s x port st
  | _, _ => refuseAdm s x st

/-- LAND_SEAL from a peer chip (R238): held in the arrival port's buffer and registered with the home. -/
def linkSeal (s : State) (x : Adm) (port : Nat) : State :=
  match linkEntry s port with
  | none => linkSealRefused s x port .quota
  | some k =>
    let r : SealRef := ⟨Handle.hi x.handle, BitVec.ofNat 8 (Handle.sel x.handle), 16 + port, k⟩
    let st := station s x.n
    let tag := leastUnused (st.openOps.map (·.tag))
    let o : OpenOp := ⟨tag, x.op, x.agent, x.via, x.opTag, x.acquire, x.scope, x.fn, none, x.handle, x.a⟩
    let f : FwdOp := ⟨x.op, x.agent, x.n, tag, 0, x.handle, x.a, x.b, x.data, x.release, x.acquire, x.scope, x.hold, 0⟩
    let t := sealDeposited (setStation s x.n { st with openOps := st.openOps ++ [o] }) r x.a x.b (x.data.getD 0)
    send t x.n (homeOf t x.n (Handle.index x.handle)) (.sealRegister r f)

/-- A seal registration at the counter's home (R238): checks 9 and 10 and those of Table 7.6; a refused seal is
discarded. -/
def sealRegistered (s : State) (n : Nat) (r : SealRef) (f : FwdOp) : State :=
  let deny := fun (t : State) (i : EndInfo) => answer (send t n (bufferStation t r.buffer) (.sealDiscard r)) n f i
  match stateRefusal s (Handle.fn f.handle) with
  | some st => deny s (plain st)
  | none => match liveObj s n f.handle with
    | none => deny s (plain .badhandle)
    | some o =>
      homeStep s n o.hi fun t => match o.body with
        | .landing l =>
          let o' := track t o f
          if o.failed then deny t (plain .integrity)
          else if Handle.sel f.handle ≠ l.xgen.toNat then deny t (plain .stale)
          else if !sealOk f then deny t (plain .privilege)
          else registerLinkSeal (setObj t n (hiIndex o.hi) o') n o' l r f
        | _ => deny t (plain .badhandle)

/-- An admitted operation acts. -/
def proceed (s : State) (x : Adm) : State :=
  match x.op with
  | .nop => answerAdm s x ⟨.ok, 0, 0, none, none⟩
  | .loadReport => loadAdm s x
  | .cancel => cancelWait s x
  | .weirArrive | .weirWait | .weirArriveWait => weirAdm s x
  | .skReport => reportAdm s x
  | .landSeal => match x.via with
    | .link port .. => linkSeal s x port
    | _ => toHome s x
  | op => if op.creates then createAdm s x else toHome s x

/-! ## Admission -/

/-- Whether an operation goes onward over the course (R77): its path. A creation goes to the home chosen for it; NOP, CANCEL,
LOAD_REPORT and what a node of the station takes go no further. -/
def remotePath (s : State) (x : Adm) : Bool :=
  let away := homeOf s x.n (Handle.index x.handle) != x.n
  match x.op with
  | .nop | .cancel | .loadReport | .weirWait => false
  | .weirArrive | .weirArriveWait => away && (nodeFor s x.n x.handle).isNone
  | .skReport => away && (keeperNode s x.n (Handle.hi x.handle)).isNone
  | op =>
    if op.creates then match creationHome s x with
      | .inr home => home != x.n
      | .inl _ => false
    else away

/-- Whether two operations are of one engine on one object, whose order the engine keeps (R45). -/
def sameTrain (x e : Adm) : Bool := e.agent == x.agent && Handle.hi e.handle == Handle.hi x.handle

/-- Whether an admitted operation does not go onward at once: its station does not take it in this fc (`busy`), its path's
budget queue is not empty, or an earlier operation of its engine on its object waits in the excess buffer. -/
def waitsTurn (s : State) (x : Adm) (busy : Bool) : Bool :=
  let st := station s x.n
  busy || (st.budget.any fun e => remotePath s e.2 == remotePath s x) || st.excess.any (sameTrain x)

/-- An operation that has passed checks 1 to 7 meets check 8 (R75 to R78). A wait that queues behind it holds no PENDING record,
and is not tested for QUOTA, until its station takes it onward (DESIGN CHOICE, log entry 87: R147 admits a wait after check 8,
and Table 4.6 takes its record as its registration is forwarded). -/
def admitShare (s : State) (x : Adm) (busy : Bool) : State :=
  let n := x.n
  let st := station s n
  if 256 ≤ bucketNow s n x.fn then
    let t := takeBucket s n x.fn
    if waitsTurn s x busy then
      onStation t n fun u => { u with budget := u.budget ++ [((st.excess.filter (sameTrain x)).length, x)] }
    else proceed t x
  else if 64 ≤ st.excess.length then turnAway (bumpFn s x.fn 0x15) x .retry
  else if waitsTurn s x busy || st.excess.any (fun e => remotePath s e == remotePath s x) then
    setStation s n { st with excess := st.excess ++ [x] }
  else proceed s x

/-- A record that a station accepts: the fence, check 5.1, then the checks in order (R68, R472). -/
def acceptOp (s : State) (op : Opcode) (r : OpRec) : State :=
  let n := r.station
  let x := admOf op r
  if !r.aux && s.fenced.contains r.initId.toNat then refuseAdm s x .fenced
  else if !entryIsMine s n x.agent then
    bump (putRsp s n (.op r.aux r.initId r.xtag ⟨0, 0, 0, .privilege, false, 0, none⟩)) 0x230502
  else
    let t := bump (touch s n) 0x230501
    match checkRefusal t op r with
    | some st => refuseAdm t x st
    | none => admitShare t x r.busy

/-- Whether a station's port receives transfers. -/
def portHere (s : State) (n : Nat) : Bool := (station s n).state != .absent && portsLive s

/-! ## The receive buffer of a station's port (R96, R125, R126, R520 to R526, R531, R532) -/

/-- The station whose port receives a request. -/
def RxItem.station : RxItem → Nat
  | .record _ r => r.station
  | .beacon a => a.station
  | .access a => a.station

/-- An error response: one beat with err 1 and zero data, on the received lane where the header failed its parity (Table
16.1). -/
def errorRsp (s : State) (n : Nat) (aux : Bool) (initId xtag : BitVec 12) (lane : Option Nat) : State :=
  putRsp s n (.access aux initId xtag lane true 0)

/-- The error response to an access that is not parsed. -/
def accessError (s : State) (a : AccessIn) : State :=
  errorRsp s a.station a.aux a.initId a.xtag (if a.fault.cause = .headerParity then some a.fault.lane.toNat else none)

/-- A beacon word as a reader of a function sees it (R126). -/
def beaconSeen (s : State) (n fn w : Nat) : Word :=
  if tget s.words w = some fn then tgetD (station s n).beacon w 0 else 0

/-- The beat of some words in address order, each least significant byte first (R523, R526). -/
def wordsBeat (l : List Word) : Beat :=
  let bytes := l.flatMap fun w => bytesLE 8 w.toNat
  BitVec.ofNat 256 (ofBytesBE (bytes ++ List.replicate (32 - bytes.length) 0))

/-- Whether a read lies in the beacon page, aligned to its size (Table 3.1). -/
def beaconFits (a : ApertureRead) : Bool :=
  a.word < 512 && (!a.wide || a.word % 4 == 0)

/-- A station answers a beacon read with its words; one outside the page, or not aligned, with an error response. -/
def beaconAnswer (s : State) (a : ApertureRead) : State :=
  let n := a.station
  if !beaconFits a then bump (errorRsp s n a.aux a.initId a.xtag none) 0x230505
  else
    let words := (List.range (if a.wide then 4 else 1)).map fun i => beaconSeen s n a.fnStamp.toNat (a.word + i)
    putRsp (touch s n) n (.access a.aux a.initId a.xtag none false (wordsBeat words))

/-- Transfers leave a receive buffer: their credits return (R520, R521). -/
def creditsBack (s : State) (c : RxChannel) (k : Nat) : State :=
  drive s (List.replicate k (.credit c))

/-- A record's transfers leave the receive buffer of their lane, which its initiator fixes (R525); beats that a code has
corrected are counted (R524). -/
def recordReceived (s : State) (r : OpRec) : State :=
  correctedWords (creditsBack s (.xpRequest r.station (r.initId.toNat % 2)) (if r.wide then 2 else 1)) 3 r.corrected

/-- The transfers of an access that is not parsed. -/
def accessTransfers (f : AccessFault) : Nat := if f.wide then 2 else 1

/-- Those of them that fail. -/
def failingTransfers (f : AccessFault) : Nat := if f.wide && f.both then 2 else 1

/-- A request leaves the receive buffer. -/
def received (s : State) : RxItem → State
  | .record _ r => recordReceived s r
  | .beacon a => creditsBack s (.xpRequest a.station (a.initId.toNat % 2)) 1
  | .access a => creditsBack s (.xpRequest a.station a.fault.lane.toNat) (accessTransfers a.fault)

/-- The towpath takes a request: UNAVAILABLE to a record, an error response to any other access, each counted (R532). -/
def towpathTakes (s : State) (x : RxItem) : State :=
  match x with
  | .record _ r => towpathAnswer (recordReceived s r) r
  | .beacon a => bump (errorRsp (received s x) a.station a.aux a.initId a.xtag none) 0x2F0301
  | .access a => bump (accessError (received s x) a) 0x2F0301

/-- The station takes a request. -/
def stationTakes (s : State) (x : RxItem) : State :=
  match x with
  | .record op r => acceptOp (recordReceived s r) op r
  | .beacon a => beaconAnswer (received s x) a
  | .access a =>
    let t := accessError (received s x) a
    if a.fault.cause = .unaccepted then bump t 0x230505 else t

/-- Whether the towpath answers a request: what R531 says, and for a record what an entry that passes to another station says
(R595, R596). -/
def towpathFor (s : State) (x : RxItem) : Bool :=
  towpathActs s x.station || match x with
    | .record _ r => entryClosed s r.station || entryLeaving s r.station r.agent.toNat
    | _ => false

/-- A request is presented at a station's port: the towpath, a dozing station's receive buffer, or the station takes it. A
station that the configuration lacks, or whose port is not present, receives none (R534). -/
def presented (s : State) (x : RxItem) : State :=
  let n := x.station
  if !portHere s n then s
  else if towpathFor s x then towpathTakes s x
  else if (station s n).state = .dozing then onStation s n fun st => { st with
    rx := st.rx ++ [x]
    holdUntil :=
      let limit := s.clock.fc + setting s 0x2F0200
      if st.rx.isEmpty then limit else min st.holdUntil limit }
  else stationTakes s x

/-- A record is presented at a station's op window. -/
def submit (s : State) (op : Opcode) (r : OpRec) : State := presented s (.record op r)

/-- Requests that waited in a dozing station's receive buffer are taken (R571). -/
def takeRx (s : State) (n : Nat) : State :=
  (station s n).rx.foldl stationTakes (onStation s n fun st => { st with rx := [] })

/-- Foreground work wakes a dozing station (R571); wakes and the cycles spent dozing are counted. -/
def wakeStation (s : State) (n : Nat) : State :=
  if (station s n).state = .dozing then
    let t := bumpBy (bump s 0x210405) 0x210406 (s.clock.fc - (station s n).idleSince)
    takeRx (onStation t n fun st => { st with state := .active, idleSince := s.clock.fc }) n
  else s

/-- An operation that has waited is taken; its function may have left ENABLED (R49). -/
def takeWaiting (s : State) (x : Adm) : State :=
  match stateRefusal s x.fn with
  | some refusal => turnAway s x refusal
  | none => proceed s x

/-- The operation that a station takes next of a path (R77): of its budget queue, or an excess operation where that queue is
empty. DEDUCED (log entry 58): a budget operation behind an earlier excess operation of its engine on its object waits for it
(R45); where the queue holds only such operations, the excess operation that one of them waits for is taken. -/
def takeNext (s : State) (n : Nat) (path : Bool) : State :=
  let st := station s n
  if st.state != .active || towpathActs s n then s else
  match takeFirst (fun e => e.1 == 0 && remotePath s e.2 == path) st.budget with
  | some (e, rest) => takeWaiting (setStation s n { st with budget := rest, idleSince := s.clock.fc }) e.2
  | none =>
    let waits := st.budget.filter fun b => remotePath s b.2 == path
    match takeFirst (fun e => remotePath s e == path && (waits.isEmpty || waits.any fun b => sameTrain b.2 e)) st.excess with
    | some (e, rest) =>
      takeWaiting (setStation s n { st with
        excess := rest, idleSince := s.clock.fc
        budget := st.budget.map fun b => if sameTrain b.2 e then (b.1 - 1, b.2) else b }) e
    | none => s

/-- A station's queued operations without some of them: a budget operation waits for the excess operations before it that
are left. -/
def dropQueued (st : Station) (p : Adm → Bool) : Station :=
  { st with
    excess := st.excess.filter (!p ·)
    budget := (st.budget.filter (!p ·.2)).map fun b =>
      ((((st.excess.filter (sameTrain b.2)).take b.1).filter (!p ·)).length, b.2) }

/-! ## The push channel (R118 to R122, R526, R527) -/

/-- The mailbox credits of an engine at a station. -/
def pushCredits (s : State) (n agent : Nat) : Nat := mailboxLeft s (station s n) agent

/-- Whether the PARKED response of a wait has not been driven (R131): the home's step that holds it is not written yet, or it
waits for its lane's credit. -/
def parkedDue (st : Station) (w : Waiter) : Bool :=
  (st.openOps.any fun o => o.reply == w.reply && o.wait.isNone && (o.op == .weirWait || o.op == .weirArriveWait)) ||
  st.rspQueue.any fun r => match r, w.reply with
    | .op aux id xtag x, .port aux' id' xtag' => x.status == .parked && aux == aux' && id == id' && xtag == xtag'
    | _, _ => false

/-- Whether a message may be pushed: its engine's core is not fenced (R122, R473), and the PARKED of its wait is out (R131). -/
def pushable (s : State) (n : Nat) (m : PushMsg) : Bool :=
  !agentFenced s m.agent && match m.wait with
    | some id => match waiterAt s n id with
      | some w => !parkedDue (station s n) w
      | none => true
    | none => true

/-- The first ready message that may be pushed and whose engine has credit, and behind no earlier message for it. -/
def nextPush (s : State) (n : Nat) : List Nat → List PushMsg → Option PushMsg
  | _, [] => none
  | held, m :: rest =>
    if !held.contains m.agent && pushable s n m && m.cost ≤ pushCredits s n m.agent then some m
    else nextPush s n (m.agent :: held) rest

/-- A pushed message: a wake returns its waiter record; a launch adds one to its engine's load and answers its rule
(R120, R329, R330). -/
def pushed (s : State) (n : Nat) (m : PushMsg) : State :=
  let t := match m.wait with | some id => dropWaiter s n id | none => s
  match m.launch with
  | some (_, hi, _) =>
    let load := min 15 (tgetD (station t n).loads m.agent 0 + 1)
    let u := setLoad t n m.agent load
    send u n (homeOf u n (hiIndex hi)) (.launchAnswer (nameOf hi) .ok m.agent)
  | none => t

/-- A message that has credit is pushed on a free lane. -/
def pushNext (s : State) (n : Nat) : State :=
  let st := station s n
  if !awake st || towpathActs s n || entryClosed s n then s else
  match nextPush s n [] st.ready with
  | none => s
  | some m =>
    match laneFor st.pushCredit m.cost with
    | none => s
    | some lane =>
      let seq := tgetD st.pushSeq m.agent 0
      let rest := match takeFirst (· == m) st.ready with | some (_, r) => r | none => st.ready
      let t := setStation s n { st with
        ready := rest, pushCredit := laneUse st.pushCredit lane m.cost
        pushUsed := tput st.pushUsed m.agent (tgetD st.pushUsed m.agent 0 + m.cost)
        pushSeq := tput st.pushSeq m.agent ((seq + 1) % 65536), idleSince := s.clock.fc }
      bump (pushed (drive t [.push n lane m seq]) n m) 0x230503

end Sys2Proof.Machine
end

