-- ==== Sys2Proof/Machine/Reception.lean ====
section
/-!
DEFINITION. What the attach station of a link port serves (R44, R444, R445): OP and TOKENS caravans, and the REPLY and
TOKEN_ACK that end them; and the work that every step ends with.
-/

namespace Sys2Proof.Machine

/-- A link port's operation as a record (R444): its agent is the port's, its supervisor bit, hold, cookie and wait limit
are zero, and it acquires nothing. -/
def linkRecordOf (s : State) (port fn : Nat) (h a b : Word) (data : Option Payload) (release scope : Nat) (hold : Bool)
    (opTag : BitVec 16) : OpRec where
  station := linkAttach s port
  aux := true
  initId := 0
  xtag := 0
  wide := data.isSome
  busy := false
  badCode := none
  release := BitVec.ofNat 2 release
  acquire := 0
  scope := BitVec.ofNat 3 scope
  hold := hold
  payload := data.isSome
  supervisor := false
  fnStamp := BitVec.ofNat 12 fn
  agent := BitVec.ofNat 14 (linkAgent port)
  rsv := 0
  opTag := opTag
  handle := h
  operandA := a
  operandB := b
  cookie := 0
  waitLimit := 0
  data := data.getD 0
  corrected := 0

/-- A link port's operation meets the checks of Table 2.4 but check 2, which an auxiliary agent has not (R56, R444). It counts in
neither ops_accepted nor ops_refused, which count the records of the crossbar port (DESIGN CHOICE, log entry 86: R138 does not
say whether an attach station's operations count). -/
def admitLink (s : State) (op : Opcode) (r : OpRec) (via : ReplyTo) : State :=
  let x : Adm := { admOf op r with via := via }
  match checkRefusal s op r with
  | some st => turnAway s x st
  | none => admitShare s x false

/-- The originating chip of an operation that waits for REPLY. An undefined opcode is answered PRIVILEGE. -/
def serveOp (s : State) (port : Nat) (h : Flit) (bodies : List Flit) (payload : Option (List Flit)) : State :=
  let fn := headFn h
  let tag : BitVec 16 := BitVec.ofNat 16 (headField h 48 33)
  let via : ReplyTo := .link port (headSrc h) fn tag (headField h 32 27)
  let b0 := bodies.headD 0
  let b1 := (bodies.drop 1).headD 0
  let r := linkRecordOf s port fn (b0.extractLsb' 64 64) (b0.extractLsb' 0 64) (b1.extractLsb' 64 64)
    (payload.map flitsPayload) (headRelease h) (headScope h) false tag
  match Opcode.ofCode (headField h 57 50) with
  | some op => admitLink (wakeStation s r.station) op r via
  | none => refuseAdm s { admOf .nop r with via := via } .privilege

/-- The tokens of a TOKENS caravan as the payload of a push (R266, Table 13.2). -/
def tokensPayload (bodies : List Flit) (n : Nat) : Payload :=
  let words := ((bodies.flatMap fun f => [(f.extractLsb' 64 64).toNat, (f.extractLsb' 0 64).toNat]).drop 1).take n
  payloadOf (words.flatMap (bytesLE 8))

/-- TOKENS (R445): a held Q_TOLL for the tokens first. -/
def serveTokens (s : State) (port : Nat) (h : Flit) (bodies : List Flit) : State :=
  let fn := headFn h
  let n := headField h 57 55
  let handle : Word := (bodies.headD 0).extractLsb' 64 64
  let marks : BitVec 8 := BitVec.ofNat 8 (headField h 54 48)
  let via : ReplyTo := .tokens port (headSrc h) fn (headField h 47 42) n marks (tokensPayload bodies n) handle
    (headScope h) (headRelease h) 0
  let r := linkRecordOf s port fn handle (BitVec.ofNat 64 n) 0 none (headRelease h) (headScope h) true 0
  admitLink (wakeStation s r.station) .qToll r via

/-- The push that follows a granted toll. -/
def pushLinkTokens (s : State) (port src fn bridge n : Nat) (marks : BitVec 8) (data : Payload) (handle : Word)
    (scope release : Nat) : State :=
  let via : ReplyTo := .tokens port src fn bridge n marks data handle scope release 1
  admitLink s .qPush (linkRecordOf s port fn handle 0 (BitVec.ofNat 64 (marks.toNat * 256 + n)) (some data) release scope
    false 0) via

/-- The answer of an operation that came from a link reaches its attach station (R444, R445). -/
def linkAnswered (s : State) (via : ReplyTo) (r : Rsp) : State :=
  match via with
  | .link port src fn tag bridge => sendReply s (linkAttach s port) src fn tag bridge r
  | .tokens port src fn bridge n marks data handle scope release stage =>
    if stage = 0 ∧ r.status = .ok then pushLinkTokens s port src fn bridge n marks data handle scope release
    else sendTokenAck s (linkAttach s port) src fn bridge n r.status.code
  | .port .. | .closed => s

/-- Answers to operations from links are acted on, in order. -/
def linkAnswers : Nat → State → State
  | 0, s => s
  | fuel + 1, s =>
    match s.linkWork with
    | [] => s
    | (_, via, r) :: rest => linkAnswers fuel (settle 64 (linkAnswered { s with linkWork := rest } via r))

/-- OP reaches its chip, with the OP_PAYLOAD that its kind_field announces (R426). -/
def opUnit (s : State) (p : Nat) (h : Flit) (bodies : List Flit) (payload : Option (Flit × List Flit)) : State :=
  let isSeal := headField h 57 50 == 0x34
  routeUnit s p ⟨(h, bodies) :: payload.toList, isSeal, none⟩ h fun t => serveOp t p h bodies (payload.map (·.2))

/-- An OP whose OP_PAYLOAD will not come leaves its port's buffer. -/
def dropPart (s : State) (p : Nat) : State :=
  match (linkAt s p).opPart with
  | some u => returnUnit (discardCaravans (onLink s p fun l => { l with opPart := none }) 1) p ⟨[u], headField u.1 57 50 == 0x34, none⟩
  | none => s

/-- An OP or OP_PAYLOAD is presented (R424, R426): each is accepted or discarded for itself. An OP that announces a payload
waits in its port's buffer, and the OP_PAYLOAD completes it; one that completes none is discarded (log entry 38). -/
def opPresented (s : State) (c : CaravanIn) : State :=
  let p := c.port
  if (linkAt s p).state = .absent then s
  else if !acceptable s p c then rejectCaravan s c
  else
    let t := acceptCaravan s c
    if headKind c.head = 0x20 then
      let u := dropPart t p
      if bit c.head 49 then onLink u p fun l => { l with opPart := some (c.head, c.bodies) }
      else opUnit u p c.head c.bodies none
    else match (linkAt t p).opPart with
      | some o => opUnit (onLink t p fun l => { l with opPart := none }) p o.1 o.2 (some (c.head, c.bodies))
      | none => returnCredit (discardCaravans t 1) p 0 1 0

/-- A caravan on the course arrives: at the attach station of its port, or at the home of its object, where it waits while the
object moves (R349, R422). -/
def caravanAt (s : State) (n : Nat) (out isSeal : Bool) (parts : List (Flit × List Flit)) : State :=
  if out then caravanLeaves s n isSeal parts
  else
    let c := parts.headD (0, [])
    atObject s n (nameOf (handleHi (headFn c.1) 0 0 (caravanIndex s c.1))) (.caravan out isSeal parts) fun t =>
      caravanActs t n c.1 c.2

/-- Whether a caravan that a station has sent to itself is taken at once: its object is not on the move. -/
def caravanDue (s : State) (m : Msg) : Bool :=
  m.src == m.dst && awake (station s m.dst) && match m.body with
    | .caravan out _ parts =>
      let i := caravanIndex s ((parts.headD (0, [])).1)
      out || !(leaving s m.dst i || coming s m.dst i)
    | _ => false

/-- The caravans that stations have sent to themselves are taken, in order. -/
def localCaravans : Nat → State → State
  | 0, s => s
  | fuel + 1, s =>
    match takeFirst (caravanDue s) s.course with
    | some (m, rest) => match m.body with
      | .caravan out isSeal parts => localCaravans fuel (caravanAt { s with course := rest } m.dst out isSeal parts)
      | _ => s
    | none => s

end Sys2Proof.Machine
end

