-- ==== Sys2Proof/Machine/Snapshot.lean ====
section
/-!
DEFINITION. Capture entries (R467, R468, Tables 14.9 and 14.10): the records of a partition's functions as the tables
of the chapters lay them out. DESIGN CHOICE (log entry 38): which waiter record, window or slot of a station a record
occupies, and the layout of an arrival map entry of list form.
-/

namespace Sys2Proof.Machine

/-! ## Positions in a station's stores -/

/-- What occupies waiter records of a station besides its eddies. -/
inductive RecKey where
  | node (index : Nat)
  | map (index : Nat)
  | overflow (index : Nat)
  | sys (index : Nat)
  | seal_ (index k : Nat)
  | watch (index k : Nat)
  | ext (index : Nat)
  | group (index : Nat)
  | wait (id : Nat)
  deriving DecidableEq, Repr

/-- The arrival map records of a node (R164). -/
def Node.mapRecords (x : Node) : Nat :=
  if x.role = 0 then 0 else match x.params.parts with
    | .range .. => (x.local_ + 127) / 128
    | .list _ => (x.local_ + 7) / 8

/-- The records of a station: what, how many, and their alignment. -/
def recItems (st : Station) : List (RecKey × Nat × Nat) :=
  (st.nodes.flatMap fun p =>
    let g := segmentCount p.2.params.redOp p.2.params.inFormat
    [(RecKey.node p.1, 1, 1), (.map p.1, p.2.mapRecords, 1)]
      ++ (if p.2.slot && 1 < g then [(RecKey.overflow p.1, 4 * (g - 1), 2)] else [])
      ++ (if p.2.role = 2 ∧ p.2.params.scope = 5 then [(RecKey.sys p.1, 3, 4)] else []))
  ++ (st.objects.flatMap fun p =>
    ((List.range p.2.watches.length).map fun k => (RecKey.watch p.1 k, 1, 1)) ++ match p.2.body with
      | .landing l => (List.range l.seals.length).map fun k => (RecKey.seal_ p.1 k, 1, 1)
      | .rule _ => [(RecKey.ext p.1, 1, 1)]
      | .keeper k => [(RecKey.group p.1, 2 * k.groups.length, 2)]
      | _ => [])
  ++ st.waiters.map fun w => (RecKey.wait w.id, 1, 1)

/-- Records placed one after another from a position on. -/
def placeItems : Nat → List (RecKey × Nat × Nat) → List (RecKey × Nat)
  | _, [] => []
  | at_, (k, n, a) :: rest =>
    let first := (at_ + a - 1) / a * a
    (k, first) :: placeItems (first + n) rest

/-- The first record of everything at a station: an eddy's are four times its reference, the others follow. -/
def recPlaces (st : Station) : List (RecKey × Nat) :=
  placeItems (4 * ((eddyRefs st).foldl (fun m r => max m (r + 1)) 0)) (recItems st)

/-- The first record of one of them. -/
def placeOf (ps : List (RecKey × Nat)) (k : RecKey) : Nat := ((ps.find? fun p => p.1 == k).map (·.2)).getD 0

/-! ## Records -/

/-- A record of 256 bits and more as records of 256 bits, high bits first. -/
def split256 (n v : Nat) : List (BitVec 256) :=
  (List.range n).map fun i => BitVec.ofNat 256 (v / 2 ^ (256 * (n - 1 - i)))

/-- References of up to `k` eddies of 9 bits, slot 0 highest. -/
def refsField (k : Nat) (es : List Eddy) : Nat :=
  ((List.range k).map fun i => field 9 (9 * (k - 1 - i)) ((es[i]?.map (·.ref)).getD 0)).sum

/-- Table 2.1 at a station. -/
def fnRecord (s : State) (n f : Nat) : Nat :=
  let x := fnOf s f
  let st := match x.state with | .disabled => 0 | .enabled => 1 | .draining => 2 | .retired => 3
  field 32 64 x.generation + field 3 61 st + field 6 55 (fnPartition s f) + field 8 47 (fnSetting s f 0x04)
    + field 8 39 (fnSetting s f 0x05) + field 16 23 (bucketNow s n f) + field 12 11 (waitersUsed (station s n) f)
    + field 8 3 (slotsUsed (station s n) f)

/-- Table 5.1. -/
def weirRecord (s : State) (home : Nat) (o : Obj) (w : Weir) : Nat :=
  let p := w.params
  let acks := match jobOf s home o.hi with
    | some j => match j.kind with | .weirCreate waiting _ => waiting.length | _ => 0
    | none => 0
  let listLen := match p.parts with | .list l => l.length | _ => 0
  field 32 224 w.openEpoch.toNat + field 2 222 w.state + field 3 219 p.scope + field 1 218 (flag p.publish.isSome)
    + field 9 209 (p.publish.getD 0) + field 14 195 p.parts.count + field 4 191 p.redOp + field 3 188 p.inFormat
    + field 3 185 p.outFormat + field 1 184 (flag p.stochastic) + field 7 177 (membersOf s p.parts home).length
    + field 7 170 acks + field 1 169 (flag (listLen != 0)) + field 6 163 listLen + field 40 123 o.hi.toNat
    + (w.listeners.map fun n => 2 ^ (57 + n)).sum

/-- Table 8.1: the windows of a station's k-th queue are 2·k and 2·k + 1. -/
def queueRecord (o : Obj) (q : Queue) (k : Nat) : Nat :=
  field 64 192 q.push + field 64 128 q.read + field 40 88 o.hi.toNat + field 29 59 q.capacity + field 29 30 q.tollOut
    + field 3 27 q.state + field 1 26 (flag q.markValid) + field 8 18 (2 * k) + field 8 10 (2 * k + 1)

/-- Table 10.6. -/
def ruleRecord (ps : List (RecKey × Nat)) (o : Obj) (r : Rule) : Nat :=
  r.argument.toNat * 2 ^ 192 + field 40 152 o.hi.toNat + field 3 149 r.state + field 2 147 r.action + field 1 146 (flag r.rearm)
    + field 3 143 r.inputs.length + (r.met.map fun i => 2 ^ (139 + i % 4)).sum + field 8 131 r.locality + field 3 128 r.scope
    + field 4 124 r.engineMask.toNat + field 7 117 r.coreCount + field 11 106 r.firstCore + field 13 93 r.lastTarget
    + field 8 85 ((r.lapse.map (·.code)).getD 0) + field 8 77 r.armSeq + field 11 66 (placeOf ps (.ext (hiIndex o.hi)))
    + field 1 65 (flag r.disarmPending)

/-- An object entry (Tables 4.1, 5.1, 7.1, 8.1, 10.6 and 11.2, and R134). -/
def objectRecord (s : State) (home : Nat) (ps : List (RecKey × Nat)) (k : Nat) (o : Obj) : Nat :=
  let i := hiIndex o.hi
  match o.body with
  | .counter c => c.value.toNat * 2 ^ 192 + field 40 152 o.hi.toNat + field 4 148 c.eddies.length
      + refsField 8 c.eddies * 2 ^ 76 + field 16 60 c.wraps
  | .weir w => weirRecord s home o w
  | .landing l => l.landed.toNat * 2 ^ 192 + l.expect.toNat * 2 ^ 128 + field 40 88 o.hi.toNat + field 8 80 l.xgen.toNat
      + field 3 77 l.eddies.length + refsField 4 l.eddies * 2 ^ 41 + field 11 30 (placeOf ps (.seal_ i 0))
      + field 8 22 l.seals.length + field 16 6 l.overruns
  | .queue q => queueRecord o q k
  | .rule r => ruleRecord ps o r
  | .keeper x => x.steps.toNat * 2 ^ 192 + field 40 152 o.hi.toNat + field 24 128 (refOf x.weirHi) + field 9 119 x.groups.length
      + field 7 112 x.blocks + field 11 101 (placeOf ps (.group i)) + field 1 100 (flag x.lastSkipped)
      + field 1 99 (flag x.episode) + field 32 67 x.episodeStart.toNat + field 16 51 x.episodeBackoffs + field 2 49 x.transfer
  | .beacon b => field 40 216 o.hi.toNat + field 9 207 b.word + b.value.toNat

/-- Table 4.4. -/
def eddyRecord (e : Eddy) : Nat :=
  let sts := e.stations
  e.threshold.toNat * 2 ^ 960 + 2 ^ 959 + field 1 958 (flag e.acquire) + field 17 941 e.members.length + field 7 934 e.cursor
    + (sts.map fun n => 2 ^ (868 + n % 66)).sum + (sts.map fun n => field 12 (12 * (n % 66)) (e.waitsOf n).length).sum

/-- The next of some waits that follows one. -/
def nextOf (ps : List (RecKey × Nat)) (ws : List Waiter) (w : Waiter) : Nat :=
  let same := ws.filter fun x => x.place == w.place
  match same.dropWhile fun x => x.id != w.id with
  | _ :: x :: _ => placeOf ps (.wait x.id)
  | _ => 0

/-- Table 4.5. -/
def waiterRecord (ps : List (RecKey × Nat)) (ws : List Waiter) (w : Waiter) : Nat :=
  let d := w.deadline.getD 0
  let phase := match w.phase with | .pending => 0 | .joined => 1 | .withdrawing => 2 | .ended => 3
  let (ref, home) := match w.place with | .eddy h r => (r, h) | _ => (0, 0)
  w.cookie.toNat * 2 ^ 192 + w.handle.toNat * 2 ^ 128 + field 32 96 d + field 16 80 w.opTag.toNat + field 14 66 w.agent
    + field 8 58 w.opcode.code + field 2 56 w.acquire + field 3 53 w.scope + field 1 52 (flag w.hold) + field 2 50 phase
    + field 9 41 ref + field 7 34 home + field 11 23 (nextOf ps ws w) + field 1 22 (d / 2 ^ 32)

/-- The first wait of a node's bank. -/
def firstWait (s : State) (n index : Nat) (x : Node) (odd : Bool) : Option Waiter := (bankWaits s n index x.hi odd).head?

/-- Table 5.3. -/
def nodeRecord (s : State) (n : Nat) (ps : List (RecKey × Nat)) (slot index : Nat) (x : Node) : Nat :=
  let w := fun odd => firstWait s n index x odd
  let at_ := fun odd => ((w odd).map fun y => placeOf ps (.wait y.id)).getD 0
  x.hi.toNat * 2 ^ 216 + field 32 184 x.open_.toNat + field 2 182 x.role + field 1 181 (flag x.broken)
    + field 7 174 (if x.role = 1 then x.parent else 127) + field 7 167 x.children + field 7 160 x.bank0.kids
    + field 7 153 x.bank1.kids + field 5 148 (if x.role = 2 then x.params.remote else 0) + field 5 143 x.bank0.rem
    + field 5 138 x.bank1.rem + field 14 124 x.local_ + field 14 110 x.bank0.arrived.length
    + field 14 96 x.bank1.arrived.length + field 1 95 (flag x.bank0.sent) + field 1 94 (flag x.bank1.sent)
    + field 7 87 (if x.slot then slot else 0) + field 11 76 (placeOf ps (.map index)) + field 7 69 x.mapRecords
    + field 11 58 (at_ false) + field 11 47 (at_ true) + field 1 46 (flag x.lost) + field 1 45 (flag x.slot)
    + field 1 44 (flag (w false).isSome) + field 1 43 (flag (w true).isSome)

/-- The arrival map records of a node (R164). -/
def mapRecordsOf (s : State) (n : Nat) (x : Node) : List (BitVec 256) :=
  let here := x.params.parts.agents.filter fun a => entryOf s a == n
  let got := fun (b : Bank) a => flag (b.arrived.contains a)
  match x.params.parts with
  | .range .. => (List.range x.mapRecords).map fun r => BitVec.ofNat 256
      (((here.drop (128 * r)).take 128).mapIdx fun j a => got x.bank0 a * 2 ^ (2 * j) + got x.bank1 a * 2 ^ (2 * j + 1)).sum
  | .list _ => (List.range x.mapRecords).map fun r => BitVec.ofNat 256
      (((here.drop (8 * r)).take 8).mapIdx fun j a =>
        (field 16 16 a + field 14 2 ((x.params.parts.indexOf a).getD 0) + got x.bank0 a + 2 * got x.bank1 a) * 2 ^ (32 * j)).sum

/-- The overflow records of a node: segments above 0 of bank 0, then of bank 1 (R213). -/
def overflowOf (x : Node) : List (BitVec 256) :=
  let segs := fun (b : Bank) => (segmentsOf x.params.redOp x.params.inFormat (b.slotSum x.params)).drop 1
  (segs x.bank0 ++ segs x.bank1).flatMap fun p => split256 2 p.toNat

/-- Table 6.8. -/
def slotRecord (s : State) (index : Nat) (ps : List (RecKey × Nat)) (x : Node) : Nat :=
  let p := x.params
  let seed := if x.role = 2 then match weirAt s x.home index with | some (_, w) => w.seed.toNat | none => 0 else 0
  seed * 2 ^ 192 + field 40 152 x.hi.toNat + field 4 148 p.redOp + field 3 145 p.inFormat + field 3 142 p.outFormat
    + field 1 141 (flag p.stochastic) + field 5 136 (segmentCount p.redOp p.inFormat) + field 32 104 (x.bank0.slotSum p).nf
    + field 32 72 (x.bank1.slotSum p).nf + field 11 61 (placeOf ps (.overflow index))

/-- Table 13.3. -/
def sysRecordOf (r : SysRecord) : Nat :=
  field 16 752 r.sysNum + field 10 742 r.parentChip + r.parentRef.toNat * 2 ^ 718 + field 2 716 r.bind
    + field 5 711 r.children.length + field 1 710 (flag r.lost)
    + ((r.children.take 16).mapIdx fun i c => (c.1 % 1024 * 2 ^ 24 + c.2.toNat) * 2 ^ (670 - 34 * i)).sum
    + field 32 128 (r.retryAt.getD 0)

/-- Table 10.8. -/
def watchRecord (ps : List (RecKey × Nat)) (index k n : Nat) (w : Watch) : Nat :=
  w.threshold.toNat * 2 ^ 192 + w.ruleHi.toNat * 2 ^ 152 + field 2 150 w.slot + field 2 148 w.phase + field 1 147 (flag w.feed)
    + field 16 131 w.step + field 29 102 (if w.feed then flag w.endMark else w.credit) + field 8 94 w.armSeq
    + field 11 83 (if k + 1 < n then placeOf ps (.watch index (k + 1)) else 0)

/-- Table 7.8. -/
def sealRecord (ps : List (RecKey × Nat)) (o : Obj) (k n : Nat) (h : HeldSeal) : Nat :=
  o.hi.toNat * 2 ^ 216 + field 8 208 h.xgen.toNat + field 6 202 h.buffer + field 8 194 h.entry
    + field 11 183 (if k + 1 < n then placeOf ps (.seal_ (hiIndex o.hi) (k + 1)) else 0)

/-- Table 10.7. -/
def extRecord (r : Rule) : Nat := r.target.toNat * 2 ^ 192 + r.kernel.toNat * 2 ^ 64 + field 64 0 r.fireSeq

/-! ## Entries -/

/-- A capture entry (R468, Table 14.9). -/
def captureEntryOf (kind station index fn part marks : Nat) (record : Nat) : Payload :=
  let tag := field 8 56 kind + field 7 49 station + field 14 35 index + field 12 23 fn + field 3 20 part + field 4 16 marks
  payloadOf (bytesLE 8 tag ++ bytesBE 32 record)

/-- The eddies of an object, each with its four records. -/
def eddyEntries (o : Obj) : List (Nat × BitVec 256) :=
  let es := match o.body with
    | .counter c => c.eddies
    | .landing l => l.eddies
    | .queue q => q.popEddies ++ q.tollEddies
    | _ => []
  es.flatMap fun e => (split256 4 (eddyRecord e)).mapIdx fun i v => (4 * e.ref + i, v)

/-- The waiter records of an object. -/
def objEntries (ps : List (RecKey × Nat)) (o : Obj) : List (Nat × BitVec 256) :=
  let i := hiIndex o.hi
  eddyEntries o
  ++ (o.watches.mapIdx fun k w => (placeOf ps (.watch i k), BitVec.ofNat 256 (watchRecord ps i k o.watches.length w)))
  ++ match o.body with
    | .landing l => l.seals.mapIdx fun k h => (placeOf ps (.seal_ i k), BitVec.ofNat 256 (sealRecord ps o k l.seals.length h))
    | .rule r => [(placeOf ps (.ext i), BitVec.ofNat 256 (extRecord r))]
    | .keeper k => (k.groups.flatMap fun g => split256 2 g.image.toNat).mapIdx fun j v => (placeOf ps (.group i) + j, v)
    | _ => []

/-- The waiter records of a node. -/
def nodeEntries (s : State) (n : Nat) (ps : List (RecKey × Nat)) (slot index : Nat) (x : Node) : List (Nat × BitVec 256) :=
  let run := fun (k : RecKey) (l : List (BitVec 256)) => l.mapIdx fun j v => (placeOf ps k + j, v)
  let sys := match weirAt s n index with
    | some (_, w) => if x.role = 2 then (match w.sys with | some r => split256 3 (sysRecordOf r) | none => []) else []
    | none => []
  (placeOf ps (.node index), BitVec.ofNat 256 (nodeRecord s n ps slot index x)) :: run (.map index) (mapRecordsOf s n x)
    ++ (if x.slot then run (.overflow index) (overflowOf x) else []) ++ run (.sys index) sys

/-- Entries in rising order of their index. -/
def byIndex (l : List (Nat × Nat × Payload)) : List Payload :=
  (l.foldl (fun acc x => acc.takeWhile (·.1 ≤ x.1) ++ x :: acc.dropWhile (·.1 ≤ x.1)) []).map (·.2.2)

/-- The queues of a station, in order of index. -/
def queuesOf (st : Station) : List (Obj × Queue) :=
  st.objects.filterMap fun p => match p.2.body with | .queue q => some (p.2, q) | _ => none

/-- The head window's header (Table 8.2). -/
def headRecord (q : Queue) : Nat :=
  let op := if q.spillHead ≠ 0 then 3 else match q.refills with
    | [] => 0
    | (b, _) :: _ => if b = q.read / 16 then 2 else 1
  field 64 192 q.rel + field 64 128 q.mark + field 29 99 q.packets + field 29 70 q.marksSince + field 3 67 q.popEddies.length
    + field 2 65 q.tollEddies.length + refsField 4 q.popEddies * 2 ^ 29 + refsField 2 q.tollEddies * 2 ^ 11
    + field 2 9 op + field 1 8 (flag q.headCopy)

/-- The tail window's header (Table 8.3). -/
def tailRecord (q : Queue) : Nat :=
  let d := q.idleDeadline.getD 0
  field 32 224 q.idleAc + field 32 192 d + field 1 191 (flag q.idleDeadline.isSome) + field 1 190 (flag q.idleDue)
    + field 25 165 q.bwBlocks.length + field 25 140 q.bwReserved + field 1 139 (d / 2 ^ 32)

/-- The token entries of a window: four groups of four tokens. -/
def tokenEntries (n fn window : Nat) (toks : List Token) : List Payload :=
  (List.range 4).map fun g =>
    let four := (toks.drop (4 * g)).take 4
    captureEntryOf 5 n window fn g (four.mapIdx fun i t => flag t.endMark * 2 ^ i).sum
      (four.mapIdx fun i t => t.word.toNat * 2 ^ (64 * (3 - i))).sum

/-- The snapshot of a station (R467): its records of some functions, in the order of Table 14.10. -/
def stationEntries (s : State) (n : Nat) (fns : List Nat) : List Payload :=
  let st := station s n
  let ps := recPlaces st
  let mine := fun (hi : BitVec 40) => fns.contains (hiFn hi)
  let qs := queuesOf st
  let ordinal := fun (o : Obj) => qs.findIdx fun q => q.1.hi == o.hi
  let slots := st.nodes.filter fun p => p.2.slot
  let slotOf := fun (i : Nat) => slots.findIdx fun p => p.1 == i
  let tag3 := fun (fn : Nat) (x : Nat × BitVec 256) => (x.1, fn, captureEntryOf 3 n x.1 fn 0 0 x.2.toNat)
  fns.map (fun f => captureEntryOf 1 n f f 0 0 (fnRecord s n f))
  ++ (st.objects.filter fun p => mine p.2.hi).map (fun p =>
      captureEntryOf 2 n p.1 (hiFn p.2.hi) 0 0 (objectRecord s n ps (ordinal p.2) p.2))
  ++ byIndex (((st.nodes.filter fun p => mine p.2.hi).flatMap fun p =>
        (nodeEntries s n ps (slotOf p.1) p.1 p.2).map (tag3 (hiFn p.2.hi)))
      ++ ((st.objects.filter fun p => mine p.2.hi).flatMap fun p => (objEntries ps p.2).map (tag3 (hiFn p.2.hi)))
      ++ (st.waiters.filter fun w => fns.contains (Handle.fn w.handle)).map fun w =>
        tag3 (Handle.fn w.handle) (placeOf ps (.wait w.id), BitVec.ofNat 256 (waiterRecord ps st.waiters w)))
  ++ (qs.filter fun q => mine q.1.hi).flatMap (fun q =>
      let k := ordinal q.1
      [captureEntryOf 4 n (2 * k) (hiFn q.1.hi) 0 0 (headRecord q.2),
       captureEntryOf 4 n (2 * k + 1) (hiFn q.1.hi) 1 0 (tailRecord q.2)])
  ++ (qs.filter fun q => mine q.1.hi).flatMap (fun q =>
      let k := ordinal q.1
      tokenEntries n (hiFn q.1.hi) (2 * k) (match q.2.head with | some (_, l) => l | none => [])
        ++ tokenEntries n (hiFn q.1.hi) (2 * k + 1) q.2.tail)
  ++ (slots.filter fun p => mine p.2.hi).map fun p =>
      captureEntryOf 6 n (slotOf p.1) (hiFn p.2.hi) 0 0 (slotRecord s p.1 ps p.2)

/-- Table 9.1. -/
def extentRecord (s : State) (j index : Nat) (e : Extent) : Nat :=
  2 ^ 191 + field 1 190 (flag e.moving) + field 12 178 e.fn + field 10 168 e.gen + field 25 143 e.length + field 30 113 e.base
    + field 30 83 e.newBase + field 25 58 e.cursor + field 50 8 (tgetD (sliceAt s j).seqs index 0)

/-- The extents of some functions at a slice. -/
def sliceEntries (s : State) (j : Nat) (fns : List Nat) : List Payload :=
  ((sliceAt s j).extents.filter fun p => fns.contains p.2.fn).map fun p =>
    captureEntryOf 8 (sliceStation s j) p.1 p.2.fn 0 0 (extentRecord s j p.1 p.2)

/-- The control station's entries: the interface state blocks, zero with part 1 where a core gave none, and the journal
records. -/
def controlEntries (s : State) (cores : List Nat) (blocks : Table (BitVec 256)) (fns : List Nat) : List Payload :=
  cores.map (fun c => match tget blocks c with
    | some b => captureEntryOf 7 127 c 0 0 0 b.toNat
    | none => captureEntryOf 7 127 c 0 1 0 0)
  ++ (s.journal.filter fun p => fns.contains p.2.1).map fun p =>
    let (fn, index, old, new, state) := p.2
    captureEntryOf 9 127 p.1 fn 0 0 (field 12 52 fn + field 14 38 index + field 7 31 old + field 7 24 new + field 2 22 state)

end Sys2Proof.Machine
end

