-- ==== Sys2Proof/Machine/Transport.lean ====
section
/-!
DEFINITION. The management transports' outward side: results (Table 15.4), MCTP packets waiting on the mp port (R496 to
R499, R543, R544), the register window (Table 15.9), and the answer to a request.
-/

namespace Sys2Proof.Machine

/-! ## Results (Table 15.4) -/

/-- Access results. -/
inductive Result where
  | ok | noEntry | notOwner | readOnly | badLength | badValue | refused | busy | badCommand
  deriving DecidableEq, Repr

/-- The code of a result. -/
def Result.code : Result → Nat
  | .ok => 0 | .noEntry => 1 | .notOwner => 2 | .readOnly => 3 | .badLength => 4 | .badValue => 5 | .refused => 6
  | .busy => 7 | .badCommand => 8

/-! ## MCTP packets (PRESUMED, log entry 44: the layouts of the standards that Table 15.6 names) -/

/-- One packet: header version 1, destination, source, flags, up to 64 bytes, and the packet error code. -/
def mctpPacket (src dest flags : Nat) (payload : List Byte) : List Byte :=
  let body := bytesLE 1 1 ++ bytesLE 1 dest ++ bytesLE 1 src ++ bytesLE 1 flags ++ payload
  body ++ [Config.packetCode body]

/-- The packets of a message: pieces of 64 bytes with rising packet sequence numbers. `low` is the tag with its owner
bit. -/
def mctpPackets (src dest low : Nat) : Nat → Nat → List Byte → List (List Byte)
  | 0, _, _ => []
  | fuel + 1, seq, msg =>
    let last := decide (msg.length ≤ 64)
    let flags := 128 * flag (seq == 0) + 64 * flag last + 16 * (seq % 4) + low
    mctpPacket src dest flags (msg.take 64) ::
      (if last then [] else mctpPackets src dest low fuel (seq + 1) (msg.drop 64))

/-- The interrupt request follows the queue (R544): raised while a packet waits for which none has been accepted. A
request carries the ibi_mdb of its time, `mdb`; without one the byte is at its idle value 0 (R519, Table 16.11). -/
def Transport.ibi (mdb : Nat) (t : Transport) : Transport :=
  let req := !t.txQueue.isEmpty && !t.ibiTaken && t.ibiRetryAt.isNone
  { t with ibiReq := req, ibiMdb := if !req then 0 else if !t.ibiReq then mdb else t.ibiMdb }

/-- A message joins the packets that wait to be read. -/
def queueMessage (s : State) (dest low : Nat) (msg : List Byte) : State :=
  let packets := mctpPackets (setting s 0x200300) dest low (msg.length + 1) 0 msg
  { s with transport := Transport.ibi (setting s 0x2F0400) { s.transport with txQueue := s.transport.txQueue ++ packets } }

/-- The vendor message header (Table 15.7). -/
def vendorHeader (s : State) (command flags epoch result : Nat) : List Byte :=
  bytesLE 1 0x7F ++ bytesBE 4 (setting s 0x100001) ++ bytesLE 1 1 ++ bytesLE 1 command ++ bytesLE 1 flags ++
    bytesLE 4 epoch ++ bytesLE 1 result ++ bytesLE 3 0

/-! ## Answers -/

/-- The window host's answer (Table 15.9): the command has ended. `data` are the bytes for WIN_DATA. -/
def windowAnswer (s : State) (code : Nat) (length arg1 : Option Nat) (data : Option (List Byte)) : State :=
  let w := s.window
  { s with window := { w with
    go := false, result := BitVec.ofNat 8 code, epoch := BitVec.ofNat 32 s.owner.epoch
    length := match length with | some n => BitVec.ofNat 11 n | none => w.length
    arg1 := match arg1 with | some n => BitVec.ofNat 32 n | none => w.arg1
    data := match data with | some d => d ++ w.data.drop d.length | none => w.data } }

/-- An answer leaves. A READ's body begins with four bytes that the window gives in its length register. -/
def answerNow (s : State) (host command code : Nat) (body : List Byte) : State :=
  if host = 0x200 then
    match command with
    | 0x01 => windowAnswer s code (if code = 0 then some (body.length - 4) else none) none
        (if code = 0 then some (body.drop 4) else none)
    | 0x10 => windowAnswer s code none (if body = [] then none else some (ofBytesLE (body.drop 4))) none
    | 0x11 => windowAnswer s code none (if body = [] then none else some (ofBytesLE body)) none
    | _ => windowAnswer s code none none (if body = [] then none else some body)
  else
    match tget s.transport.requests host with
    | some (tag, inst) =>
      let u := { s with transport := { s.transport with requests := tdel s.transport.requests host } }
      queueMessage u (host % 256) tag (vendorHeader u command (128 + inst) u.owner.epoch code ++ body)
    | none => drive s [.hostAnswer host command code body]

/-- A request of a host is answered with a result and a body (R490, R499, R500); a result other than OK is counted in
requests_refused. While the management controller restarts, the answer waits (R605). -/
def answerHost (s : State) (host command : Nat) (r : Result) (body : List Byte) : State :=
  let t := if r = .ok then s else bump s 0x200702
  if t.restarting.isSome then
    { t with transport := { t.transport with held := t.transport.held ++ [(host, command, r.code, body)] } }
  else answerNow t host command r.code body

/-- The answers that waited leave. -/
def releaseAnswers (s : State) : State :=
  s.transport.held.foldl (fun t a => answerNow t a.1 a.2.1 a.2.2.1 a.2.2.2)
    { s with transport := { s.transport with held := [] } }

end Sys2Proof.Machine
end

