-- ==== Sys2Proof/Machine/Recovery.lean ====
section
/-!
DEFINITION. Hangs, resets and recovery (chapter 14): fault records, the drain of a function, the reset of a partition
with its capture, core commands, fences and spares, escalation, and the engine reset.
-/

namespace Sys2Proof.Machine

/-! ## Fault records (R456, Tables 14.3 and 14.4) -/

/-- The status that names a cause. -/
def causeStatus : Nat → Status
  | 1 | 4 => .timeout
  | 5 => .unavailable
  | 6 => .fenced
  | _ => .draining

/-- A fault record. -/
def faultRecord (s : State) (cause part : Nat) (handle : Word) (fn agent phys tier : Nat) : BitVec 256 :=
  BitVec.ofNat 256 (handle.toNat / 256 * 2 ^ 200 + field 32 160 s.now + field 8 152 cause + field 8 144 (causeStatus cause).code
    + field 8 136 (if cause = 1 then 0x11 else 0) + field 14 122 agent + field 12 110 fn + field 6 104 part + field 12 92 phys
    + field 2 90 tier)

/-- The tier of a partition's current record rises to `tier` (R475). -/
def raiseTier (s : State) (p tier : Nat) : State :=
  onPart s p fun x =>
    if bits x.fault 91 90 < tier then
      { x with fault := BitVec.ofNat 256 (x.fault.toNat - bits x.fault 91 90 * 2 ^ 90 + tier * 2 ^ 90) }
    else x

/-! ## Drain of a function (R457 to R460, Table 14.5) -/

/-- A function leaves ENABLED: DRAINING at every station, its ferry work discarded (R310), what waits for its shadow
records released (R409). -/
def beginDrain (s : State) (f : Nat) (forReset : Bool) : State :=
  let t := setFn s f { fnOf s f with state := .draining, drain := some ⟨1, forReset, false, [], s.now, []⟩ }
  let u := t.slices.foldl (fun u p => sliceDiscards u p.1 f) t
  u.stations.foldl (fun v p => if p.2.shadowHolds.isEmpty then v else dropShadows v p.1 f) u

/-- The drain of a function changes. -/
def setDrain (s : State) (f : Nat) (g : FnDrain → FnDrain) : State :=
  let x := fnOf s f
  setFn s f { x with drain := x.drain.map g }

/-- The responses that a purge of a function owes: those of its held reads and of its waits not registered yet. -/
def purgeOwed (s : State) (f : Nat) : List (Nat × ReplyTo) :=
  s.stations.flatMap fun p =>
    (p.2.waiters.filter fun w => Handle.fn w.handle == f && w.phase != .ended && (w.hold || w.phase == .pending)).map
      fun w => (p.1, w.reply)

/-- D2: every wait of the function ends with DRAINING. -/
def purgeFn (s : State) (f : Nat) : State :=
  (setDrain s f fun d => { d with owed := purgeOwed s f }).stations.foldl (fun t p =>
    ((station t p.1).waiters.filter fun w => Handle.fn w.handle == f).foldl
      (fun u w => purgeWait u p.1 w .draining) t) (setDrain s f fun d => { d with owed := purgeOwed s f })

/-- Whether a response to a transaction still waits for its lane's credit at a station. -/
def responseWaits (st : Station) (via : ReplyTo) : Bool :=
  st.rspQueue.any fun r => match r, via with
    | .op aux id xtag x, .port aux' id' xtag' => aux == aux' && id == id' && xtag == xtag' && x.status == .draining
    | _, _ => false

/-- Whether every purge response and wake has been driven. -/
def purged (s : State) (f : Nat) (d : FnDrain) : Bool :=
  (s.stations.all fun p => p.2.waiters.all fun w => Handle.fn w.handle != f) &&
  d.owed.all fun x => !responseWaits (station s x.1) x.2

/-- A partition's sequence of R462 begins: the declaration is latched, and the partition is FROZEN; its functions take
step D1 together. -/
def freezePartition (s : State) (p : Nat) : State :=
  let t := onPart s p fun x => { x with
    state := .frozen, step := 1, waiting := [], blocks := [], entries := x.entries ++ [s.now] }
  let u := raise (bump t 0x2E0B01) 0x20 (partAt t p).fault
  (liveFns u).foldl (fun v f =>
    if fnPartition v f ≠ p then v
    else match (fnOf v f).drain with
      | none => beginDrain v f true
      | some d => if d.step = 1 then setFn v f { fnOf v f with drain := some { d with forReset := true } } else v) u

/-- Whether a partition reset of a partition is running. -/
def resetRuns (s : State) (p : Nat) : Bool := (partAt s p).state == .frozen || (partAt s p).state == .resetting

/-- A cause is declared for a partition (Tables 14.4 and 14.6): it replaces the partition's record (R456), but a cause 4
while a partition reset runs leaves the running record its cause and raises its tier. In any state but READY it is counted
as ignored (DEDUCED, log entry 39). -/
def declare (s : State) (p cause : Nat) (handle : Word) (fn agent phys tier : Nat) : State :=
  let t := if cause = 4 ∧ resetRuns s p then raiseTier s p tier
    else onPart s p fun x => { x with fault := faultRecord s cause p handle fn agent phys tier }
  if (partAt s p).state ≠ .ready then bump t 0x2E0B04
  else if cause = 4 then t else freezePartition t p

/-- D3: every migration of the function's objects is resolved; a resolved home that cannot act is a cause 5, whose record
names the object (R479). -/
def resolveOne (s : State) (n : Nat) : State :=
  match tget s.journal n with
  | none => s
  | some (fn, _, oldHome, newHome, state) =>
    let home := if state = 2 then newHome else oldHome
    let h := movedHandle s n
    let t := resolveMigration s n
    if serving (station t home) then t else declare t (fnPartition t fn) 5 h fn 0 0 0

/-- The migrations that a home which no longer serves interrupts (R478): reset, fenced, or its fast logic stopped. -/
def resolveStopped (s : State) : State :=
  (s.journal.filter fun p => !serving (station s p.2.2.2.1) || !serving (station s p.2.2.2.2.1)).foldl
    (fun t p => resolveOne t p.1) s

/-- Every migration of a function. -/
def resolveFn (s : State) (f : Nat) : State :=
  (s.journal.filter fun p => p.2.1 == f).foldl (fun t p => resolveOne t p.1) s

/-- The class order of D4. -/
def destroyOrder : List Nat := [5, 6, 2, 4, 3, 1, 7]

/-- The objects of a function of a class that no job ends, each with its home. -/
def objectsOf (s : State) (f cls : Nat) : List (Nat × Obj) :=
  s.stations.flatMap fun p => (p.2.objects.filter fun q => hiFn q.2.hi == f && hiCls q.2.hi == cls).map fun q => (p.1, q.2)

/-- Whether jobs of a function of a class are in progress. -/
def jobsOf (s : State) (f cls : Nat) : Bool :=
  s.stations.any fun p => p.2.jobs.any fun j => hiFn j.hi == f && hiCls j.hi == cls

/-- Whether a job ends with its object's destruction: the transfer of a keeper's image (R374). -/
def Job.transfer (j : Job) : Bool :=
  match j.kind with
  | .keeperExport .. | .keeperImport .. => true
  | _ => false

/-- D4 for one class: its objects are destroyed, but those whose creation has not ended. -/
def destroyClass (s : State) (f cls : Nat) : State :=
  (objectsOf s f cls).foldl (fun t x =>
    if (jobOf t x.1 x.2.hi).any (!·.transfer) || isKeeperWeir x.2 && (objectsOf t f 6) != [] then t
    else match objAt t x.1 (hiIndex x.2.hi) with
      | some o => if o.hi = x.2.hi then destroyObj t x.1 o .draining 127 0 0 else t
      | none => t) s

/-- D4 goes on: the first class that is not gone yet. -/
def destroyNext (s : State) (f : Nat) : List Nat → State
  | [] => s
  | c :: rest =>
    let t := destroyClass s f c
    if (objectsOf t f c).isEmpty && !jobsOf t f c then destroyNext t f rest else t

/-- Whether every object of a function is gone. -/
def destroyed (s : State) (f : Nat) : Bool := destroyOrder.all fun c => (objectsOf s f c).isEmpty && !jobsOf s f c

/-- D7 ends: the function is DISABLED, and function_drained raised. -/
def closeFn (s : State) (f : Nat) : State :=
  let t := setFn s f { fnOf s f with state := .disabled, drain := none, key := none }
  let u := t.stations.foldl (fun v p =>
    onStation v p.1 fun st => { st with
      waiters := st.waiters.filter fun w => Handle.fn w.handle != f, buckets := tdel st.buckets f }) t
  raise u 0x10 (generic 0 0 f 0 0)

/-- A step of a function's drain is done at every station, and the next begins (Table 14.5). -/
def drainStep (s : State) (f : Nat) : State :=
  match (fnOf s f).drain with
  | none => s
  | some d =>
    let to_ := fun (t : State) k => setDrain t f fun x => { x with step := k }
    match d.step with
    | 1 => if d.forReset && (partAt s (fnPartition s f)).step < 4 then s else purgeFn (to_ s 2) f
    | 2 => if purged s f d then resolveFn (to_ s 3) f else s
    | 3 => if s.journal.any fun p => p.2.1 == f then s else destroyNext (to_ s 4) f destroyOrder
    | 4 => if destroyed s f then setDrain s f fun x => { x with step := 5, slices := s.slices.map (·.1) } else s
    | 5 => if d.slices.isEmpty then to_ s 6 else s
    | 6 => if d.flightDone then setFn (to_ s 7) f { fnOf (to_ s 7) f with key := none } else s
    | _ => closeFn s f

/-- landing_flight_max_ac has passed since D1 began (D6). -/
def flightEnds (s : State) (f : Nat) : State :=
  match (fnOf s f).drain with
  | some d => setDrain (passToAc s (d.began + s.gelari.landingFlightAc)) f fun x => { x with flightDone := true }
  | none => s

/-- A slice reports that a function's work has drained (D5, R310). -/
def sliceReports (s : State) (j f : Nat) : State :=
  match (fnOf s f).drain with
  | some d =>
    if d.step = 5 ∧ d.slices.contains j ∧ sliceQuiet s j f then
      setDrain (sliceDrained s j f) f fun x => { x with slices := x.slices.filter (· != j) }
    else s
  | none => s

/-! ## Core commands (R463, R472 to R475, R546) -/

/-- The engines of a logical core. -/
def coreAgents (core : Nat) : List Nat := (List.range 4).map (4 * core + ·)

/-- The logical core that maps to a physical one. -/
def logicalOf (s : State) (phys : Nat) : Option Nat :=
  s.maps.rowRemap.findSome? fun r =>
    if r.mul = 0 then (if r.base = phys ∧ rget s.maps.rowRemap r.first = some phys then some r.first else none)
    else if r.base ≤ phys ∧ (phys - r.base) % r.mul = 0 ∧ (phys - r.base) / r.mul < r.count then
      let n := r.first + (phys - r.base) / r.mul
      if rget s.maps.rowRemap n = some phys then some n else none
    else none

/-- The row of a logical core. -/
def coreRowOf (s : State) (core : Nat) : Nat := (rget s.gelari.coreRow core).getD 0

/-- A command outstanding of a kind and core. -/
def cmdOf (s : State) (kind phys : Nat) : Option CoreCmd := s.coreCmds.find? fun c => c.kind == kind && c.phys == phys

/-- A row's free spare: named, not used, not fenced, and in no fence handshake. -/
def freeSpare (s : State) (row : Nat) : Option Nat :=
  match rget s.maps.spare row with
  | some p =>
    if p = 0xFFFF ∨ s.maps.spareUsed.contains row ∨ s.fenced.contains p ∨ s.coreCmds.any (fun c => c.spare == some p)
    then none else some p
  | none => none

/-- A command is driven on the cp port, one an ac, in the first ac in which none is on it; its time limit runs from the ac in
which it is taken (R546). DESIGN CHOICE (log entry 41): the neighbour is ready for it in that ac. -/
def coreCommand (s : State) (c : CoreCmd) (limit : Nat) : State :=
  let taken := max s.now s.power.cmdFree
  drive { s with
    coreCmds := s.coreCmds ++ [{ c with due := taken + limit }], power := { s.power with cmdFree := taken + 1 } }
    [.coreCommand c.kind c.spare c.phys (c.logical.getD 0)]

/-- A command leaves the outstanding ones. -/
def dropCmd (s : State) (kind phys : Nat) : State :=
  { s with coreCmds := s.coreCmds.filter fun c => !(c.kind == kind && c.phys == phys) }

/-- The interface reset of a core is requested. -/
def requestReset (s : State) (phys : Nat) (core : Option Nat) (partition : Option Nat) : State :=
  coreCommand s ⟨1, phys, none, core, partition, 0⟩ (setting s 0x2E0602)

/-- The fence handshake of a core is raised, naming a free spare of its row (R473 step 1). -/
def requestFence (s : State) (phys : Nat) (core : Option Nat) (partition : Option Nat) : State :=
  let spare := match core with | some n => freeSpare s (coreRowOf s n) | none => none
  coreCommand s ⟨2, phys, spare, core, partition, 0⟩ (setting s 0x2E0603)

/-- A wait of a fenced core ends: a held read, and a record not registered yet, with FENCED, a posted wait without a wake;
its home stops counting it, and a grant that had covered it while it was PENDING goes back (R117; DEDUCED, log entry 40). A
CANCEL that named it is answered STALE. -/
def fenceWait (s : State) (n : Nat) (w : Waiter) : State :=
  let s1 := match w.place, w.phase with
    | .eddy _ _, .ended => s
    | .eddy _ _, _ => sendWithdrawal s n w
    | _, _ => s
  let s2 := dropWaiter (cancelStale s1 n w) n w.id
  let fenced := fun (t : State) => respond t n w.reply (mkRsp w.acquire w.scope w.opTag (plain .fenced))
  match w.phase with
  | .ended =>
    if w.ended.isSome then
      let t := match w.granted, w.ended with
        | some k, _ => returnGrant s2 n w.handle k w.agent
        | none, some i => if w.opcode = .qPop ∧ i.status.good then returnPop s2 n w.handle i w.agent else s2
        | none, none => s2
      fenced (closeWaitOp t n w)
    else s2
  | .pending => fenced (closeWaitOp s2 n w)
  | _ => if w.hold then fenced s2 else s2

/-- The waits of a core's engines end, those that are still to be taken too, and its messages not pushed yet go; launches are
answered FENCED (R473 step 3, R329). -/
def endCoreWaits (s : State) (core : Nat) : State :=
  let ours := fun (a : Nat) => !agentAux a && agentCore a == core
  s.stations.foldl (fun t p =>
    let n := p.1
    let st := station t n
    let due := fun (x : Adm) => ours x.agent && x.op.waits
    let t0 := ((st.budget.map (·.2) ++ st.excess).filter due).foldl (fun u x => turnAway u x .fenced)
      (if (st.budget.map (·.2) ++ st.excess).any due then setStation t n (dropQueued st due) else t)
    let t1 := (st.waiters.filter fun w => ours w.agent).foldl (fun u w => fenceWait u n w) t0
    let gone := st.ready.filter fun m => ours m.agent
    let t2 := if gone.isEmpty then t1 else onStation t1 n fun x => { x with ready := x.ready.filter fun m => !ours m.agent }
    gone.foldl (fun u m => match m.launch with
      | some (_, hi, _) => send u n (homeOf u n (hiIndex hi)) (.launchAnswer (nameOf hi) .fenced m.agent)
      | none => u) t2) s

/-- A logical core counts as unfenced: mailbox credit full, push_seq and loads zero (R119, R121, R331). -/
def coreUnfenced (s : State) (core : Nat) : State :=
  (coreAgents core).foldl (fun t a =>
    let n := entryOf t a
    if (tget t.stations n).isNone then t
    else
      let u := onStation t n fun st => { st with pushUsed := tdel st.pushUsed a, pushSeq := tdel st.pushSeq a }
      if tgetD (station u n).loads a 0 = 0 then u else setLoad u n a 0) s

/-- The weirs in which a core's engines take part break at its entry station (R177). -/
def breakCore (s : State) (core : Nat) : State :=
  let n := entryOf s (4 * core)
  (station s n).nodes.foldl (fun t p =>
    if p.2.role ≠ 0 ∧ (coreAgents core).any (fun a => (p.2.params.parts.indexOf a).isSome) then
      homeStep t n p.2.hi fun u => breakNode u n p.1 false
    else t) s

/-- A spare takes a logical core (R473 step 4, R339). -/
def remapCore (s : State) (core phys spare : Nat) : State :=
  let row := coreRowOf s core
  let site := (rget s.gelari.spareSite row).getD 255
  coreUnfenced { s with
    maps := { s.maps with
      rowRemap := rput s.maps.rowRemap core spare, spareUsed := s.maps.spareUsed ++ [row], site := rput s.maps.site core site }
    moved := tput s.moved phys core } core

/-- The record that core_fenced carries (R473): the partition's own where it names the cause and the core, and otherwise one
made for the event (DEDUCED, log entry 39). -/
def fencedRecord (s : State) (part : Option Nat) (cause agent phys : Nat) : BitVec 256 :=
  match part with
  | some p =>
    let x := (partAt s p).fault
    if bits x 159 152 = cause ∧ bits x 103 92 = phys then x else faultRecord s cause p 0 0 agent phys (bits x 91 90)
  | none => faultRecord s cause 0 0 0 agent phys 0

/-- Step P2 waits no more for the core of a command. -/
def coreWaited (s : State) (c : CoreCmd) : State :=
  match c.partition, c.logical with
  | some p, some n => onPart s p fun x => { x with waiting := x.waiting.filter (· != n) }
  | _, _ => s

/-- A fence handshake has ended: steps 2 to 5 of R473. -/
def fenceEnds (s : State) (c : CoreCmd) (acked : Bool) : State :=
  let s1 := dropCmd s 2 c.phys
  let s2 := { s1 with fenced := if s1.fenced.contains c.phys then s1.fenced else s1.fenced ++ [c.phys] }
  let part := match c.logical with | some n => corePartition s2 n | none => 255
  let agent := match c.logical with | some n => 4 * n | none => 0
  let s3 := match c.logical with
    | some n =>
      if physOf s2 n ≠ c.phys then s2 else
      let t := endCoreWaits s2 n
      match (if acked then c.spare else none) with
      | some sp => remapCore t n c.phys sp
      | none => breakCore t n
    | none => s2
  let s4 := if acked ∨ part = 255 then s3 else declare s3 part 6 0 0 agent c.phys 2
  let rec_ := fencedRecord s4 (if part = 255 then none else some part) (if acked then 4 else 6) agent c.phys
  let s5 := raise (bump s4 0x2E0B02) 0x23 rec_
  coreWaited s5 c

/-- A core acknowledges its interface reset. -/
def resetAcked (s : State) (phys : Nat) (block : BitVec 256) : State :=
  match cmdOf s 1 phys with
  | some c =>
    let t := dropCmd s 1 phys
    match c.partition, c.logical with
    | some p, some n => onPart t p fun x => { x with waiting := x.waiting.filter (· != n), blocks := tput x.blocks n block }
    | _, _ => t
  | none => s

/-- No acknowledgement within interface_reset_timeout_ac: tier 1, the core is fenced (R475). -/
def resetTimesOut (s : State) (phys : Nat) : State :=
  match cmdOf s 1 phys with
  | some c =>
    let s1 := dropCmd (passToAc s c.due) 1 phys
    let part := match c.logical with | some n => corePartition s1 n | none => 255
    let agent := match c.logical with | some n => 4 * n | none => 0
    let s2 := if part = 255 then s1 else declare s1 part 4 0 0 agent phys 1
    if s2.fenced.contains phys then coreWaited s2 c else
    match cmdOf s2 2 phys with
    | some f =>
      { s2 with coreCmds := s2.coreCmds.map fun x => if x = f then { x with partition := x.partition.or c.partition } else x }
    | none => requestFence s2 phys c.logical c.partition
  | none => s

/-- The fence is acknowledged. -/
def fenceAcked (s : State) (phys : Nat) : State :=
  match cmdOf s 2 phys with | some c => fenceEnds s c true | none => s

/-- The fence is not acknowledged in time: no spare, and cause 6 (R473, R475). -/
def fenceTimesOut (s : State) (phys : Nat) : State :=
  match cmdOf s 2 phys with | some c => fenceEnds (passToAc s c.due) c false | none => s

/-- The unfence is acknowledged: the core is placed (R474). -/
def unfenceAcked (s : State) (phys : Nat) : State :=
  match cmdOf s 3 phys with
  | none => s
  | some _ =>
    let t := dropCmd { s with fenced := s.fenced.filter (· != phys) } 3 phys
    match logicalOf t phys with
    | some n => coreUnfenced t n
    | none => match tget t.moved phys with
      | none => t
      | some n =>
        let row := coreRowOf t n
        let free := match rget t.maps.spare row with | some p => p != 0xFFFF && !t.maps.spareUsed.contains row | none => false
        if free then t
        else { t with
          maps := { t.maps with spare := rput t.maps.spare row phys, spareUsed := t.maps.spareUsed.filter (· != row) }
          moved := tdel t.moved phys }

/-- Whether a physical core is one of the configuration's: named by row_remap or spare_map, or moved from. -/
def physKnown (s : State) (phys : Nat) : Bool :=
  (logicalOf s phys).isSome || (tget s.moved phys).isSome || s.maps.spare.any fun r =>
    (List.range r.count).any fun i => rget s.maps.spare (r.first + i) == some phys

/-- Whether a core command fits the core (DESIGN CHOICE, log entry 41: one on a core that is fenced or being fenced, an
interface reset of a core without a logical number or beside one outstanding, and an unfence of a core that is not fenced, are
refused; a fence beside an outstanding interface reset is not). -/
def coreCommandFits (s : State) (kind phys : Nat) : Bool :=
  let busy := fun (k : Nat) => (cmdOf s k phys).isSome
  match kind with
  | 1 => (logicalOf s phys).isSome && !busy 1 && !busy 2 && !s.fenced.contains phys
  | 2 => !busy 2 && !s.fenced.contains phys
  | _ => !busy 3 && s.fenced.contains phys

/-- A core command of the owner takes effect. -/
def ownerCoreCommand (s : State) (kind phys : Nat) : State :=
  let core := logicalOf s phys
  match kind with
  | 1 => requestReset s phys core none
  | 2 => requestFence s phys (core.or (tget s.moved phys)) none
  | _ => coreCommand s ⟨3, phys, none, core.or (tget s.moved phys), none, 0⟩ 0

/-! ## Partition reset (R461 to R471, R475 to R477) -/

/-- The present logical cores of a partition. -/
def partitionCores (s : State) (p : Nat) : List Nat :=
  (s.maps.partition.flatMap fun r => (List.range r.count).map (r.first + ·)).foldl
    (fun l n => if corePartition s n = p ∧ physOf s n ≠ 0xFFFF ∧ !l.contains n then l ++ [n] else l) []

/-- P2: the interface reset of every core of the partition is requested; one that the owner has requested already, and that
is still outstanding, serves the partition too. -/
def resetCores (s : State) (p : Nat) : State :=
  let cores := partitionCores s p
  let t := onPart s p fun x => { x with step := 2, waiting := cores }
  cores.foldl (fun u n =>
    if (cmdOf u 1 (physOf u n)).isSome then
      { u with coreCmds := u.coreCmds.map fun c =>
          if c.kind = 1 ∧ c.phys = physOf u n then { c with partition := some p } else c }
    else requestReset u (physOf u n) (some n) (some p)) t

/-- The functions of a partition that drain. -/
def partitionFns (s : State) (p : Nat) : List Nat := (liveFns s).filter fun f => fnPartition s f == p

/-- The slice of a partition's capture, or its deputy (R466, R600). -/
def captureHome (s : State) (p : Nat) : Nat := servingSlice s p

/-- P3: the capture starts: the header is zeroed, every station takes its snapshot (R466, R467). -/
def startCapture (s : State) (p : Nat) : State :=
  let j := captureHome s p
  let fns := partitionFns s p
  let s1 := onPart s p fun x => { x with step := 3, captures := x.captures + 1 }
  let control := controlEntries s1 (partitionCores s1 p) (partAt s1 p).blocks fns
  let sent := (s1.stations.filter fun q => serving q.2).flatMap fun q => (stationEntries s1 q.1 fns).map (q.1, ·)
  let ferry := s1.slices.flatMap fun q => (sliceEntries s1 q.1 fns).map (sliceStation s1 q.1, ·)
  let all := sent ++ ferry
  let c : Capture := ⟨p, 0, s1.now, [], 0, 0, all.length, 0, false, false, s1.now⟩
  let c' := control.foldl Capture.add c
  let s2 := captureXact (onSlice s1 j fun l => { l with capture := some c' }) j p 0 (setting s1 (0x2E0500 + p))
    (List.replicate 64 0)
  all.foldl (fun t e => send t e.1 (sliceStation t j) (.captureEntry ⟨p, e.2⟩)) s2

/-- P4: steps D2 to D7 begin for every function of the partition. -/
def drainPartition (s : State) (p : Nat) : State :=
  (partitionFns s p).foldl (fun t f => match (fnOf t f).drain with
    | some d => if d.step = 1 ∧ d.forReset then drainStep t f else t
    | none => t) (onPart s p fun x => { x with step := 4 })

/-- The capture of a partition that is done leaves its slice. -/
def endCapture (s : State) (p : Nat) : State :=
  match captureSlice s p with
  | some (j, _) => onSlice s j fun l => { l with capture := none }
  | none => s

/-- A partition's sequence takes its next step where it can. -/
def partitionStep (s : State) (p : Nat) : State :=
  let x := partAt s p
  if x.state ≠ .frozen then s
  else match x.step with
    | 1 => resetCores s p
    | 2 =>
      if !x.waiting.isEmpty then s
      else if setting s (0x2E0500 + p) = 0 then drainPartition s p
      else if (sliceAt s (captureHome s p)).capture.isNone then startCapture s p
      else s
    | 3 => match captureSlice s p with
      | some (_, c) => if c.step = 3 then drainPartition (endCapture s p) p else s
      | none => drainPartition s p
    | _ =>
      if (partitionFns s p).isEmpty && !x.ack then
        onPart s p fun y => { y with state := .resetting, step := 5, req := true, due := s.now + setting s 0x2E0604 }
      else s

/-- Every step that partitions' sequences and functions' drains can take at once. -/
def recoveryPump (s : State) : State :=
  let t := s.fns.foldl (fun t p => match p.2.drain with
    | some d => if d.step = 4 then destroyNext t p.1 destroyOrder else t
    | none => t) s
  let r := resolveStopped t
  r.partitions.foldl (fun u p => (List.range 4).foldl (fun v _ => partitionStep v p.1) u) r

/-! ## Engine reset (R481, R482, R610) -/

/-- Whether an entry keeps its value across an engine reset (R610). -/
def keptKey (k : Nat) : Bool :=
  let i := k / 256
  (0x2000 ≤ i && i ≤ 0x20FF) || (0x2D00 ≤ i && i ≤ 0x2FFF) || k == 0x210404 || k == 0x400101 || k == 0x400102 || i == 0x4002 ||
  [0x410201, 0x410202, 0x410203, 0x410204, 0x410206, 0x410301, 0x412002].contains k

/-- Something is wanted of the entropy port: the request rises at once, but within the delay after an error with the delay's
end, and under the clamp with its fall (R548, R552). -/
def wantEntropy (s : State) (w : Need) : State :=
  { s with entropy := { s.entropy with
    needs := s.entropy.needs ++ [w], req := s.entropy.req || (decide (s.entropy.retryAt ≤ s.now) && !s.power.clamp) } }

/-- Every open transaction of a station that stops acting is answered UNAVAILABLE by its towpath, which counts its answers
(R481 step 2, R532); posted waits end without a wake. -/
def stopStation (s : State) (n : Nat) : State :=
  let st := station s n
  let un := fun (t : State) (via : ReplyTo) (acquire scope : Nat) (tag : BitVec 16) => match via with
    | .port .. => bump (respond t n via (mkRsp acquire scope tag (plain .unavailable))) 0x2F0301
    | _ => t
  let held := st.waiters.filter fun w =>
    (w.hold && w.phase != .ended || w.phase == .pending) && !(st.openOps.any fun o => o.wait == some w.id)
  let s1 := st.openOps.foldl (fun t o => un t o.reply o.acquire o.scope o.opTag) s
  let s2 := held.foldl (fun t w => un t w.reply w.acquire w.scope w.opTag) s1
  let s3 := (st.budget.map (·.2) ++ st.excess).foldl (fun t x => un t x.via x.acquire x.scope x.opTag) s2
  let s4 := st.waiters.foldl (fun t w => match w.cancel with
    | some c => un t c.reply c.acquire c.scope c.opTag
    | none => t) s3
  st.rx.foldl towpathTakes s4

/-- A station after its clearing: its port's channels and its domain's isolation go on. -/
def clearStation (st : Station) (state : StationState) : Station :=
  { Station.empty state with
    rspQueue := st.rspQueue, rspCredit := st.rspCredit, pushCredit := st.pushCredit, isolated := st.isolated }

/-- The state in which a station stands while an engine reset runs (R481): RESET, but a spare whose domain is off is OFF. -/
def resetState (n : Nat) (st : StationState) : StationState :=
  if st = .absent then .absent else if 64 ≤ n ∧ st = .off then .off else .reset

/-- The state in which a station stands once the engine is out of service (R477): FENCED, but one whose domain is off, which
stays OFF (DEDUCED, log entry 60: a station that is OFF has no logic to fence). -/
def oosState (_n : Nat) (st : StationState) : StationState := if st = .absent ∨ st = .off then st else .fenced

/-- The state in which a station stands during an unlock (R513): one that was serving, or in reset, returns to ACTIVE in Z6;
one that is FENCED or OFF stays so. -/
def unlockState (_n : Nat) (st : StationState) : StationState := if st = .active ∨ st = .dozing then .reset else st

/-- The counter that a handle names while it lives, at its home. -/
def counterOf (s : State) (h : Word) : Option Counter :=
  s.stations.findSome? fun p => match liveObj s p.1 h with
    | some o => match o.body with | .counter c => some c | _ => none
    | none => none

/-- An hb_handle whose counter a clearing destroys becomes null (R455, R610). -/
def beatsNull (s : State) (d : Table Nat) : Table Nat :=
  d.map fun p =>
    if 0x2E0200 ≤ p.1 ∧ p.1 ≤ 0x2E023F ∧ (counterOf s (BitVec.ofNat 64 p.2)).isSome then (p.1, 0) else p

/-- Every store of the engine is cleared: steps 1 to 3 of R481, and Z1 to Z3 of Table 15.14. `left` gives the state in which
each station is left. -/
def clearStores (s : State) (left : Nat → StationState → StationState) : State :=
  let s1 := s.stations.foldl (fun t p => stopStation t p.1) s
  let s2 := s1.stations.foldl (fun t p => setStation t p.1 (clearStation p.2 (left p.1 p.2.state))) s1
  let kept := s.stations.flatMap fun p => p.2.heldReports
  let waits := fun (q : Nat) (x : Adm) => x.op == .landSeal && match x.via with | .link p .. => p == q | _ => false
  let freed := fun (q : Nat) => (s.seals.filter fun e => e.1 / 256 == 16 + q).length +
    (s.stations.map fun p => ((p.2.budget.map (·.2) ++ p.2.excess).filter (waits q)).length).sum
  let s3 := (List.range s.gelari.linkPorts).foldl (fun t q => if freed q = 0 then t else returnCredit t q 0 0 (freed q)) s2
  let s4 := s.fns.foldl (fun t p => match p.2.enabling with
    | some q => answerHost t q.host 0x02 .refused []
    | none => t) s3
  let s5 := kept.foldl creditReport (s4.fnQueue.foldl (fun t w => answerHost t w.1.host 0x02 .refused []) s4)
  let keyNeed := fun (w : Need) => match w with | .uuid => true | _ => false
  let firstKept : Bool := match s5.entropy.needs with | .uuid :: _ => true | _ => false
  { s5 with
    course := [], fnQueue := [], linkWork := [], shadowDue := [], keepers := [], indexGen := [], words := [], journal := []
    fns := [], tagKey := 0, dict := beatsNull s s5.dict
    slices := s5.slices.map fun p => (p.1, { Slice.initial with
      tags := p.2.tags.map fun u => { u with discard := true } })
    xi := s5.xi.map fun p => (p.1, { p.2 with sealsWait := [], sealsOut := p.2.sealsOut.map fun t => (t.1, noSeal) })
    seals := []
    entropy := { s5.entropy with
      needs := s5.entropy.needs.filter keyNeed, words := if firstKept then s5.entropy.words else []
      req := s5.entropy.req && firstKept } }

/-- The clearing of an engine reset: steps 1 to 3 and 5 of R481, with R482 and R610. -/
def clearEngine (s : State) (left : Nat → StationState → StationState) : State :=
  let t := clearStores s left
  { t with
    fnDict := [], dict := t.dict.filter fun p => keptKey p.1
    coreCmds := []
    partitions := t.partitions.map fun p => (p.1, match p.2.state with
      | .frozen => { p.2 with state := .ready, step := 0, waiting := [], blocks := [] }
      | .resetting => { p.2 with step := 6 }
      | _ => p.2)
    maps := { t.maps with partition := [] }
    window := Window.initial, service := none, substitute := [], drainsOwed := []
    unitState := t.unitState.filter fun p => p.1 / 256 == 4
    bins := [], replays := [] }

/-- The grid stations that the configuration has. -/
def gridStations (s : State) : List Nat := List.range s.gelari.stations

/-- An engine reset ends once the tag key is drawn and every domain that is wanted is on: grid stations return to ACTIVE,
but those that R477 holds FENCED and those whose domain is off. -/
def resetEnds (s : State) : State :=
  if s.power.resetting && s.power.phase == 0 && !s.power.clamp && s.power.fcAck && !(s.entropy.needs.contains .tagKey)
      && s.power.pdReq.all fun n => s.power.pdAck.contains n then
    let to_ : StationState := if s.power.engineOos then .fenced else .active
    let t := (gridStations s).foldl (fun t n =>
      if s.power.pdAck.contains n ∧ (station t n).state ≠ .absent then
        onStation t n fun st => { st with state := to_, isolated := false, idleSince := s.clock.fc }
      else t) s
    { t with power := { t.power with resetting := false } }
  else s

/-- A domain is wanted on: step W1 of Table 17.3. -/
def wantDomain (s : State) (n : Nat) : State :=
  if s.power.pdReq.contains n then s
  else
    let t := onStation s n fun st => { st with isolated := true }
    { t with power := { t.power with
      pdReq := t.power.pdReq ++ [n], pdDue := tput t.power.pdDue n (t.now + setting t 0x400201) } }

/-- A domain is wanted off: the isolation engaged, the request lowered (R566). -/
def dropDomain (s : State) (n : Nat) : State :=
  let t := onStation s n fun st => { st with isolated := true }
  { t with power := { t.power with
    pdReq := t.power.pdReq.filter (· != n), pdDue := tput t.power.pdDue n (t.now + setting t 0x400201) } }

/-- A spare is switched off by an engine reset (R554, R567): its isolation is engaged and its request lowered; it is OFF once its
acknowledge falls, or at once where its domain is not on. -/
def spareOff (s : State) (n : Nat) : State :=
  if (tget s.stations n).isNone then s
  else if s.power.pdAck.contains n then (if s.power.pdReq.contains n then dropDomain s n else s)
  else
    let t := onStation s n fun st => { st with state := if st.state = .absent then .absent else .off, isolated := true }
    { t with power := { t.power with pdReq := t.power.pdReq.filter (· != n), pdDue := tdel t.power.pdDue n } }

/-- An engine reset (R481, R482, R567): spares are switched off, and a grid station that is OFF is switched on. -/
def engineResets (s : State) : State :=
  let t := clearEngine s resetState
  let u := ([64, 65] : List Nat).foldl spareOff { t with power := { t.power with resetting := true } }
  resetEnds (wantEntropy ((gridStations u).foldl wantDomain u) .tagKey)

/-- The engine goes out of service (R477, R514): cleared, every station FENCED. -/
def outOfService (s : State) (advances : Nat) : State :=
  let t := clearEngine s oosState
  raise (setSetting { t with power := { t.power with engineOos := true } } 0x2E0805 1) 0x25 (generic advances 0 0 0 0)

/-- The advances of the engine count within its window. -/
def advancesNow (s : State) : List Nat := s.advances.filter fun a => decide (s.now < a + setting s 0x2E0804)

/-- The engine count advances (R477). -/
def advanceCount (s : State) : State :=
  let l := advancesNow s ++ [s.now]
  let t := { s with advances := l }
  if setting t 0x2E0803 ≤ l.length ∧ !t.power.engineOos then outOfService t l.length else t

/-- A partition goes out of service. -/
def partitionOos (s : State) (p : Nat) : State :=
  let t := onPart s p fun x => { x with state := .outOfService }
  advanceCount (raise t 0x22 (partAt t p).fault)

/-- The integrator acknowledges a partition's reset (R461, R476, R482, R547): the partition goes out of service where enough
entries to FROZEN fall within the window that ends with the current one. -/
def resetAcknowledged (s : State) (p : Nat) : State :=
  let x := partAt s p
  if !x.req then s
  else
    let t := onPart s p fun y => { y with req := false, ack := true }
    if x.state ≠ .resetting then t
    else
      let current := x.entries.foldl max 0
      let n := (x.entries.filter fun a => decide (current < a + setting s 0x2E0802)).length
      if x.step = 5 ∧ setting s 0x2E0801 ≤ n then partitionOos t p
      else
        let u := onPart t p fun y => { y with state := .ready, step := 0 }
        raise u 0x21 (partAt u p).fault

/-- No acknowledgement within partition_reset_timeout_ac: tier 3 (R475). -/
def partitionTimesOut (s : State) (p : Nat) : State :=
  let x := partAt s p
  if x.state = .resetting ∧ x.req then partitionOos (raiseTier (passToAc s x.due) p 3) p else s

/-- The integrator lowers its acknowledgement (R547). -/
def ackFalls (s : State) (p : Nat) : State := onPart s p fun x => if x.req then x else { x with ack := false }

/-! ## Heartbeat watch (R455) -/

/-- A watch window ends. -/
def heartbeatReads (s : State) (p : Nat) : State :=
  let h : Word := BitVec.ofNat 64 (setting s (0x2E0200 + p))
  match counterOf s h with
  | some c =>
    if h = 0 ∨ fnPartition s (Handle.fn h) ≠ p then s
    else
      let x := partAt s p
      let t := passToAc s x.beatDue
      let u := onPart t p fun y => { y with lastBeat := some c.value, beatDue := t.now + setting t 0x2E0400 }
      if x.lastBeat = some c.value then
        declare u p 1 h (Handle.fn h) (setting u (0x2E0300 + p)) 0 0
      else u
  | none => s

/-! ## The end of a step -/

/-- Whether the step has left something that is taken within it. -/
def unfinished (s : State) : Bool :=
  !s.linkWork.isEmpty || s.course.any (caravanDue s) || s.course.any (fun m => m.src == m.dst && localKind m.body && awake (station s m.dst)) ||
  (s.stations.any fun p => p.2.jobs.any (jobDue s p.1)) ||
  s.stations.any fun p => p.2.blocked.any fun b => match objAt s p.1 b.1 with | some o => !pushWaits o | none => true

/-- What the engine does of itself within a step, until nothing is left: local answers and wakes, answers to links,
caravans for a link of the same station, creations and destructions whose commits have arrived, operations behind a push that has ended. -/
def finishLoop : Nat → State → State
  | 0, s => s
  | fuel + 1, s =>
    if unfinished s then
      let t := settle (4 * s.course.length + 16) s
      let u := localCaravans (t.course.length + 4) (linkAnswers (t.linkWork.length + 4) t)
      let v := u.stations.foldl (fun v p => if p.2.jobs.isEmpty then v else endJobs v p.1) u
      finishLoop fuel (v.stations.foldl (fun w p => if p.2.blocked.isEmpty then w else drainAll w p.1) v)
    else s

/-- What closes every step: an engine reset that waits for nothing ends, a bridge that has lost its queue or its function is
off, and a loss of events that the log has room for is reported (R440, R482, R508). -/
def closing (s : State) : State := overflowCheck (bridgesCheck (resetEnds s))

/-- What the engine does of itself. -/
def finish (s : State) : State :=
  let t := finishLoop 16 s
  let u := finishLoop 16 (recoveryPump t)
  closing (if (owedBridges u).isEmpty then u else finishLoop 16 (releaseOwed u))

end Sys2Proof.Machine
end

