-- ==== Sys2Proof/Machine/Dictionary.lean ====
section
/-!
DEFINITION. The object dictionary (R484 to R490): which entries exist, what an access reads, and which writes the
entries' chapters refuse. A value that the engine keeps as such stands in `State.dict` or `State.fnDict`; every other is
computed from the state it reports.
-/

namespace Sys2Proof.Machine

/-! ## Entries -/

/-- The code of a type in a READ's answer (Table 15.8). -/
def EntryType.code : EntryType → Nat
  | .u8 => 0 | .u16 => 1 | .u32 => 2 | .u64 => 3 | .bool => 4 | .enum => 5 | .bitset => 6 | .handle => 7 | .blob => 8

/-- The key of an entry. -/
def keyOf (index subindex : Nat) : Nat := 256 * index + subindex

/-- The function of a per-function entry's index (Table 15.3). -/
def entryFn (index : Nat) : Option Nat := if 0x3000 ≤ index ∧ index ≤ 0x3FFF then some (index - 0x3000) else none

/-- Whether the configuration contains an entry: a link port's routing table and budget need the port (R484). -/
def configured (s : State) (k : Nat) : Bool :=
  if 0x2D0200 ≤ k ∧ k ≤ 0x2D020F then decide (k - 0x2D0200 < s.gelari.linkPorts)
  else if 0x2D0700 ≤ k ∧ k ≤ 0x2D070F then decide (k - 0x2D0700 < s.gelari.linkPorts)
  else true

/-- The row of an entry that exists (R484). -/
def entryRow (s : State) (index subindex : Nat) : Option EntryRow :=
  match entryFn index with
  | some _ => rowOf fnRows subindex
  | none =>
    let k := keyOf index subindex
    if configured s k then rowOf dictRows k else none

/-- Whether an entry is an array of bytes, of which any range may be accessed (R489). BITSET entries are accessed whole. -/
def EntryRow.blob (r : EntryRow) : Bool := r.type == .blob

/-- Whether an access's offset and length fit R489. -/
def lengthOk (r : EntryRow) (offset length : Nat) : Bool :=
  if r.blob then decide (offset + length ≤ r.size) && decide (length ≤ 1024)
  else decide (offset = 0) && decide (length = r.size)

/-! ## Values that are computed -/

/-- The code of a station's state (Table 1.12). -/
def StationState.code : StationState → Nat
  | .active => 0 | .dozing => 1 | .reset => 2 | .fenced => 3 | .off => 4 | .absent => 5

/-- The state that station_state and spare_state report: one that the configuration does not contain is ABSENT. -/
def stationCode (s : State) (n : Nat) : Nat :=
  match tget s.stations n with
  | some st => if underTest s n then StationState.fenced.code else st.state.code
  | none => if n = 64 ∧ 1 ≤ s.gelari.spares ∨ n = 65 ∧ 2 ≤ s.gelari.spares then 4 else 5

/-- The code of a function's state (Table 2.6). -/
def FnState.code : FnState → Nat
  | .disabled => 0 | .enabled => 1 | .draining => 2 | .retired => 3

/-- The code of a partition's state (Table 14.6). -/
def PartState.code : PartState → Nat
  | .ready => 0 | .frozen => 1 | .resetting => 2 | .outOfService => 3

/-- The code of the ownership state (Table 15.10). -/
def OwnerState.code : OwnerState → Nat
  | .unowned => 0 | .electing => 1 | .owned => 2 | .handing => 3

/-- The code of a link port's state (R447). -/
def LinkState.code : LinkState → Nat
  | .absent => 0 | .down => 1 | .up => 2 | .lost => 3

/-- The code of debug_state (R513). -/
def DebugState.code : DebugState → Nat
  | .locked => 0 | .zeroising => 1 | .unlocked => 2

/-- lease_remaining_ac: it stands still while HANDING (R502). -/
def leaseLeft (s : State) : Nat :=
  match s.owner.state with
  | .owned => s.owner.deadline - s.now
  | .handing => s.owner.remaining
  | _ => 0

/-- The sum of a per-function value over the live functions (R72, R76). -/
def liveSum (s : State) (sub : Nat) : Nat := ((liveFns s).map fun f => fnSetting s f sub).sum

/-- A sum over every station. -/
def stationSum (s : State) (f : Station → Nat) : Nat := (s.stations.map fun p => f p.2).sum

/-- The eddies of the counters homed at a station. -/
def counterEddies (st : Station) : Nat :=
  (st.objects.map fun p => match p.2.body with | .counter c => c.eddies.length | _ => 0).sum

/-- The blocks in extents of a function, over all slices. -/
def blocksReserved (s : State) (f : Nat) : Nat :=
  (s.slices.map fun p => ((p.2.extents.filter fun e => e.2.fn == f).map fun e => e.2.length).sum).sum

/-- The posted waits of a function that are parked: one that has ended is parked no more, though its wake still waits for push
credit (DESIGN CHOICE, log entry 86; R138 says currently parked). -/
def parkedWaits (s : State) (f : Nat) : Nat :=
  stationSum s fun st => (st.waiters.filter fun w =>
    Handle.fn w.handle == f && !w.hold && (w.phase == .joined || w.phase == .withdrawing)).length

/-- The held reads that are open. -/
def heldReads (s : State) : Nat :=
  stationSum s fun st => (st.waiters.filter (·.hold)).length

/-- The state of a unit other than a station (R599, R602): ABSENT where the configuration has `count` fewer. -/
def unitCode (s : State) (kind n count : Nat) : Nat := if n < count then tgetD s.unitState (256 * kind + n) 0 else 4

/-- Present logical cores. -/
def coresPresent (s : State) : Nat := ((List.range 2048).filter fun n => ((rget s.maps.entry n).getD 255) != 255).length

/-- Identity entries (Table 15.5) that Gelari gives. -/
def identity (s : State) : Nat → Option Nat
  | 0x05 => some s.gelari.version
  | 0x10 => some s.gelari.stations
  | 0x11 => some s.gelari.spares
  | 0x12 => some s.gelari.landingPorts
  | 0x13 => some s.gelari.linkPorts
  | 0x14 => some s.gelari.initiators
  | 0x15 => some s.gelari.stages
  | 0x16 => some (courseShape s.gelari.stations).1
  | 0x17 => some (courseShape s.gelari.stations).2
  | 0x18 => some (courseDiameter s.gelari.stations)
  | 0x19 => some s.gelari.fastKhz
  | 0x1A => some (coresPresent s)
  | _ => none

/-- Entries of the ferry that Gelari gives or that count live state (Table 9.5). -/
def ferryEntry (s : State) (k : Nat) : Option Nat :=
  let i := max 1 s.gelari.initiators
  if k = 0x290101 then some (4096 / i)
  else if k = 0x290102 then some (64 / i)
  else if k = 0x290103 then some (512 / i)
  else if k = 0x290201 then some s.gelari.stackShift
  else if k = 0x290202 then some s.gelari.groupShift
  else if k = 0x290203 then some s.gelari.groupsPerStack
  else if k = 0x290204 then some s.gelari.stackCount
  else if k = 0x290507 then some ((s.slices.map fun p => p.2.tags.length).sum)
  else none

/-- Counts of live objects and records. -/
def liveEntry (s : State) (k : Nat) : Option Nat :=
  if k = 0x230400 then some (512 - s.words.length)
  else if k = 0x230506 then some (heldReads s)
  else if k = 0x240301 then some (classLive s 1)
  else if k = 0x240302 then some (stationSum s counterEddies)
  else if k = 0x250101 then some (classLive s 2)
  else if k = 0x250102 then some (stationSum s fun st => st.nodes.length)
  else if k = 0x260101 then some (stationSum s fun st => (st.nodes.filter fun p => p.2.slot).length)
  else if k = 0x270101 then some (classLive s 3)
  else if k = 0x270503 then some s.seals.length
  else if k = 0x280101 then some (classLive s 4)
  else if k = 0x2A0501 then some (classLive s 5)
  else if k = 0x2B0101 then some (classLive s 6)
  else none

/-- Ownership and debug entries (Table 15.16). -/
def ownerEntry (s : State) (k : Nat) : Option Nat :=
  if k = 0x200101 then some s.owner.host
  else if k = 0x200102 then some s.owner.epoch
  else if k = 0x200103 then some s.owner.priority
  else if k = 0x200104 then some (leaseLeft s)
  else if k = 0x200105 then some s.owner.state.code
  else if k = 0x200801 then some (s.debug).code
  else none

/-- Totals over functions (Table 2.8). -/
def totalEntry (s : State) (k : Nat) : Option Nat :=
  if 0x220201 ≤ k ∧ k ≤ 0x220205 then some (liveSum s (0x06 + 2 * (k - 0x220201)))
  else if k = 0x220301 then some (liveSum s 0x04)
  else if k = 0x220302 then some (liveSum s 0x05)
  else none

/-- Other configuration constants. -/
def gelariEntry (s : State) (k : Nat) : Option Nat :=
  if 0x230100 ≤ k ∧ k ≤ 0x230141 then some ((rget s.gelari.apertureBase (k - 0x230100)).getD 0)
  else if k = 0x230200 then some s.gelari.mailboxDepth
  else if k = 0x270300 then some s.gelari.initiators
  else if k = 0x270301 then some (256 / max 1 s.gelari.stations)
  else if k = 0x270400 then some s.gelari.landingFlightAc
  else if k = 0x2F0101 then some s.gelari.xpReqCredits
  else if k = 0x2F0102 then some s.gelari.lpCredits
  else if k = 0x2F0103 then some s.gelari.kpRxCredits
  else if k = 0x400301 then some s.gelari.stagesRequired
  else none

/-- States of stations, links, partitions and units. -/
def stateEntry (s : State) (k : Nat) : Option Nat :=
  if 0x210200 ≤ k ∧ k ≤ 0x210241 then some (stationCode s (k - 0x210200))
  else if 0x2D0300 ≤ k ∧ k ≤ 0x2D030F then
    some (match tget s.links (k - 0x2D0300) with | some l => l.state.code | none => 0)
  else if 0x2E0700 ≤ k ∧ k ≤ 0x2E073F then some (partAt s (k - 0x2E0700)).state.code
  else if 0x2E0C00 ≤ k ∧ k ≤ 0x2E0C3F then
    some (((partAt s (k - 0x2E0C00)).entries.filter fun a => decide (s.now < a + setting s 0x2E0802)).length % 256)
  else if k = 0x2E0805 then some (flag s.power.engineOos)
  else if k = 0x210406 then some ((setting s k + dozingFc s) % 2 ^ 64)
  else if k = 0x400101 then some s.now
  else if k = 0x413001 ∧ !s.power.fcAck then some 0
  else if 0x411100 ≤ k ∧ k ≤ 0x41110F then some (unitCode s 2 (k - 0x411100) s.gelari.initiators)
  else if 0x411200 ≤ k ∧ k ≤ 0x41121F then some (unitCode s 3 (k - 0x411200) s.gelari.landingPorts)
  else if 0x411300 ≤ k ∧ k ≤ 0x41130F then some (unitCode s 4 (k - 0x411300) s.gelari.linkPorts)
  else none

/-- The value of an engine-wide entry that is a number. -/
def scalarValue (s : State) (k : Nat) : Nat :=
  let computed := (if k / 256 = 0x1000 then identity s (k % 256) else none).orElse fun _ =>
    (ownerEntry s k).orElse fun _ => (stateEntry s k).orElse fun _ => (liveEntry s k).orElse fun _ =>
    (totalEntry s k).orElse fun _ => (ferryEntry s k).orElse fun _ => gelariEntry s k
  computed.getD (setting s k)

/-- The value of a per-function entry. -/
def fnValue (s : State) (f sub : Nat) : Nat :=
  match sub with
  | 0x01 => (fnOf s f).state.code
  | 0x03 => (fnOf s f).generation
  | 0x10 => objectsUsed s f
  | 0x11 => windowsUsed s f
  | 0x12 => tagsUsed s f
  | 0x16 => parkedWaits s f
  | 0x25 => blocksReserved s f
  | _ => fnSetting s f sub

/-! ## Entries of bytes -/

/-- Byte `i` of a number stored least significant byte first. -/
def byteLE (v i : Nat) : Nat := v / 256 ^ i % 256

/-- An event's 48 bytes (R507). -/
def Event.bytes (e : Event) : List Byte :=
  bytesLE 4 e.seq ++ bytesLE 1 e.code ++ bytesLE 1 (flag e.fixed) ++ bytesLE 2 0 ++ bytesLE 4 e.time ++ bytesLE 4 0 ++
    bytesBE 32 e.record.toNat

/-- A subscription slot's 20 bytes. -/
def subscriptionBytes (s : State) (slot : Nat) : List Byte :=
  match tget s.subs slot with
  | some x => bytesLE 2 x.host ++ bytesLE 2 0 ++ bytesLE 16 x.mask.toNat
  | none => []

/-- A journal record as a number (Table 10.15). -/
def journalWord (s : State) (n : Nat) : Nat :=
  match tget s.journal n with
  | some (fn, index, old, new, st) => field 12 52 fn + field 14 38 index + field 7 31 old + field 7 24 new + field 2 22 st
  | none => 0

/-- Spare r's two bytes in spare_map (Table 14.14). -/
def spareWord (s : State) (r : Nat) : Nat :=
  match rget s.maps.spare r with
  | some p => if p = 0xFFFF then p else p + (if s.maps.spareUsed.contains r then 2 ^ 15 else 0)
  | none => 0xFFFF

/-- A byte of one of Gelari's tables or of a map. -/
def mapByte (s : State) (k i : Nat) : Option Nat :=
  if k = 0x210600 then some ((rget s.maps.entry i).getD 255)
  else if k = 0x220100 then some (corePartition s i)
  else if k = 0x270302 then some (s.gelari.landingGroup.getD i 255)
  else if k = 0x2A0100 then some (siteOf s i)
  else if k = 0x2A0101 then some ((rget s.gelari.spareSite i).getD 255)
  else if k = 0x2A0200 then some (distanceOf s (i / 128) (i % 128))
  else if 0x2D0200 ≤ k ∧ k ≤ 0x2D020F then some ((rget (tgetD s.routes (k - 0x2D0200) []) i).getD 0x1F)
  else if k = 0x2E0A00 then some (byteLE (physOf s (i / 2)) (i % 2))
  else if k = 0x2E0A01 then some (byteLE (spareWord s (i / 2)) (i % 2))
  else if k = 0x2E0A02 then some ((rget s.gelari.coreRow i).getD 255)
  else none

/-- Byte `i` of the set of numbers that a test accepts. -/
def setByte (p : Nat → Bool) (i : Nat) : Nat := ((List.range 8).map fun b => if p (8 * i + b) then 2 ^ b else 0).sum

/-- Byte `i` of a list of bytes; zero beyond its end. -/
def listByte (l : List Byte) (i : Nat) : Nat := (l.getD i 0).toNat

/-- Byte `i` of an entry of bytes. debug_record is stored least significant byte first (R485; log entry 43). -/
def blobByte (s : State) (k i : Nat) : Nat :=
  match mapByte s k i with
  | some b => b
  | none =>
    if k = 0x100006 then s.gelari.configName.getD i 0
    else if k = 0x100007 then byteLE s.gelari.buildId i
    else if 0x200400 ≤ k ∧ k ≤ 0x200407 then listByte (subscriptionBytes s (k - 0x200400)) i
    else if k = 0x200600 then
      match s.log[i / 48]? with
      | some e => listByte e.bytes (i % 48)
      | none => 0
    else if k = 0x200301 then byteLE (setting s k) (15 - i)
    else if k = 0x220400 then setByte (fun f => (fnOf s f).state == .retired) i
    else if k = 0x2A0600 then byteLE (journalWord s (i / 8)) (i % 8)
    else if 0x2E0900 ≤ k ∧ k ≤ 0x2E093F then byteLE (partAt s (k - 0x2E0900)).fault.toNat (31 - i)
    else if k = 0x2E0A03 then setByte (fun p => s.fenced.contains p) i
    else if 0x414100 ≤ k ∧ k ≤ 0x414300 then byteLE (tgetD s.bins (16 * (k / 256 - 0x4140) + i / 8) 0) (i % 8)
    else byteLE (setting s k) i

/-- The bytes that a read of an existing entry returns; a write-only entry reads as zeros (Table 15.2). -/
def readBytes (s : State) (r : EntryRow) (index subindex offset length : Nat) : List Byte :=
  match r.right with
  | .wo => List.replicate length 0
  | _ =>
    match r.type with
    | .blob | .bitset =>
      (List.range length).map fun i => BitVec.ofNat 8 (blobByte s (keyOf index subindex) (offset + i))
    | _ =>
      bytesLE length (match entryFn index with
        | some f => fnValue s f subindex
        | none => scalarValue s (keyOf index subindex))

/-- A read of an entry (R484, R489, R490): its result, type code and bytes. -/
def readEntry (s : State) (e : EntryRef) : Result × Nat × List Byte :=
  let index := e.index.toNat
  let sub := e.subindex.toNat
  match entryRow s index sub with
  | none => (.noEntry, 0, [])
  | some r =>
    if lengthOk r e.offset e.length then (.ok, r.type.code, readBytes s r index sub e.offset e.length)
    else (.badLength, 0, [])

end Sys2Proof.Machine
end

