-- ==== Sys2Proof/Machine/Power.lean ====
section
/-!
DEFINITION. Power, clock and reset (Tables 16.19, 16.20 and 17.3, R551 to R554 and R558 to R571): the power-up sequence,
the clamp, the fast clock, station power domains, doze and wake.
-/

namespace Sys2Proof.Machine

/-! ## Power-up and power loss (R551 to R553) -/

/-- Power loss (Table 14.2): everything but the configuration is lost; every output is idle until the power-up sequence
has run. The transfers driven before and the commands that wait are the model's own record. -/
def powerLost (s : State) : State :=
  let g := s.gelari
  { State.reset with
    pending := s.pending, outputs := s.outputs, gelari := g, maps := g.maps
    stations := ((List.range g.stations).map fun n => (n, Station.empty .reset)) ++
      (List.range g.spares).map fun k => (64 + k, { Station.empty .off with isolated := true })
    slices := (List.range g.initiators).map fun j => (j, Slice.initial)
    xi := (List.range g.initiators).map fun j => (j, ⟨0, 0, [], []⟩)
    links := (List.range g.linkPorts).map fun k => (k, Link.initial)
    clock := ⟨0, 0, 0, g.fastKhz⟩
    power := ⟨1, false, s.power.clamp, false, false, s.power.fcAck, [], s.power.pdAck, [], false, false, 0⟩ }

/-- The report ports that the configuration has. -/
def reportPorts (g : Gelari) : List ReportPort :=
  (List.range g.landingPorts).map .landing ++ (List.range g.linkPorts).map .link

/-- The initial credits of every receiver: reports, request lanes and receive flits (R520, R533, R538, R539). -/
def initialCredits (s : State) : List Output :=
  let g := s.gelari
  (reportPorts g).flatMap (fun p => List.replicate g.lpCredits (.reportCredit p)) ++
  (s.stations.filter fun p => p.2.state != .absent).flatMap (fun p => (List.range 2).flatMap fun l =>
    List.replicate g.xpReqCredits (.credit (.xpRequest p.1 l))) ++
  (List.range g.linkPorts).flatMap fun p => List.replicate g.kpRxCredits (.credit (.kpReceive p))

/-- Steps U5 and U6 follow once the fast clock and every domain are acknowledged and the clamp is low: every port rises,
returns its initial credits, and an engine reset runs. -/
def powerUp (s : State) : State :=
  if s.power.phase = 2 ∧ s.power.fcAck ∧ !s.power.clamp ∧ s.power.pdReq.all (fun n => s.power.pdAck.contains n) then
    engineResets { s with
      power := { s.power with phase := 0, present := true, pdDue := [] }, outputs := s.outputs ++ initialCredits s }
  else s

/-- ap0_aon_rst_n is released: steps U2 and U3. Always-on state is at its power-up values, the always-on count starts
(R562), the fast clock and the grid stations' domains are requested, and the endpoint UUID is drawn (R498). -/
def aonReleased (s : State) : State :=
  if s.power.phase ≠ 1 then s
  else
    let t := { s with
      clock := ⟨0, 0, 0, s.clock.khz⟩
      power := { s.power with phase := 2, aonRstN := true, fcReq := true, pdReq := gridStations s } }
    powerUp (wantEntropy t .uuid)

/-- ap0_aon_rst_n falls with power present (R553). -/
def aonFalls (s : State) : State := if s.power.phase = 1 then s else powerLost s

/-- Every level output at its idle value (R519, R552): present, the requests for the fast clock, domains, entropy and partition
resets, the in-band interrupt with its byte, and the throttle hints. -/
def idleOutputs (s : State) : State :=
  { s with
    power := { s.power with present := false, fcReq := false, pdReq := [] }
    entropy := { s.entropy with req := false }
    partitions := s.partitions.map fun p => (p.1, { p.2 with req := false })
    transport := { s.transport with ibiReq := false, ibiMdb := 0 }
    stations := s.stations.map fun p => (p.1, { p.2 with hint := { p.2.hint with level := false } }) }

/-- ap0_clamp rises (D1): every output takes its idle value at that edge, every present falls, and the fast clock is no longer
requested (R533, R552, R560). -/
def clampRises (s : State) : State := idleOutputs { s with power := { s.power with clamp := true } }

/-- ap0_clamp falls. In step U4 the ports are initialised; no present rises otherwise (R533). Entropy that is wanted is asked
for. -/
def clampFalls (s : State) : State :=
  powerUp { s with
    power := { s.power with clamp := false }
    entropy := { s.entropy with req := s.entropy.req || (!s.entropy.needs.isEmpty && decide (s.entropy.retryAt ≤ s.now)) } }

/-! ## The fast clock (R560, R561) -/

/-- The responses that waited for the fast clock are driven. -/
def driveWaiting (s : State) : State := s.stations.foldl (fun t p => driveRsp t p.1 (station t p.1).rspQueue.length) s

/-- ap0_fc_ack rises: U4, or after a loss an engine reset. -/
def fcRises (s : State) : State :=
  if s.power.phase = 1 ∨ s.power.fcAck then { s with power := { s.power with fcAck := true } }
  else
    let t := { s with power := { s.power with fcAck := true } }
    if t.power.phase = 2 then powerUp t
    else if !t.power.fcReq then t
    else
      let u := engineResets t
      if portsLive u then driveWaiting u else u

/-- ap0_fc_ack falls: while the clock is requested it is lost, and every station is marked RESET. -/
def fcFalls (s : State) : State :=
  if !s.power.fcAck then s
  else
    let t := { s with power := { s.power with fcAck := false } }
    if !t.power.fcReq then t
    else
      let u := bump (bumpBy t 0x210406 (dozingFc t)) 0x400102
      let v := raise u 0x68 (generic (setting u 0x400102) 0 0 0 0)
      { v with stations := v.stations.map fun p =>
        (p.1, if p.2.state = .absent then p.2 else { p.2 with state := .reset }) }

/-! ## Station power domains (R564 to R567) -/

/-- The course neighbours of a station: one hop away, or a spare's anchors. -/
def neighbours (s : State) (n : Nat) : List Nat :=
  if 64 ≤ n then anchors s.gelari n
  else (gridStations s).filter fun m => gridDistance s.gelari.stations n m == 1

/-- The lowest-numbered course neighbour that is ACTIVE or DOZING. -/
def servingNeighbour (s : State) (n : Nat) : Option Nat := leastBy id ((neighbours s n).filter fun m => serving (station s m))

/-- The messages that a dozing station takes without waking (R568). -/
def takenAsleep : MsgBody → Bool
  | .chartCommit .. | .chartClear .. | .beaconUpdate .. => true
  | _ => false

/-- The commits and beacon words that are on their way to a neighbour reach a station that is being switched on too (W5 of Table
17.3), but those that are on their way to it already. -/
def lateWrites (s : State) (n neighbour : Nat) : List Msg :=
  s.course.filterMap fun m =>
    let own : Msg := { m with dst := n }
    if m.dst = neighbour ∧ takenAsleep m.body ∧ !s.course.contains own then some own else none

/-- Steps W3 to W5: the isolation is released, every store written to zero, the chart replica copied from a neighbour, with it the
beacon page (R128; DEDUCED, log entry 82), and the station FENCED; what was on its way to the neighbour is applied too. Without
the fast clock a station stays in reset (R560). -/
def domainStores (s : State) (n : Nat) : State :=
  if !s.power.fcAck then s else
  match servingNeighbour s n with
  | some m =>
    let t := wakeStation s m
    let u := { t with course := t.course ++ lateWrites t n m }
    onStation u n fun st => { clearStation st .fenced with
      chart := (station t m).chart, beacon := (station t m).beacon, isolated := false }
  | none => onStation s n fun st => { clearStation st .fenced with isolated := false }

/-- A power domain's acknowledge rises (W2). While an engine reset runs, or the fast clock is away, the station stays in reset. -/
def domainRises (s : State) (n : Nat) : State :=
  if s.power.pdAck.contains n ∨ !s.power.pdReq.contains n then s
  else
    let t := { s with power := { s.power with pdAck := s.power.pdAck ++ [n], pdDue := tdel s.power.pdDue n } }
    if t.power.phase ≠ 0 then powerUp t
    else
      let u := bump t 0x400202
      if u.power.resetting || !u.power.fcAck then onStation u n fun st => { clearStation st .reset with isolated := !u.power.fcAck }
      else domainStores u n

/-- What a station hosts goes with its domain (R563): the queues of its link ports, whose caravans are discarded, their seal
buffers, whose credits return, and its slices but their tag trackers (DEDUCED, log entry 88: R563 names what goes, and not what
becomes of the caravans and credits). -/
def hostedFalls (s : State) (n : Nat) : State :=
  let ports := (List.range s.gelari.linkPorts).filter fun q => linkAttach s q == n
  let t := ports.foldl (fun t q =>
    let l := linkAt t q
    let units := l.weirWait ++ l.opWait
    let k := (s.seals.filter fun e => e.1 / 256 == 16 + q).length
    let t1 := discardCaravans (setLink t q { l with weirWait := [], opWait := [], unitOpen := false, opPart := none })
      ((units.map fun u => u.parts.length).sum + flag l.opPart.isSome)
    let t2 := units.foldl (fun u x => match x.relay with | some r => returnUnit u r x | none => u) t1
    if k = 0 then t2 else returnCredit t2 q 0 0 k) s
  { t with
    seals := t.seals.filter fun e => bufferStation s (e.1 / 256) != n
    slices := t.slices.map fun p => if sliceStation s p.1 = n then
      (p.1, { Slice.initial with tags := p.2.tags.map fun u => { u with discard := true } }) else p }

/-- A power domain's acknowledge falls after its request. -/
def domainFalls (s : State) (n : Nat) : State :=
  if !s.power.pdAck.contains n ∨ s.power.pdReq.contains n then s
  else
    let off := (tget s.power.pdDue n).isSome
    let t := { s with power := { s.power with pdAck := s.power.pdAck.filter (· != n), pdDue := tdel s.power.pdDue n } }
    if off then onStation (hostedFalls t n) n fun st => { clearStation st .off with isolated := true } else t

/-- A domain handshake is outstanding: its request and acknowledge differ, and its time limit runs. -/
def handshakeOpen (s : State) (n : Nat) : Bool :=
  (tget s.power.pdDue n).isSome && s.power.pdReq.contains n != s.power.pdAck.contains n

/-- pd_ack_timeout_ac passes without acknowledgement (R565, R566): a station that was to be on stays OFF, one that was to
be off stays FENCED and isolated. -/
def domainTimesOut (s : State) (n : Nat) : State :=
  if !handshakeOpen s n then s
  else
    let t := passToAc s (tgetD s.power.pdDue n 0)
    let on := t.power.pdReq.contains n
    let u := { t with power := { t.power with pdReq := t.power.pdReq.filter (· != n), pdDue := tdel t.power.pdDue n } }
    let v := if (station u n).state = .absent then u
      else onStation u n fun st => { st with state := if on then .off else .fenced }
    raise (bump v 0x400203) 0x69 (generic (if on then 1 else 2) 0 0 0 n)

/-! ## Doze and wake (R568 to R572) -/

/-- Whether the slices, seal buffers and links that attach to a station hold work (R569). -/
def attachWork (s : State) (n : Nat) : Bool :=
  (s.slices.any fun p => sliceStation s p.1 == n && (!p.2.waiting.isEmpty || !p.2.tags.isEmpty || !p.2.spillIn.isEmpty)) ||
  (s.xi.any fun p => sliceStation s p.1 == n && (!p.2.sealsWait.isEmpty || !p.2.sealsOut.isEmpty)) ||
  (s.links.any fun p => linkAttach s p.1 == n &&
    (!p.2.control.isEmpty || !p.2.weirWait.isEmpty || !p.2.opWait.isEmpty || !p.2.resend.isEmpty))

/-- Whether a deadline modulo 2^33 is due (R115). -/
def isDue (s : State) (d : Nat) : Bool := decide ((s.now + 2 ^ 33 - d % 2 ^ 33) % 2 ^ 33 < 2 ^ 32)

/-- Whether a station's deadline comparator finds a deadline due: a wait's, or a queue's (R569). -/
def deadlineDue (s : State) (st : Station) : Bool :=
  (st.waiters.any fun w => w.phase == .joined && w.deadline.any (isDue s)) ||
  st.objects.any fun p => match p.2.body with | .queue q => q.idleDeadline.any (isDue s) | _ => false

/-- Whether a station has foreground work (R569). -/
def hasWork (s : State) (n : Nat) : Bool :=
  let st := station s n
  !st.budget.isEmpty || !st.excess.isEmpty || !st.blocked.isEmpty || !st.rx.isEmpty || deadlineDue s st || (nextPush s n [] st.ready).isSome ||
  (s.course.any fun m => m.dst == n && !takenAsleep m.body) ||
  st.outgoing.isSome || st.incoming.isSome || attachWork s n

/-- The idle count reaches station_doze_cycles: the station dozes, 8 fc later (R570). -/
def dozes (s : State) (n : Nat) : State :=
  let st := station s n
  if st.state ≠ .active ∨ setting s 0x210401 = 0 ∨ hasWork s n ∨ towpathActs s n then s
  else
    let t := passFc (passToFc s (st.idleSince + setting s 0x210402)) 8
    onStation t n fun x => { x with state := .dozing, idleSince := t.clock.fc }

/-! ## Entropy (R548) -/

/-- The words that a need takes. -/
def Need.words : Need → Nat
  | .uuid | .tagKey => 2
  | .fnKey _ => 4

/-- The number that words make, the first word highest. -/
def wordsNat (l : List Word) : Nat := l.foldl (fun n w => 2 ^ 64 * n + w.toNat) 0

/-- A version 4 UUID from two words: its 16 bytes most significant first (R498). DESIGN CHOICE (log entry 42): the words
fill its bits in order. -/
def uuidOf (l : List Word) : Nat :=
  let v := wordsNat l
  v - (v / 2 ^ 76 % 16) * 2 ^ 76 + 4 * 2 ^ 76 - (v / 2 ^ 62 % 4) * 2 ^ 62 + 2 * 2 ^ 62

/-- The first need leaves, and the next is asked for (R548). -/
def nextNeed (s : State) : State :=
  let rest := s.entropy.needs.drop 1
  { s with entropy := { s.entropy with needs := rest, words := [], req := !rest.isEmpty, fails := 0 } }

/-- en0_err: the words taken for the need are discarded, the request lowered (R548). -/
def entropyFails (s : State) : State :=
  if !s.entropy.req then s
  else
    let n := s.entropy.fails + 1
    let t := bump { s with entropy := { s.entropy with
      words := [], req := false, fails := n, retryAt := s.now + setting s 0x2F0501 } } 0x2F0503
    if n = setting t 0x2F0502 then raise t 0x61 (generic n 0 0 0 0) else t

/-- entropy_retry_ac passes: the request rises again. -/
def entropyAgain (s : State) : State :=
  if s.entropy.req ∨ s.entropy.needs.isEmpty then s
  else
    let t := passToAc s s.entropy.retryAt
    { t with entropy := { t.entropy with req := true } }

end Sys2Proof.Machine
end

