-- ==== Sys2Proof/Machine/Service.lean ====
section
/-!
DEFINITION. Online service (R592 to R603): drains, tests and returns of stations, ferry initiators, landing ports and link
ports, and switching a station off and on.
-/

namespace Sys2Proof.Machine

/-! ## Units (R599) -/

/-- The state of a unit other than a station: 0 IN_SERVICE, 1 DRAINING, 2 OUT_OF_SERVICE, 3 TESTING. -/
def unitAt (s : State) (kind n : Nat) : Nat := tgetD s.unitState (256 * kind + n) 0

/-- A unit's state changes. -/
def setUnit (s : State) (kind n v : Nat) : State := { s with unitState := nput s.unitState (256 * kind + n) v }

/-- How many units of a kind the configuration has. -/
def unitCount (s : State) : Nat → Nat
  | 1 => s.gelari.stations
  | 2 => s.gelari.initiators
  | 3 => s.gelari.landingPorts
  | 4 => s.gelari.linkPorts
  | _ => 0

/-- The units that attach to a station, each as its kind and number. -/
def attached (s : State) (n : Nat) : List (Nat × Nat) :=
  let at_ := fun (kind : Nat) (l : List Nat) => ((List.range (unitCount s kind)).filter fun k => l[k]? == some n).map (kind, ·)
  at_ 2 s.gelari.attachFerry ++ at_ 3 s.gelari.attachLanding ++ at_ 4 s.gelari.attachLink

/-- Whether an initiator's drain fits: no other is out of service (R592). -/
def initiatorFits (s : State) (mine : List Nat) : Bool :=
  (List.range s.gelari.initiators).all fun j => unitAt s 2 j == 0 || mine.contains j

/-- Whether a service command's action fits its unit's state (R592, R596, R598). DEDUCED (log entry 13) where the manual
does not name the state. -/
def serviceFits (s : State) (kind n action : Nat) : Bool :=
  let st := station s n
  let rest := (gridStations s).filter (· != n)
  let mine := ((attached s n).filter fun u => u.1 == 2).map (·.2)
  if s.power.engineOos || s.power.resetting then false else
  match kind, action with
  | 1, 1 => serving st && rest.all (fun m => serving (station s m)) && initiatorFits s mine
  | 1, 2 => st.state == .fenced
  | 1, 3 => st.state == .fenced
  | 1, 4 => st.state == .fenced && st.objects.isEmpty && st.waiters.isEmpty && st.nodes.isEmpty && (attached s n).all (fun u => unitAt s u.1 u.2 == 2)
      && rest.all (fun m => (station s m).state != .off)
  | 1, 5 => st.state == .off
  | 2, 1 => decide (unitAt s 2 n ≤ 1) && initiatorFits s [n]
  | _, 1 => decide (unitAt s kind n ≤ 1)
  | _, 2 => unitAt s kind n == 2
  | _, 3 => unitAt s kind n == 1 || unitAt s kind n == 2
  | _, _ => false

/-- Whether kind, number and action are defined (R592). -/
def serviceDefined (s : State) (kind n action : Nat) : Bool :=
  1 ≤ kind && kind ≤ 4 && decide (n < unitCount s kind) && 1 ≤ action && (if kind = 1 then action ≤ 5 else action ≤ 3)

/-! ## Ferry initiators (R600) -/

/-- The extents, seqs and work of some indices pass from a slice to another. -/
def transferSlice (s : State) (a b : Nat) (mine : Nat → Bool) : State :=
  let x := sliceAt s a
  let ours := fun (p : Purpose) => match p.index with | some i => mine i | none => false
  let moves := fun (p : Purpose) => match p with
    | .moveRead i _ => mine i
    | .moveWrite i _ => mine i
    | _ => false
  let issued := fun (k : Word × Nat) => x.tags.any fun u => u.xact.purpose == .spill k.1 k.2
  let buf := fun (k : Word × Nat) => mine (Handle.index k.1) && !issued k
  let extents := x.extents.filter fun e => mine e.1
  let again := (extents.filter fun e => e.2.moving && (fnOf s e.2.fn).state == .enabled).map fun e => moveXact e.2.fn e.1 e.2.cursor
  let t := onSlice s a fun l => { l with
    extents := l.extents.filter fun e => !mine e.1
    seqs := l.seqs.filter fun e => !mine e.1
    waiting := l.waiting.filter fun w => !ours w.purpose
    tags := l.tags.map fun u => if moves u.xact.purpose then { u with discard := true } else u
    spillIn := l.spillIn.filter fun k => !mine (Handle.index k.handle)
    spillBufs := l.spillBufs.filter fun k => !buf k }
  onSlice t b fun l => { l with
    extents := extents.foldl (fun m e => tput m e.1 e.2) l.extents
    seqs := (x.seqs.filter fun e => mine e.1).foldl (fun m e => tput m e.1 e.2) l.seqs
    waiting := l.waiting ++ (x.waiting.filter fun w => ours w.purpose && !moves w.purpose) ++ again
    spillIn := l.spillIn ++ x.spillIn.filter fun k => mine (Handle.index k.handle)
    spillBufs := l.spillBufs ++ x.spillBufs.filter buf }

/-- Transactions that belong to no index pass to the deputy, but a capture's. -/
def transferRest (s : State) (a b : Nat) : State :=
  let w := (sliceAt s a).waiting.filter fun x => x.cls != .capture
  onSlice (onSlice s a fun l => { l with waiting := [], capture := none }) b fun l => { l with waiting := l.waiting ++ w }

/-- Whether a seal message about an entry is on the course. -/
def sealBusy (s : State) (buffer entry : Nat) : Bool :=
  let is := fun (r : SealRef) => r.buffer == buffer && r.entry == entry
  s.course.any fun m => match m.body with
    | .sealDeposit r .. => is r
    | .sealRelease r => is r
    | .sealDiscard r => is r
    | _ => false

/-- The counter that holds a seal entry's record, with its home. -/
def sealHolder (s : State) (hi : BitVec 40) (buffer entry : Nat) : Option (Nat × Obj × Landing) :=
  s.stations.findSome? fun p => match tget p.2.objects (hiIndex hi) with
    | some o => match o.body with
      | .landing l =>
        if o.hi = hi ∧ l.seals.any (fun x => x.buffer == buffer && x.entry == entry) then some (p.1, o, l) else none
      | _ => none
    | none => none

/-- The free entry of the same allotment in the nearest other group buffer. -/
def otherEntry (s : State) (buffer entry : Nat) : Option (Nat × Nat) :=
  let a := max 1 (sealShare s)
  let owner := sealOwner s entry
  let free := fun b => ((List.range a).map (a * (entry / a) + ·)).find? fun e =>
    !(station s owner).sealsUsed.contains (256 * b + e)
  let bs := (List.range s.gelari.initiators).filter fun b => b != buffer && groupServes s b && (free b).isSome
  match leastBy (fun b => courseDistance s.gelari (bufferStation s buffer) (bufferStation s b)) bs with
  | some b => (free b).map (b, ·)
  | none => none

/-- A HELD entry of a draining buffer moves, and its record with it; one that finds no free entry waits. -/
def moveSeal (s : State) (k : Nat) (e : SealEntry) : State :=
  let b := k / 256
  let n := k % 256
  if e.state ≠ 1 ∨ sealBusy s b n then s else
  match otherEntry s b n, sealHolder s e.hi b n with
  | some (b', n'), some (home, o, l) =>
    let owner := sealOwner s n
    let seals := l.seals.map fun x => if x.buffer = b ∧ x.entry = n then { x with buffer := b', entry := n' } else x
    let t := setObj s home (hiIndex o.hi) { o with body := .landing { l with seals := seals } }
    let u := onStation t owner fun st => { st with
      sealsUsed := st.sealsUsed.filter (· != 256 * b + n) ++ [256 * b' + n'] }
    { u with seals := tput (tdel u.seals k) (256 * b' + n') { e with owner := b' } }
  | _, _ => s

/-- Every HELD entry of a group buffer that can move does. -/
def moveSeals (s : State) (j : Nat) : State :=
  (s.seals.filter fun p => p.1 / 256 == j).foldl (fun t p => moveSeal t p.1 p.2) s

/-- Whether a station still holds a report that holds a landing port's credit. -/
def reportsHeld (s : State) (n : Nat) : Bool :=
  s.stations.any fun p => p.2.heldReports.any fun r => r.port == some (.landing n)

/-- A unit's drain begins (R600 to R602). A landing port is DRAINING while its attach station holds a report of it that cannot be
forwarded yet; a link port acts as if kpn_ready had fallen. -/
def drainUnit (s : State) (kind n : Nat) : State :=
  match kind with
  | 2 =>
    let t := setUnit s 2 n 1
    let d := deputyOf t n
    if d = n then t else moveSeals (transferRest (transferSlice t n d fun _ => true) n d) n
  | 3 => setUnit s 3 n (if reportsHeld s n then 1 else 2)
  | _ =>
    let l := linkAt s n
    let ready := l.ready
    setUnit (onLink (linkFalls s n) n fun x => { x with ready := ready }) 4 n 2

/-- Whether a draining initiator has nothing left: no tag, no seal entry in its group buffer. -/
def initiatorQuiet (s : State) (j : Nat) : Bool :=
  (sliceAt s j).tags.isEmpty && (xiAt s j).sealsOut.isEmpty && (xiAt s j).sealsWait.isEmpty &&
  s.seals.all fun p => p.1 / 256 != j

/-- A unit's drain goes on. -/
def drainGoes (s : State) (kind n : Nat) : State :=
  if kind = 2 ∧ unitAt s 2 n = 1 then
    let t := moveSeals s n
    if initiatorQuiet t n then setUnit t 2 n 2 else t
  else if kind = 3 ∧ unitAt s 3 n = 1 ∧ !reportsHeld s n then setUnit s 3 n 2
  else s

/-- A unit returns to service (R600 to R602, R533): a link port returns the receive credits that it has withheld. -/
def unitReturns (s : State) (kind n : Nat) : State :=
  match kind with
  | 2 => transferSlice (setUnit s 2 n 0) (deputyOf s n) n fun i => i % max 1 s.gelari.initiators == n
  | 3 => (List.range s.gelari.lpCredits).foldl (fun t _ => returnReportCredit t (.landing n)) (setUnit s 3 n 0)
  | _ =>
    let l := linkAt s n
    let owed := { l with owedFlits := 0, owedReports := 0 }
    let t := drive (setLink (setUnit s 4 n 0) n owed)
      (List.replicate l.owedFlits (.credit (.kpReceive n)) ++ List.replicate l.owedReports (.reportCredit (.link n)))
    if l.ready then linkRises (setLink t n { owed with ready := false }) n else t

/-! ## Entry stations (R593 to R596) -/

/-- The slots of entry_map that name a station, among those that a test accepts. -/
def entrySlots (s : State) (n : Nat) : List Nat := (List.range 2112).filter fun k => rget s.maps.entry k == some n

/-- The slots that a station gives back as it returns: those that Gelari gave it. -/
def homeSlots (s : State) (n m : Nat) : List Nat :=
  (entrySlots s n).filter fun k => rget s.gelari.maps.entry k == some m

/-- The substitute of a station to be drained (R593). -/
def chooseSubstitute (s : State) (n : Nat) : Option Nat :=
  match tget s.substitute n with
  | some b => some b
  | none =>
    let spare := fun m => (station s m).state != .absent && !s.substitute.any fun p => p.2 == m
    match ([64, 65] : List Nat).find? spare with
    | some m => some m
    | none =>
      let slots := entrySlots s n
      let cost := fun m => if slots.isEmpty then courseDistance s.gelari n m
        else (slots.map fun k => distanceOf s (siteOf s k) m).sum
      leastBy cost ((gridStations s).filter fun m => m != n && serving (station s m))

/-- The roles other than entry pass from a station to another: the seal allotment's entries in use and the digest's
subscribers, to whom every block with a load that is not zero is due (R331). -/
def moveRoles (s : State) (a b n : Nat) : State :=
  let share := max 1 (sealShare s)
  let ours := fun (k : Nat) => k % 256 / share == n
  let x := station s a
  let t := onStation s a fun st => { st with sealsUsed := st.sealsUsed.filter fun k => !ours k }
  onStation t b fun st =>
    let gained := x.subscribers.filter fun k => k != b && !st.subscribers.contains k
    let blocks := st.loads.map fun p => p.1 / 128
    { st with
      sealsUsed := st.sealsUsed ++ x.sealsUsed.filter ours
      subscribers := st.subscribers ++ gained
      digestDue := gained.foldl (fun d k => blocks.foldl (fun e i => dueBlock e k i) d) st.digestDue }

/-- The waits of the agents in some slots are withdrawn and end with RETRY (V3). -/
def withdrawAgents (s : State) (n : Nat) (slots : List Nat) : State :=
  ((station s n).waiters.filter fun w => slots.contains (agentSlot w.agent)).foldl (fun t w =>
    match w.phase, w.place with
    | .joined, .eddy _ _ =>
      let w' := { w with phase := .withdrawing, ended := some (plain .retry) }
      sendWithdrawal (setWaiter t n w') n w'
    | .joined, _ => endWait t n w (plain .retry)
    | .pending, .listener _ _ => purgeWait t n w .retry
    | _, _ => t) s

/-- Whether every operation of some agents has been taken, every wait of theirs has ended, and every beat pushed to them has returned its credit. -/
def agentsQuiet (s : State) (n : Nat) (slots : List Nat) : Bool :=
  let st := station s n
  (st.waiters.all fun w => !slots.contains (agentSlot w.agent) || w.phase == .ended) &&
  ((st.budget.map (·.2) ++ st.excess).all fun x => !slots.contains (agentSlot x.agent)) &&
  (st.pushUsed.all fun p => !slots.contains (agentSlot p.1)) &&
  st.nodes.all fun p => treeQuiet s p.2.hi

/-- A node of a member follows the agents in some slots from a station to another, which merges it into its own. A
station that stays a member or home keeps what the node has merged (DEDUCED, log entry 12). -/
def moveNode (s : State) (a b index : Nat) (x : Node) (slots : List Nat) : State :=
  let mine := fun (k : Nat) => slots.contains (agentSlot k)
  let stays := x.role == 2 || (memberStations s x.params.parts).contains a
  let y : Node := if stays then { newNode s x.hi x.params x.home b x.open_ with
      broken := x.broken, lost := x.lost, failed := x.failed, keeperLost := x.keeperLost, hintEnable := x.hintEnable, overdueFc := x.overdueFc
      lastResult := x.lastResult, bank0 := x.bank0.part mine, bank1 := x.bank1.part mine } else x
  let t := if stays then
      putNode s a index { x with
        bank0 := { x.bank0 with arrived := x.bank0.arrived.filter fun k => !mine k }
        bank1 := { x.bank1 with arrived := x.bank1.arrived.filter fun k => !mine k } }
    else dropNode s a index
  if y.bank0.arrived.isEmpty && y.bank1.arrived.isEmpty && stays && !(memberStations s x.params.parts).contains b then t
  else match nodeAt t b index with
    | some z =>
      if z.role = 0 then putNode t b index y
      else putNode t b index { z with
        bank0 := mergeBank x.params z.bank0 y.bank0, bank1 := mergeBank x.params z.bank1 y.bank1
        segments := z.segments ++ y.segments }
    | none => putNode t b index y

/-- A listener node follows, unless the station has a node of the weir already; its home sends completions there. -/
def moveListener (s : State) (a b index : Nat) (x : Node) : State :=
  let t := dropNode s a index
  let home := homeOf t a index
  let known := (nodeAt t b index).isSome
  let u := match weirAt t home index with
    | some (o, w) => if o.hi ≠ x.hi then t else setObj t home index { o with body := .weir { w with
        listeners := (w.listeners.filter (· != a)) ++ (if known || w.listeners.contains b then [] else [b]) } }
    | none => t
  if known then u else putNode u b index x

/-- Whether a station keeps within its records and slots, and every function within its slot limit there (R71, R214). -/
def nodesFit (s : State) (n : Nat) : Bool :=
  let st := station s n
  recordsUsed st ≤ 2048 && slotsHere st ≤ 128 &&
  st.nodes.all fun p => !p.2.slot || slotsUsed st (hiFn p.2.hi) ≤ fnSetting s (hiFn p.2.hi) 0x0D

/-- The entry role of some agents passes from a station to another (V3): entry_map, nodes, loads, and the messages ready for
those agents; each weir's home sends setup, and entry_moved is raised. -/
def moveEntry (s : State) (a b : Nat) (slots : List Nat) : State :=
  let mine := fun (k : Nat) => slots.contains (agentSlot k)
  let nodes := (station s a).nodes
  let s1 := { s with maps := { s.maps with entry := slots.foldl (fun m k => rput m k b) s.maps.entry } }
  let touched := nodes.filter fun p => p.2.role != 0 && p.2.params.parts.agents.any mine
  let s2 := touched.foldl (fun t p => moveNode t a b p.1 p.2 slots) s1
  let listens := nodes.filter fun p => p.2.role == 0 && !p.2.pendingReply &&
    !((station s a).waiters.any fun w => !mine w.agent && w.onWeir p.1 p.2.hi)
  let s3 := listens.foldl (fun t p => moveListener t a b p.1 p.2) s2
  let s4 := touched.foldl (fun t p =>
    let home := homeOf t p.2.home p.1
    let u := rewire t home p.2.hi
    broadcast u home (.setup (issue u p.2.hi 0) p.2.params home true)) s3
  let x := station s4 a
  let s5 := onStation s4 a fun st => { st with
    waiters := st.waiters.filter fun w => !mine w.agent
    ready := st.ready.filter fun m => !mine m.agent
    pushSeq := st.pushSeq.filter fun p => !mine p.1
    loads := st.loads.filter fun p => !mine p.1 }
  let s6 := onStation s5 b fun st => { st with
    ready := st.ready ++ (x.ready.filter fun m => mine m.agent).map fun m => { m with wait := none }
    pushSeq := (x.pushSeq.filter fun p => mine p.1).foldl (fun t p => tput t p.1 p.2) st.pushSeq }
  let s7 := (x.loads.filter fun p => mine p.1).foldl (fun t p => setLoad t b p.1 p.2) s6
  raise s7 0x75 (generic a b 0 0 b)

/-! ## Objects (V4) -/

/-- The order in which objects leave: weirs, then the rest, then keepers; lower indices first. -/
def leaveOrder (o : Obj) : Nat :=
  (match o.body with | .weir _ => 0 | .keeper _ => 2 | _ => 1) * 16384 + hiIndex o.hi

/-- Whether an object can leave its station now: no job, no shadow record unanswered, and a keeper's weir has left (R353). The
objects of a function that drains do not leave: its drain resolves their migrations and then destroys them (R457; DEDUCED, log
entry 80). -/
def canLeave (s : State) (n : Nat) (o : Obj) : Bool :=
  (jobOf s n o.hi).isNone && !holdsFor (station s n) o.hi && (fnOf s (hiFn o.hi)).state == .enabled &&
  match o.body with
  | .keeper k => (objAt s n (hiIndex k.weirHi)).isNone
  | _ => true

/-- The cost of a home for an object that leaves a drained station (R341, R344): a weir and a keeper by the weir's
participants, a rule by its own rule. What else a creation measured, a placement hint or the creator's station, no object
holds: the course distance from the substitute takes its place (DESIGN CHOICE, log entry 76). -/
def leaveCost (s : State) (n b : Nat) (o : Obj) (k : Nat) : Nat :=
  match o.body with
  | .weir w => weirCost s w.params.parts k
  | .rule r => ruleCost s n r k
  | _ => courseDistance s.gelari b k

/-- What an object takes at the station that it leaves for: a keeper's weir leaves room for its keeper, which follows it
(R353). -/
def leaveTakes (s : State) (n : Nat) (o : Obj) : Takes :=
  let t := takesOf s n o
  match o.body with
  | .weir w => match w.params.keeper.bind fun k => objAt s n (hiIndex k.1) with
    | some k => { t with objects := t.objects + 1, records := t.records + k.records }
    | none => t
  | _ => t

/-- Where an object that leaves a drained station goes: a keeper to its weir, where it waits for room (R353), any other to
the station of least cost, the drained station excluded. -/
def leaveTarget (s : State) (n b : Nat) (o : Obj) : Option Nat :=
  match o.body with
  | .keeper k =>
    let m := homeOf s n (hiIndex k.weirHi)
    if holds s m (takesOf s n o) then some m else none
  | _ => chooseHome s (fun _ => leaveTakes s n o) (leaveCost s n b o)

/-- The next object of a station in step V4 starts to move to its target. -/
def servicePump (s : State) : State :=
  match s.service with
  | some v =>
    if v.kind = 1 ∧ v.action = 1 ∧ v.step = 4 ∧ (station s v.number).outgoing.isNone then
      let n := v.number
      match tget s.substitute n, leastBy leaveOrder (((station s n).objects.map (·.2)).filter (canLeave s n)) with
      | some b, some o =>
        match leaveTarget s n b o with
        | some m => if (station s m).incoming.isNone then startMigration s n o m true else s
        | none => s
      | _, _ => s
    else s
  | none => s

/-! ## Commands and steps (R592, R594, R596, R598) -/

/-- service_state: the command, its step and its result. -/
def setProgress (s : State) (v : Service) (result : Nat) : State :=
  setSetting s 0x411001 (v.kind + 2 ^ 8 * v.number + 2 ^ 16 * v.action + 2 ^ 32 * v.step + 2 ^ 40 * result)

/-- A step of a command begins: its number and time limit. -/
def putStep (s : State) (v : Service) (step : Nat) : State :=
  let w := { v with step := step, due := s.now + setting s 0x411002 }
  setProgress { s with service := some w } w 0

/-- A command ends done. -/
def serviceEnds (s : State) (v : Service) : State :=
  raise (setProgress { s with service := none } v 1) 0x73 (generic (v.kind + 2 ^ 8 * v.number + 2 ^ 16 * v.action) 0 0 0 0)

/-- A command fails in its step; a drain that the engine started ends with an engine reset (R597). A unit under test goes
back out of service. -/
def serviceFails (s : State) (v : Service) : State :=
  let t := if v.action ≠ 2 then s
    else if v.kind = 1 then onStation s v.number fun st => { st with state := .fenced } else setUnit s v.kind v.number 2
  let u := raise (setProgress { t with service := none } v 2) 0x74
    (generic (v.kind + 2 ^ 8 * v.number + 2 ^ 16 * v.action) v.step 0 0 0)
  if v.auto then engineResets u else u

/-- How many copy segments a station's roles take: one, and one more for each 32 indices of its keeper's lists (DESIGN CHOICE,
log entry 80: R594 gives no count). -/
def roleSegments (s : State) (n : Nat) : Nat :=
  let k := keeperAt s n
  1 + (k.head.length + k.tail.length + 31) / 32

/-- Step V2 (R594): once the substitute is on it is ACTIVE, and the roles other than entry leave for it in copy segments. -/
def sendRoles (s : State) (v : Service) : State :=
  let n := v.number
  if v.roles ≠ 0 then s else
  match tget s.substitute n, chooseSubstitute s n with
  | some _, _ => { s with service := some { v with roles := 2 } }
  | none, some b =>
    let st := station s b
    if (serving st || (st.state == .fenced && !st.isolated)) && s.power.fcAck then
      let t := onStation s b fun x => { x with state := if serving x then x.state else .active }
      let last := roleSegments s n - 1
      sendAll { t with service := some { v with roles := 1 } } n
        ((List.range (last + 1)).map fun k => (b, .roles n k last))
    else s
  | none, none => s

/-- The last segment of a drained station's roles reaches the substitute: it has them from now on, and says so. -/
def rolesArrive (s : State) (b n segment last : Nat) : State :=
  match s.service with
  | some v =>
    if segment = last ∧ v.kind = 1 ∧ v.action = 1 ∧ v.step = 2 ∧ v.number = n ∧ v.roles = 1 then
      send (moveRoles { s with substitute := tput s.substitute n b } n b n) b n (.rolesTaken n)
    else s
  | none => s

/-- The substitute's acknowledgement reaches the drained station. -/
def rolesAcked (s : State) (n : Nat) : State :=
  match s.service with
  | some v =>
    if v.kind = 1 ∧ v.action = 1 ∧ v.step = 2 ∧ v.number = n ∧ v.roles = 1 then { s with service := some { v with roles := 2 } }
    else s
  | none => s

/-- What a step does as it begins. -/
def beginStep (s : State) (v : Service) (step : Nat) : State :=
  let n := v.number
  let t := putStep s v step
  match v.kind, v.action, step with
  | 1, 1, 1 => (attached t n).foldl (fun u k => if unitAt u k.1 k.2 = 0 then drainUnit u k.1 k.2 else u) (wakeStation t n)
  | 1, 1, 2 =>
    let u := match chooseSubstitute t n with
      | some b => if 64 ≤ b ∧ (station t b).state = StationState.off then wantDomain t b else t
      | none => t
    match u.service with | some w => sendRoles u w | none => u
  | 1, 1, 3 => withdrawAgents t n (entrySlots t n)
  | 1, 2, _ => onStation t n fun st => { clearStation st .reset with isolated := st.isolated }
  | 1, 3, 1 => if t.power.pdReq.contains n then domainStores t n else wantDomain t n
  | 1, 3, 2 => match tget t.substitute n with
    | some b => withdrawAgents t b (homeSlots t b n)
    | none => t
  | 1, 4, _ => dropDomain t n
  | 1, 5, _ => wantDomain t n
  | 1, _, _ => t
  | _, 1, _ => drainUnit t v.kind n
  | _, 2, _ => setUnit t v.kind n 3
  | _, _, _ => unitReturns t v.kind n

/-- The first spare that holds no object and no role is switched off (R596). -/
def spareIdle (s : State) (m : Nat) : Bool :=
  let st := station s m
  serving st && !(s.substitute.any fun p => p.2 == m) && st.objects.isEmpty && st.waiters.isEmpty && st.nodes.isEmpty &&
  st.incoming.isNone && st.outgoing.isNone && st.openOps.isEmpty && st.ready.isEmpty

/-- A station that stops serving is FENCED; one that dozes wakes first, for what waits in its receive buffer (R571). -/
def fenceStation (s : State) (n : Nat) : State := onStation (wakeStation s n) n fun st => { st with state := .fenced }

/-- Spares that nothing needs any more are FENCED and switched off (R596), but while a service command runs. -/
def sparesRest (s : State) : State :=
  if s.service.isSome then s else
  ([64, 65] : List Nat).foldl (fun t m => if spareIdle t m then dropDomain (fenceStation t m) m else t) s

/-- A station's entry role passes to its substitute, once its agents are quiet and where the substitute has room for their
nodes (R214; log entry 68); waits that have joined since are withdrawn first. -/
def entryPasses (s : State) (a b : Nat) (slots : List Nat) : Option State × State :=
  let t := withdrawAgents s a slots
  let u := moveEntry t a b slots
  if agentsQuiet t a slots ∧ nodesFit u b then (some u, t) else (none, t)

/-- A station that returns is ACTIVE, and its substitute has no role of its any more. -/
def stationReturns (s : State) (n : Nat) : State :=
  let t := match tget s.substitute n with
    | some b => { moveRoles s b n n with substitute := tdel s.substitute n }
    | none => s
  onStation t n fun st => { st with state := .active, isolated := false, idleSince := t.clock.fc }

/-- Whether a drained station holds nothing. -/
def stationEmpty (st : Station) : Bool :=
  st.objects.isEmpty && st.outgoing.isNone && st.jobs.isEmpty && st.openOps.isEmpty && st.budget.isEmpty && st.excess.isEmpty &&
  st.waiters.isEmpty

/-- A step of the running command is done, where its condition holds: the next step begins, or the command ends. Without the fast
clock no step is done (R560). -/
def stepDone (s : State) (failing : Nat) : State :=
  match s.service with
  | none => s
  | some v =>
    if !s.power.fcAck then s else
    let n := v.number
    let next := fun (t : State) => beginStep t v (v.step + 1)
    match v.kind, v.action, v.step with
    | 1, 1, 1 =>
      let t := (attached s n).foldl (fun u k => drainGoes u k.1 k.2) s
      if (attached t n).all fun k => unitAt t k.1 k.2 == 2 then next t else t
    | 1, 1, 2 => if v.roles = 2 then next s else sendRoles s v
    | 1, 1, 3 => match tget s.substitute n with
      | some b => match entryPasses s n b (entrySlots s n) with
        | (some t, _) => servicePump (next t)
        | (none, t) => t
      | none => s
    | 1, 1, 4 => if stationEmpty (station s n) then next s else servicePump s
    | 1, 1, _ => serviceEnds (fenceStation s n) v
    | 1, 2, _ =>
      serviceEnds (setSetting (onStation s n fun st => { st with state := .fenced }) 0x411400
        (1 + 2 ^ 8 * n + 2 ^ 16 * (if failing = 0 then 1 else 2) + 2 ^ 24 * failing)) v
    | 1, 3, 1 => if (station s n).state = .fenced ∧ !(station s n).isolated then next s else s
    | 1, 3, 2 => match tget s.substitute n with
      | some b => match entryPasses s b n (homeSlots s b n) with
        | (some t, _) => next t
        | (none, t) => t
      | none => next s
    | 1, 3, _ => serviceEnds (stationReturns s n) v
    | 1, 4, _ => if (station s n).state = .off then serviceEnds s v else s
    | 1, _, _ => if (station s n).state = .fenced then serviceEnds s v else s
    | k, 1, _ =>
      let t := drainGoes s k n
      if unitAt t k n = 2 then serviceEnds t v else t
    | k, 2, _ =>
      serviceEnds (setSetting (setUnit s k n 2) 0x411400
        (k + 2 ^ 8 * n + 2 ^ 16 * (if failing = 0 then 1 else 2) + 2 ^ 24 * failing)) v
    | _, _, _ => serviceEnds s v

/-- service_step_timeout_ac passes in a step: the command fails. -/
def stepTimesOut (s : State) : State :=
  match s.service with
  | some v => serviceFails (passToAc s v.due) v
  | none => s

/-- A service command begins. -/
def startService (s : State) (kind n action : Nat) (auto : Bool) : State :=
  beginStep s ⟨kind, n, action, 1, auto, 0, 0⟩ 1

/-- Whether the running command waits for a power domain. -/
def serviceAwaits (v : Service) (n : Nat) : Bool :=
  v.kind == 1 && ((v.number == n && (v.action == 4 || v.action == 5 || (v.action == 3 && v.step == 1))) ||
    (v.action == 1 && v.step == 2 && 64 ≤ n))

/-- A domain handshake's time limit passes; a command that waits for it fails. -/
def domainFails (s : State) (n : Nat) : State :=
  if !handshakeOpen s n then s
  else
    let t := domainTimesOut s n
    match t.service with
    | some v => if serviceAwaits v n then serviceFails t v else t
    | none => t

/-- A request has waited towpath_hold_fc at a dozing station (R531, R572): the towpath answers it. Every later wait is a
wake fault, and the station's drain starts at once (R597). -/
def holdExpires (s : State) (n : Nat) : State :=
  let st := station s n
  if st.state ≠ .dozing ∨ st.rx.isEmpty then s
  else
    let first := st.holdPassed
    let s1 := st.rx.foldl towpathTakes (passToFc s st.holdUntil)
    let s2 := onStation s1 n fun x => { x with rx := [], holdPassed := true }
    if !first then s2
    else
      let s3 := bump s2 0x210404
      let s4 := raise s3 0x6A (generic (setting s3 0x210404) 0 0 0 n)
      { s4 with drainsOwed := if s4.drainsOwed.contains n then s4.drainsOwed else s4.drainsOwed ++ [n] }

/-- The drain of a station after its wake fault starts as soon as no service command runs and the drain fits (R592, R597); a
station that has stopped serving needs none. -/
def startOwed (s : State) : State :=
  if s.service.isSome then s else
  let owed := s.drainsOwed.filter fun n => serving (station s n)
  match owed.find? fun n => serviceFits s 1 n 1 with
  | some n => startService { s with drainsOwed := owed.filter (· != n) } 1 n 1 true
  | none => { s with drainsOwed := owed }

/-! ## The end of a command -/

/-- The state in which a step ends: what the engine does of itself has been done, and a service command's next object has
started to move; spares that nothing needs are switched off, a drain that a wake fault owes starts, and under the clamp every
output is idle. -/
def settled (s : State) : State :=
  let t := match s.service with
    | none => finish s
    | some _ => finish (servicePump (finish s))
  let u := sparesRest t
  let v := if u.drainsOwed.isEmpty then u else
    let w := startOwed u
    if w.service.isSome then finish w else w
  closing (if v.power.clamp && v.power.phase == 0 then idleOutputs v else v)

/-- What a command's meaning answers: the step's end. -/
def conclude (s : State) : Host.Outcome State Fault Refusal := .next (settled s)

end Sys2Proof.Machine
end

