-- ==== Sys2Proof/Machine/Integrity.lean ====
section
/-!
DEFINITION. Integrity and telemetry (R584 to R591, R605 to R607): what a scrub finds, failed waits, course replays, restarts
of the management controller, calibration and histograms.
-/

namespace Sys2Proof.Machine

/-! ## A failed waiter record (R589) -/

/-- A wake of a failed record that has not been pushed: its cookie and handle are gone. -/
def PushMsg.fail (m : PushMsg) : PushMsg := { m with cookie := 0, handle := 0, value := 0, status := .integrity, invalidate := false }

/-- What has been granted to a wait that has ended goes back to its home (R589). -/
def returnTaken (s : State) (n : Nat) (w : Waiter) : State :=
  match w.granted, w.ended with
  | some amount, _ => returnGrant s n w.handle amount w.agent
  | none, some i => if w.opcode = .qPop ∧ i.status.good then returnPop s n w.handle i w.agent else s
  | none, none => s

/-- A wait whose record fails is withdrawn from its eddy and ends with INTEGRITY; one at a weir ends at once. One that a grant
has covered already ends so too, and the grant goes back. -/
def waitFails (s : State) (n : Nat) (w : Waiter) : State :=
  if w.failed then s
  else
    let x := { w with failed := true, opTag := 0, cookie := 0 }
    match w.phase, w.place with
    | .joined, .eddy _ _ =>
      let y := { x with phase := .withdrawing }
      sendWithdrawal (setWaiter s n y) n y
    | .joined, _ => endWait s n x (plain .integrity)
    | .pending, .eddy _ _ => sendWithdrawal (setWaiter s n x) n x
    | .pending, _ => purgeWait s n x .integrity
    | .withdrawing, _ => setWaiter s n x
    | .ended, _ =>
      let y := { x with granted := none, ended := w.ended.map fun _ => plain .integrity }
      onStation (setWaiter (returnTaken s n w) n y) n fun st => { st with
        ready := st.ready.map fun m => if m.wait = some w.id then m.fail else m }

/-! ## Uncorrectable rows (R587, Table 18.3) -/

/-- What a row of a station's waiter records, windows and slots belongs to. DESIGN CHOICE (log entry 38): rows 0 to 2,047
are waiter records, 2,048 to 2,303 windows, 2,304 on slots, placed as a capture places them. -/
def rowOwner (st : Station) (row : Nat) : Option (BitVec 40) :=
  let hiOf := fun (index : Nat) => (tget st.objects index).map Obj.hi
  let nodeOf := fun (index : Nat) => (tget st.nodes index).map Node.hi
  if row < 2048 then
    match (st.objects.find? fun p => p.2.body.eddies.any fun e => e.ref == row / 4) with
    | some p => some p.2.hi
    | none =>
      let rec_ := (recItems st).find? fun i =>
        let first := placeOf (recPlaces st) i.1
        first ≤ row && row < first + i.2.1
      match rec_ with
      | some (.node i, _) => nodeOf i
      | some (.map i, _) => nodeOf i
      | some (.overflow i, _) => nodeOf i
      | some (.sys i, _) => nodeOf i
      | some (.seal_ i _, _) => hiOf i
      | some (.watch i _, _) => hiOf i
      | some (.ext i, _) => hiOf i
      | some (.group i, _) => hiOf i
      | _ => none
  else if row < 2304 then ((queuesOf st)[(row - 2048) / 2]?).map fun p => p.1.hi
  else ((st.nodes.filter fun p => p.2.slot)[row - 2304]?).map fun p => p.2.hi

/-- The wait whose record is a row. -/
def rowWait (st : Station) (row : Nat) : Option Waiter :=
  st.waiters.find? fun w => placeOf (recPlaces st) (.wait w.id) == row

/-- mem_uncorrectable (Table 18.4). -/
def memRecord (h : Word) (fn unit store row action : Nat) : BitVec 256 :=
  BitVec.ofNat 256 (field 64 192 h.toNat + field 12 180 fn + field 7 173 unit + field 5 168 store + field 16 152 row
    + field 8 144 action)

/-- A row handled under Table 18.3 is counted and reported. -/
def report (s : State) (hi : Option (BitVec 40)) (fn unit f row action : Nat) : State :=
  let h : Word := match hi with | some x => issue s x 0 | none => 0
  raise (bump s 0x410206) 0x71 (memRecord h (match hi with | some x => hiFn x | none => fn) unit f row action)

/-- An object fails wherever its home is (R588). -/
def failHi (s : State) (n : Nat) (hi : BitVec 40) : State :=
  let home := homeOf s n (hiIndex hi)
  match objAt s home (hiIndex hi) with
  | some o => if o.hi = hi then homeStep s home hi fun t => failObj t home (hiIndex hi) else s
  | none => s

/-- A seal entry is discarded as under Table 7.9; its held-seal record goes with it. -/
def sealFails (s : State) (k : Nat) (e : SealEntry) : State :=
  let t := match sealHolder s e.hi (k / 256) (k % 256) with
    | some (home, o, l) => setObj s home (hiIndex o.hi) { o with body := .landing { l with
        seals := l.seals.filter fun x => !(x.buffer == k / 256 && x.entry == k % 256) } }
    | none => s
  sealDropped t ⟨e.hi, e.xgen, k / 256, k % 256⟩

/-- The queue of an index enters FAULT at a block (R279). -/
def faultQueue (s : State) (n index b : Nat) : State :=
  let home := homeOf s n index
  match objAt s home index with
  | some o => match o.body with
    | .queue q => if q.faultAt.isSome then s else homeStep s home o.hi fun t => queueFault t home o q b
    | _ => s
  | none => s

/-- A function is drained as by an owner's disable. -/
def disableFn (s : State) (f : Nat) : State := if (fnOf s f).state = .enabled then beginDrain s f false else s

/-! ## Attribution words (R587) -/

/-- The identity word of an object entry: bits 63:24 of the handle. -/
def identityWord (o : Obj) : BitVec 40 := o.hi

/-- What an owner word holds: the owning object's function and index, a wait's agent, xtag and hold bit, and the home and the
reference of a member's eddy. DEDUCED (log entry 54): the word repeats what its row says, and so is no state of its own. -/
structure OwnerWord where
  fn       : Nat
  index    : Nat
  agent    : Nat
  xtag     : BitVec 12
  hold     : Bool
  eddyHome : Nat
  eddyRef  : Nat
  deriving DecidableEq, Repr

/-- The owner word of a row that belongs to an object. -/
def objectOwner (hi : BitVec 40) : OwnerWord := ⟨hiFn hi, hiIndex hi, 0, 0, false, 0, 0⟩

/-- The owner word of a wait. -/
def waitOwner (w : Waiter) : OwnerWord :=
  let (home, ref) := match w.place with | .eddy home ref => (home, ref) | _ => (0, 0)
  ⟨Handle.fn w.handle, Handle.index w.handle, w.agent, (match w.reply with | .port _ _ x => x | _ => 0), w.hold, home, ref⟩

/-! ## Rewritten rows (codes 4 to 6 of Table 18.3) -/

/-- A row of the chart replica, 16 entries of 16 bits (Table 1.2, R574), is refetched from the lowest-numbered serving
neighbour, and with it the commits that are still on their way there (DEDUCED, log entry 82). -/
def chartRefetched (s : State) (n row : Nat) : State :=
  match servingNeighbour s n with
  | some m =>
    let t := (List.range 16).foldl (fun t k => chartSet t n (16 * row + k) (chartAt t m (16 * row + k))) s
    { t with course := t.course ++ (lateWrites t n m).filter fun x => match x.body with | .beaconUpdate .. => false | _ => true }
  | none => s

/-- The home's copy of a beacon word: a slot's value, or the open epoch of the weir that publishes it. -/
def homeWord (s : State) (w : Nat) : Option Word :=
  s.stations.findSome? fun p => p.2.objects.findSome? fun o => match o.2.body with
    | .beacon b => if b.word = w then some b.value else none
    | .weir x => if x.params.publish = some w then some (BitVec.ofNat 64 x.openEpoch.toNat) else none
    | _ => none

/-- A row of the beacon page, four words of 64 bits (R574), is rewritten from the homes' copies; a word that nothing holds
reads 0. -/
def beaconRewritten (s : State) (n row : Nat) : State :=
  (List.range 4).foldl (fun t k => setBeacon t n (4 * row + k) ((homeWord t (4 * row + k)).getD 0)) s

/-- An uncorrectable row in a station. The function state table (code 5) is rewritten from the control station's own, which is
the one that the model holds. A block of the load mirror is 128 loads of 4 bits, two rows (R331, R574). -/
def stationRow (s : State) (n store row : Nat) : State :=
  let st := station s n
  match store with
  | 1 => match st.objects[row]? with
    | some p => failHi (report s (some p.2.hi) 0 n 1 row 1) n p.2.hi
    | none => report s none 0 n 1 row 1
  | 2 => match rowOwner st row with
    | some hi => failHi (report s (some hi) 0 n 2 row 1) n hi
    | none => report s none 0 n 2 row 1
  | 3 => match rowWait st row with
    | some w => waitFails (report s (some (Handle.hi w.handle)) 0 n 3 row 2) n w
    | none => report s none 0 n 3 row 2
  | 4 => chartRefetched (report s none 0 n 4 row 3) n row
  | 6 => beaconRewritten (report s none 0 n 6 row 3) n row
  | 7 => report (onStation s n fun x => { x with mirror := x.mirror.filter fun p => p.1 / 128 != row / 2 }) none 0 n 7 row 3
  | 8 => match (s.seals.filter fun p => bufferStation s (p.1 / 256) == n)[row]? with
    | some (k, e) => sealFails (report s (some e.hi) 0 n 8 row 4) k e
    | none => report s none 0 n 8 row 4
  | k => report s none 0 n k row 3

/-- The refills that a slice has issued (DESIGN CHOICE, log entry 38: one whose data the cipher lane may hold is an issued
refill, its rows after those of the spill buffers). -/
def Slice.refills (l : Slice) : List (Word × Nat) :=
  l.tags.filterMap fun t => match t.xact.purpose with | .refill h b _ _ => some (h, b) | _ => none

/-- An uncorrectable row in a ferry slice; the record names the slice's station. -/
def sliceRow (s : State) (j store row : Nat) : State :=
  let l := sliceAt s j
  let n := sliceStation s j
  match store with
  | 9 => match l.spillBufs[row]? with
    | some (h, b) =>
      let t := onSlice (report s (some (Handle.hi h)) 0 n 9 row 5) j fun x => { x with
        spillBufs := x.spillBufs.filter (· != (h, b))
        waiting := x.waiting.filter fun w => w.purpose != .spill h b }
      faultQueue t n (Handle.index h) b
    | none => match l.refills[row - l.spillBufs.length]? with
      | some (h, b) => faultQueue (report s (some (Handle.hi h)) 0 n 9 row 5) n (Handle.index h) b
      | none => report s none 0 n 9 row 5
  | _ => match l.extents[row]? with
    | some (i, e) =>
      let t := onSlice (report s (some (handleHi e.fn e.gen 4 i)) 0 n 10 row 5) j fun x => { x with
        seqs := tput x.seqs i (2 ^ 50 - 1) }
      faultQueue t n i 0
    | none => report s none 0 n 10 row 5

/-- The station whose domain holds a unit (R563): 127 for the control station. -/
def unitStation (s : State) (unit : Nat) : Nat := if 66 ≤ unit ∧ unit ≠ 127 then sliceStation s (unit - 66) else unit

/-- An uncorrectable row (Table 18.3): one whose attribution word is uncorrectable too is of store 13. -/
def uncorrectable (s : State) (f : RowFinding) : State :=
  let unit := unitStation s f.unit
  let store := if f.attributionBad then 13 else f.store
  if 12 ≤ store then engineResets (report s none 0 unit store f.row 7)
  else if f.store = 11 then disableFn (report s none f.row unit 11 f.row 6) f.row
  else if f.store = 9 ∨ f.store = 10 then sliceRow s (f.unit - 66) f.store f.row
  else stationRow s f.unit f.store f.row

/-- What a scrub read, an access or a parity check finds (R582, R584, R586, R587): `unit` is a station, 66 + j for slice j, or
127 for the control station. A flit that a router cannot correct is replayed (R590) and is no finding. Byte parity corrects
nothing; a transfer of the always-on control bus that fails it is sent once more, and its second failure is an uncorrectable
error of the control station. -/
def foundRow (s : State) (f : RowFinding) : State :=
  match f.source with
  | .bus => if f.corrected then s else uncorrectable s { f with unit := 127, store := 12, attributionBad := false }
  | .parity => uncorrectable s f
  | .course => if f.corrected then countCorrected s 2 else s
  | .scrub | .access => if f.corrected then countCorrected s (if f.unit = 127 then 4 else 1) else uncorrectable s f

/-- Whether a unit reads its rows: the control station does from power-up on, a station or slice while it is clocked. -/
def unitClocked (s : State) (unit : Nat) : Bool :=
  let st := (station s (unitStation s unit)).state
  s.power.phase == 0 && (unit == 127 || (portsLive s && st != .off && st != .absent))

/-- Whether a finding is of the unit, and of its scrubber only while scrub_enable is TRUE (R584). -/
def heeded (s : State) (unit : Nat) (f : RowFinding) : Bool :=
  f.unit == unit && (f.source != .scrub || setting s 0x410100 != 0)

/-- A scrub burst wakes a dozing station as background work, and the station dozes again after it (R570, R585): the time that
it has dozed is counted, and a wake. -/
def burstWakes (s : State) (unit : Nat) : State :=
  let n := unitStation s unit
  if setting s 0x410100 ≠ 0 ∧ unit ≠ 127 ∧ (station s n).state = .dozing then
    touch (bumpBy (bump s 0x210405) 0x210406 (s.clock.fc - (station s n).idleSince)) n
  else s

/-- A scrub burst of a unit, with what it finds, and what accesses have found since the burst before (R586). -/
def scrubs (s : State) (unit : Nat) (found : List RowFinding) : State :=
  if unitClocked s unit then (found.filter (heeded s unit)).foldl foundRow (burstWakes s unit) else s

/-! ## Course replays (R590) -/

/-- A router asks for a replay: one that follows the latest within the time of a replay is of the same flit (DEDUCED, log
entry 46). The request that follows course_replay_limit replays of one flit says that the last of them has failed: the link is
faulty, and replays no more. -/
def replays (s : State) (n link : Nat) : State :=
  if (tget s.stations n).isNone ∨ 4 ≤ link then s
  else
    let k := 4 * n + link
    let (c, at_) := tgetD s.replays k (0, 0)
    let m := if s.clock.fc ≤ at_ + 2 * (s.gelari.stages + 1) + 16 then c + 1 else 1
    let t := { s with replays := tput s.replays k (m, s.clock.fc) }
    if setting t 0x410302 < m then engineResets (raise t 0x72 (generic link 0 0 0 n)) else bump t 0x410301

/-! ## The management controller (R454, R605) -/

/-- The lease deadline moves by the length of a restart. -/
def extendLease (s : State) (n : Nat) : State :=
  if s.owner.state = .owned then { s with owner := { s.owner with deadline := s.owner.deadline + n } } else s

/-- How long the restart in progress has lasted. -/
def restartLength (s : State) : Nat := match s.restarting with | some (_, at_) => s.now - at_ | none => 0

/-- The controller restarts: 1 by its watchdog, 2 by the owner. -/
def restarts (s : State) (why : Nat) : State :=
  { extendLease s (restartLength s) with restarting := some (why, s.now) }

/-- An expiry of the controller's watchdog (R454, R477): its next window begins. -/
def watchdogExpires (s : State) : State :=
  let t := bump { restarts s 1 with watchdogDue := s.now + setting s 0x2E0101 } 0x2E0102
  advanceCount (raise t 0x08 (generic (setting t 0x2E0102) 0 0 0 0))

/-- mc_watchdog_ac passes without a heartbeat: no window ends before the one that the last known start gives. -/
def heartbeatMissed (s : State) : State := watchdogExpires (passToAc s s.watchdogDue)

/-- The controller resumes; its watchdog's window begins. -/
def controllerResumes (s : State) : State :=
  match s.restarting with
  | some (why, _) =>
    raise (releaseAnswers { extendLease s (restartLength s) with
      restarting := none, watchdogDue := s.now + setting s 0x2E0101 }) 0x76 (generic why 0 0 0 0)
  | none => s

/-- mc_restart_max_ac passes without a resumption: an expiry (R605). -/
def restartTimesOut (s : State) : State :=
  match s.restarting with
  | some (_, at_) => watchdogExpires (passToAc s (at_ + setting s 0x412001))
  | none => s

/-! ## Calibration and histograms (R606, R607) -/

/-- The fast clock runs at another frequency, where it is one of Table 17.1's (R559). -/
def runsAt (s : State) (khz : Nat) : State :=
  if s.power.fcAck ∧ 400000 ≤ khz ∧ khz ≤ 2000000 then
    { s with clock := { s.clock with frac := s.clock.frac * khz / max s.clock.khz 1, khz } } else s

/-- A window of 25,000 ac ends with a count. The rest of the window, and what follows until the next count, passes at the
frequency counted (R559: the generator may change it at any time; log entry 4). -/
def calibrates (s : State) (khz : Nat) : State :=
  let t := setSetting (passToAc (runsAt s khz) ((s.now / 25000 + 1) * 25000)) 0x413001 khz
  let f := t.gelari.fastKhz
  let off := setting t 0x413002 * f < 1000 * (max khz f - min khz f)
  if off && t.power.fcAck && t.driftAge == 0 then raise { t with driftAge := 999 } 0x77 (generic khz 0 0 0 0)
  else { t with driftAge := t.driftAge - 1 }

/-- Every slice's tags in use are sampled, 1,024 fc after the sample before. -/
def samples (s : State) : State :=
  let t := passToFc s ((s.clock.fc / 1024 + 1) * 1024)
  t.slices.foldl (fun u p => sampleBin u 3 (16 * p.2.tags.length / max 1 (poolSize t))) t

end Sys2Proof.Machine
end

