-- ==== Sys2Proof/Machine/Management.lean ====
section
/-!
DEFINITION. Management (chapter 15): ownership, requests from both transports, what a write to each entry does, functions
(Table 2.7), events and their delivery, and debug unlock.
-/

namespace Sys2Proof.Machine

/-! ## Ownership (R501 to R504, Table 15.10) -/

/-- The ownership state changes. -/
def onOwner (s : State) (f : Owner → Owner) : State := { s with owner := f s.owner }

/-- The lease starts. -/
def startLease (s : State) : State :=
  onOwner s fun o => { o with deadline := s.now + setting s 0x200201, remaining := 0, target := 0, claims := [] }

/-- The next epoch, with a new owner or none (0), whose event is raised. -/
def changeOwner (s : State) (host priority : Nat) : State :=
  let t := onOwner s fun o => { o with
    state := if host = 0 then .unowned else .owned
    host := host, priority := priority, epoch := (o.epoch + 1) % 2 ^ 32, claims := [], target := 0, remaining := 0 }
  let u := if host = 0 then t else startLease t
  raise u 0x01 (generic host u.owner.epoch 0 0 0)

/-- A body that names the owner: host, zero, lease_remaining_ac (Table 15.8). -/
def ownerBody (s : State) : List Byte := bytesLE 2 s.owner.host ++ bytesLE 2 0 ++ bytesLE 4 (leaseLeft s)

/-- Whether a claim beats another (R502). -/
def Claim.beats (a b : Claim) : Bool :=
  b.priority < a.priority || (a.priority == b.priority && (b.nonce < a.nonce || (a.nonce == b.nonce && a.host < b.host)))

/-- The best of some claims. -/
def bestClaim : List Claim → Option Claim
  | [] => none
  | c :: cs =>
    match bestClaim cs with
    | none => some c
    | some d => if d.beats c then some d else some c

/-- The election window ends: the best claimant becomes owner, and every claimant is answered. -/
def electionEnds (s : State) : State :=
  if s.owner.state ≠ .electing then s
  else
    let t := passToAc s s.owner.deadline
    let claims := t.owner.claims
    match bestClaim claims with
    | none => onOwner t fun o => { o with state := .unowned, claims := [] }
    | some c =>
      let u := changeOwner t c.host c.priority
      claims.foldl (fun v x => answerHost v x.host 0x10 (if x.host = c.host then .ok else .notOwner) (ownerBody v)) u

/-- The lease deadline passes: no owner. It moves while the management controller restarts (R605). -/
def leaseEnds (s : State) : State :=
  if s.owner.state ≠ .owned ∨ s.restarting.isSome then s
  else
    let t := passToAc s s.owner.deadline
    let former := t.owner.host
    let u := onOwner t fun o => { o with state := .unowned, host := 0, priority := 0, epoch := (o.epoch + 1) % 2 ^ 32 }
    raise u 0x02 (generic former u.owner.epoch 0 0 0)

/-- handover_ac passes: the offering host stays owner. -/
def handoverEnds (s : State) : State :=
  if s.owner.state ≠ .handing then s
  else
    let t := passToAc s s.owner.deadline
    startLease (onOwner t fun o => { o with state := .owned })

/-- A deadline that has come takes effect before a request (R504). -/
def ownerDue (s : State) : State :=
  if s.now < s.owner.deadline then s
  else match s.owner.state with
    | .unowned => s
    | .electing => electionEnds s
    | .owned => leaseEnds s
    | .handing => handoverEnds s

/-! ## Requests (R491, R499, R500, R503, R605) -/

/-- Whether a host has a request that is not answered yet. -/
def requestOpen (s : State) (host : Nat) : Bool :=
  (s.fns.any fun p => p.2.enabling.any fun q => q.host == host) ||
  (s.fnQueue.any fun w => w.1.host == host) ||
  (s.owner.state == .electing && s.owner.claims.any fun c => c.host == host) ||
  (s.transport.held.any fun a => a.1 == host)

/-- A command runs in the register window: go set, its registers as written (Table 15.9). -/
def windowStart (s : State) (command : Nat) (f : Window → Window) : State :=
  { s with window := { f s.window with go := true, command := BitVec.ofNat 8 command } }

/-- A request of a host is accepted: during a restart the window answers BUSY and messages are dropped; a second request
waits for nothing but BUSY, but a message's later CLAIM in an election, which replaces its host's earlier one (Table 15.10).
The window takes no command while its go bit is 1 (R500). -/
def admitRequest (s : State) (host command : Nat) (regs : Window → Window) (claims : Bool) (f : State → State) : State :=
  if s.power.phase = 1 then s
  else if s.restarting.isSome then
    if host ≠ 0x200 then bump s 0x412002
    else if s.window.go then s
    else answerNow (bump (windowStart s command regs) 0x200702) host command Result.busy.code []
  else
    let t := ownerDue s
    if host = 0x200 ∧ (t.window.go ∨ requestOpen t host) then t
    else if requestOpen t host && !(claims && t.owner.state == .electing) then answerHost t host command .busy []
    else f (if host = 0x200 then windowStart t command regs else t)

/-- Why an owner's request is refused (R503). -/
def ownerRefusal (s : State) (q : HostReq) : Option Result :=
  if s.owner.host = q.host ∧ s.owner.epoch = q.epoch ∧ (s.owner.state = .owned ∨ s.owner.state = .handing) then
    if s.owner.state = .handing then some .busy else none
  else some .notOwner

/-- The window's registers that an access sets. -/
def Window.access (e : EntryRef) (epoch : Nat) (data : List Byte) (w : Window) : Window :=
  { w with index := e.index, subindex := e.subindex, offset := BitVec.ofNat 32 e.offset, length := BitVec.ofNat 11 e.length
           epoch := BitVec.ofNat 32 epoch, data := data ++ w.data.drop data.length }

/-- The registers that a command with arguments sets. -/
def Window.args (epoch a b : Nat) (w : Window) : Window :=
  { w with epoch := BitVec.ofNat 32 epoch, arg0 := BitVec.ofNat 32 a, arg1 := BitVec.ofNat 32 b }

/-- CLAIM (Table 15.10). -/
def claims (s : State) (host priority nonce : Nat) : State :=
  admitRequest s host 0x10 (Window.args s.window.epoch.toNat priority nonce) true fun t =>
    let c : Claim := ⟨host, priority, nonce⟩
    match t.owner.state with
    | .unowned => onOwner t fun o => { o with
        state := .electing, deadline := t.now + setting t 0x200202, claims := [c] }
    | .electing => onOwner t fun o => { o with claims := (o.claims.filter fun x => x.host != host) ++ [c] }
    | .owned =>
      if t.owner.host = host then
        let u := startLease t
        answerHost u host 0x10 .ok (ownerBody u)
      else answerHost t host 0x10 .notOwner (ownerBody t)
    | .handing =>
      if t.owner.host = host then answerHost t host 0x10 .busy [] else answerHost t host 0x10 .notOwner (ownerBody t)

/-- RENEW. -/
def renews (s : State) (q : HostReq) : State :=
  admitRequest s q.host 0x11 (Window.args q.epoch s.window.arg0.toNat s.window.arg1.toNat) false fun t =>
    match ownerRefusal t q with
    | some r => answerHost t q.host 0x11 r []
    | none =>
      let u := startLease t
      answerHost u q.host 0x11 .ok (bytesLE 4 (leaseLeft u))

/-- RELEASE, which a handover does not stop. -/
def releases (s : State) (q : HostReq) : State :=
  admitRequest s q.host 0x12 (Window.args q.epoch s.window.arg0.toNat s.window.arg1.toNat) false fun t =>
    match ownerRefusal t q with
    | some .notOwner => answerHost t q.host 0x12 .notOwner []
    | _ => answerHost (changeOwner t 0 0) q.host 0x12 .ok []

/-- Whether a host identifier is not reserved (R495). -/
def hostDefined (h : Nat) : Bool := h == 0x200 || (0x108 ≤ h && h ≤ 0x1FE)

/-- HANDOVER: one that names the owner itself is REFUSED, while HANDING too (R503). A second one to another host while HANDING
is answered BUSY (DEDUCED, log entry 61: Table 15.10 has no such row). -/
def hands (s : State) (q : HostReq) (target : Nat) : State :=
  admitRequest s q.host 0x13 (Window.args q.epoch target s.window.arg1.toNat) false fun t =>
    match ownerRefusal t q with
    | some .notOwner => answerHost t q.host 0x13 .notOwner []
    | refusal =>
      if target = q.host then answerHost t q.host 0x13 .refused []
      else if refusal.isSome then answerHost t q.host 0x13 .busy []
      else if !hostDefined target then answerHost t q.host 0x13 .badValue []
      else
        let u := onOwner t fun o => { o with
          state := .handing, remaining := leaseLeft t, target := target, deadline := t.now + setting t 0x200203 }
        answerHost u q.host 0x13 .ok []

/-- ACCEPT. -/
def accepts (s : State) (host offering : Nat) : State :=
  admitRequest s host 0x14 (Window.args s.window.epoch.toNat offering s.window.arg1.toNat) false fun t =>
    if t.owner.state = .handing ∧ t.owner.target = host ∧ t.owner.host = offering then
      answerHost (changeOwner t host t.owner.priority) host 0x14 .ok []
    else answerHost t host 0x14 .notOwner []

/-! ## Functions (R92, R93, Table 2.7) -/

/-- The capacities against which reserves are summed (R72): for the reserve at a subindex. -/
def reserveCapacity (s : State) : Nat → Nat
  | 0x06 => min (512 * s.gelari.stations) 16384
  | 0x08 => 256 * s.gelari.stations
  | 0x0A => 2048
  | 0x0C => 128
  | _ => 4096

/-- The sum of a per-function value over the live functions, with one function's value as it would be. -/
def sumWith (s : State) (sub f v : Nat) : Nat := (((liveFns s).filter (· != f)).map fun g => fnSetting s g sub).sum + v

/-- Whether a function's shares may be what they would be (R76). -/
def sharesFit (s : State) (f rate burst : Nat) (live : Bool) : Bool :=
  (rate == 0 || 1 ≤ burst) && (!live || (decide (sumWith s 0x04 f rate ≤ 256) && decide (sumWith s 0x05 f burst ≤ 256)))

/-- Whether a function's reserves and shares fit as it is enabled. -/
def enableFits (s : State) (f : Nat) : Bool :=
  (([0x06, 0x08, 0x0A, 0x0C, 0x0E] : List Nat).all fun k => decide (sumWith s k f (fnSetting s f k) ≤ reserveCapacity s k)) &&
  sharesFit s f (fnSetting s f 0x04) (fnSetting s f 0x05) true

/-- The per-function counters that count since the last enable. Table 7.14 says no such thing of landing_overruns (0x1F): the
model clears it with the others (DESIGN CHOICE, log entry 70). -/
def enableCounters : List Nat :=
  [0x13, 0x14, 0x15, 0x17, 0x18, 0x19, 0x1B, 0x1C, 0x1D, 0x1F, 0x20, 0x21, 0x22, 0x26, 0x27, 0x28, 0x2A, 0x2B, 0x2C, 0x2D,
   0x30, 0x31, 0x32, 0x33]

/-- Whether an enable may be made now (R72, R76, R461): its partition is READY, and its reserves and shares fit. -/
def enableOpen (s : State) (f : Nat) : Bool := (partAt s (fnPartition s f)).state == .ready && enableFits s f

/-- The lease of the host that asked restarts, where it is still the owner under its epoch. -/
def leaseRestarts (s : State) (q : HostReq) : State :=
  if s.owner.host = q.host ∧ s.owner.state = .owned ∧ s.owner.epoch = q.epoch then startLease s else s

/-- The key of an enable is held: the function is ENABLED (Table 2.7). Where its partition is not READY any more, the enable
is refused, and the function stays DISABLED (R461). -/
def enableEnds (s : State) (f : Nat) (key : BitVec 256) : State :=
  let x := fnOf s f
  match x.enabling with
  | none => s
  | some q =>
    if !enableOpen s f then answerHost (setFn s f { x with enabling := none }) q.host 0x02 .refused [] else
    let t := setFn s f ⟨.enabled, x.generation + 1, some key, none, none, 1⟩
    let u := enableCounters.foldl (fun u k => setFnSetting u f k 0) t
    let v := u.stations.foldl (fun v p => onStation v p.1 fun st => { st with buckets := tdel st.buckets f }) u
    answerHost (leaseRestarts v q) q.host 0x02 .ok []

/-- An enable: refused, or waiting for its key (R88, R461). -/
def enableFn (s : State) (q : HostReq) (f : Nat) : State × Option Result :=
  let x := fnOf s f
  if x.state ≠ .disabled ∨ x.enabling.isSome then (s, some .refused)
  else if x.generation = 0xFFFFFFFF then (setFn s f { x with state := .retired }, some .refused)
  else if !enableOpen s f ∨ s.power.resetting ∨ s.power.engineOos ∨
      s.debug = .zeroising then (s, some .refused)
  else (wantEntropy (setFn s f { x with enabling := some q }) (.fnKey f), none)

/-- A disable: the drain begins. -/
def disables (s : State) (f : Nat) : State × Option Result :=
  if (fnOf s f).state = .enabled then (beginDrain s f false, some .ok) else (s, some .refused)

/-- A write to a quota or share. -/
def shareWrites (s : State) (f sub v : Nat) : State × Option Result :=
  let get := fun k => if k = sub then v else fnSetting s f k
  let live := (fnOf s f).live
  if sub ≤ 0x05 then
    if sharesFit s f (get 0x04) (get 0x05) live then
      let t := setFnSetting s f sub v
      (t.stations.foldl (fun u p => onStation u p.1 fun st => { st with buckets := tdel st.buckets f }) t, some .ok)
    else (s, some .refused)
  else
    let r := sub / 2 * 2
    if get (r + 1) < get r ∨ (live ∧ reserveCapacity s r < sumWith s r f (get r)) then (s, some .refused)
    else (setFnSetting s f sub v, some .ok)

/-- A write to a per-function entry. -/
def fnWrites (s : State) (q : HostReq) (f sub v : Nat) : State × Option Result :=
  let disabled := (fnOf s f).state = .disabled ∧ (fnOf s f).enabling.isNone
  let put := (setFnSetting s f sub v, some Result.ok)
  let refused := (s, some Result.refused)
  if sub = 0x01 then
    match v with
    | 0 => disables s f
    | 1 => enableFn s q f
    | _ => refused
  else if sub = 0x02 then (if disabled then put else refused)
  else if 0x04 ≤ sub ∧ sub ≤ 0x0F then shareWrites s f sub v
  else if sub = 0x23 then (if v % 4096 ≠ 0 then (s, some .badValue) else if disabled then put else refused)
  else if sub = 0x24 then
    (if v % max 1 s.gelari.initiators ≠ 0 then (s, some .badValue) else if disabled then put else refused)
  else if sub = 0x2E then (if !disabled ∨ (v = 1 ∧ fnSetting s f 0x2F = 0) then refused else put)
  else if sub = 0x2F then
    (if v % 2 ^ 20 ≠ 0 then (s, some .badValue)
     else if !disabled ∨ (v = 0 ∧ fnSetting s f 0x2E = 1) then refused else put)
  else put

/-! ## Debug access (R513 to R516) -/

/-- debug_record (Table 15.15). -/
def debugRecord (s : State) (initiator : Nat) (verified locked : Bool) : Nat :=
  field 32 224 s.now + field 32 192 (setting s 0x200802) + field 16 176 initiator + field 1 175 (flag verified) +
    field 1 174 (flag locked)

/-- Steps Z1 to Z3: every store is cleared, and the zeroisation is counted. -/
def zeroised (s : State) : State :=
  bump { clearStores (bumpBy s 0x210406 (dozingFc s)) unlockState with debug := .zeroising } 0x200802

/-- Step Z5: the record is written, and debug_unlocked raised. -/
def zeroRecorded (s : State) (initiator : Nat) (verified : Bool) : State :=
  let r := debugRecord s initiator verified false
  raise (setSetting s 0x200803 r) 0x05 (BitVec.ofNat 256 r)

/-- The unlock sequence starts: steps Z1 to Z5, and the tag key of Z6 is asked for. Whether a cleared store reads back as zero
in Z4 is a free value (log entry 47); where one does not, the port stays closed and the engine goes out of service (R514). -/
def unlocks (s : State) (initiator : Nat) : State :=
  if s.debug = .zeroising ∨ s.power.phase ≠ 0 then s
  else
    let t := zeroised s
    if Config.clearedZero (setting t 0x200802) then wantEntropy (zeroRecorded t initiator true) .tagKey
    else
      let u := zeroRecorded t initiator false
      outOfService { u with debug := .locked } (advancesNow u).length

/-- Step Z6 ends: the stations return, and the test port is open. -/
def unlockEnds (s : State) : State :=
  if s.debug ≠ .zeroising then s
  else if s.power.resetting || !s.power.fcAck then { s with debug := .unlocked }
  else
    let to_ : StationState := if s.power.engineOos then .fenced else .active
    { s with
      debug := .unlocked
      stations := s.stations.map fun p =>
        (p.1, if p.2.state = .reset then { p.2 with state := to_, idleSince := s.clock.fc } else p.2) }

/-- The test port closes: an engine reset, and debug_locked. -/
def locks (s : State) : State :=
  if s.debug ≠ .unlocked then s
  else
    let r := setting s 0x200803
    let r' := if r / 2 ^ 174 % 2 = 1 then r else r + 2 ^ 174
    let t := setSetting { s with debug := .locked, wrappers := [] } 0x200803 r'
    engineResets (raise t 0x06 (BitVec.ofNat 256 r'))

/-! ## Writes of other entries -/

/-- A write of partition_state (R612, Table 14.6): 0 READY, 1 FROZEN. -/
def partitionWrites (s : State) (p v : Nat) : State × Option Result :=
  let x := partAt s p
  match v with
  | 1 => (declare s p 2 0 0 0 0 0, some .ok)
  | 0 =>
    match x.state with
    | .ready => (s, some .ok)
    | .outOfService =>
      if x.req then (s, some .refused)
      else (onPart s p fun y => { y with state := .ready, step := 0, entries := [] }, some .ok)
    | _ => (s, some .refused)
  | _ => (s, some .refused)

/-- CLEAR_OOS (R477). -/
def clearsOos (s : State) : State × Option Result :=
  if s.power.engineOos then
    (engineResets (setSetting { s with power := { s.power with engineOos := false } } 0x2E0805 0), some .ok)
  else (s, some .refused)

/-- A core command of four bytes. -/
def coreWrites (s : State) (kind pad phys : Nat) : State × Option Result :=
  if kind < 1 ∨ 3 < kind ∨ pad ≠ 0 ∨ !physKnown s phys then (s, some .badValue)
  else if coreCommandFits s kind phys then (ownerCoreCommand s kind phys, some .ok)
  else (s, some .refused)

/-- A service command of four bytes (R592). -/
def serviceWrites (s : State) (kind n action pad : Nat) : State × Option Result :=
  if !serviceDefined s kind n action ∨ pad ≠ 0 then (s, some .badValue)
  else if s.service.isSome ∨ !serviceFits s kind n action then (s, some .refused)
  else (startService s kind n action false, some .ok)

/-- Whether no live function is in a partition (R56). -/
def partitionIdle (s : State) (p : Nat) : Bool := (liveFns s).all fun f => fnPartition s f != p

/-- core_partition_map bytes from an offset on. -/
def mapWrites (s : State) (first : Nat) (l : List Byte) : State × Option Result :=
  let ps := l.mapIdx fun i b => (first + i, b.toNat)
  if ps.any fun p => 64 ≤ p.2 && p.2 != 255 then (s, some .badValue)
  else
    let changed := ps.filter fun p => corePartition s p.1 != p.2
    if changed.all fun p => partitionIdle s (corePartition s p.1) && partitionIdle s p.2 then
      ({ s with maps := { s.maps with partition := changed.foldl (fun m p => rput m p.1 p.2) s.maps.partition } }, some .ok)
    else (s, some .refused)

/-- A link port's routing_table bytes: a port, 0x1E or 0x1F each. -/
def routeWrites (s : State) (port first : Nat) (l : List Byte) : State × Option Result :=
  let ps := l.mapIdx fun i b => (first + i, b.toNat)
  if ps.any fun p => 16 ≤ p.2 && p.2 != 0x1E && p.2 != 0x1F then (s, some .badValue)
  else ({ s with routes := tput s.routes port (ps.foldl (fun m p => rput m p.1 p.2) (tgetD s.routes port [])) }, some .ok)

/-- A number with some bytes replaced from an offset on. -/
def splice (v size first : Nat) (l : List Byte) : Nat :=
  let old := bytesLE size v
  ofBytesLE (old.take first ++ l ++ old.drop (first + l.length))

/-- Whether a handle names a live queue (R440). -/
def queueLive (s : State) (h : Word) : Bool := tagOk s h && (queueOf s h).isSome

/-- A bridge entry (R440, Table 13.4). -/
def bridgeWrites (s : State) (b v : Nat) : State × Option Result :=
  let e := BitVec.ofNat 192 v
  let queue : Word := e.extractLsb' 128 64
  let peer : Word := e.extractLsb' 64 64
  let mode := bits e 53 52
  let window := bits e 51 47
  if mode = 3 ∨ bits e 46 0 ≠ 0 ∨ (mode = 1 ∧ bits e 63 54 ≠ 0) then (s, some .badValue)
  else if bridgeMode s b ≠ 0 ∧ mode ≠ 0 then (s, some .refused)
  else
    let peerOk := if mode = 2 then Handle.cls peer == 4 && Handle.fn peer == Handle.fn queue
      else peer == 0 || (queueLive s peer && Handle.fn peer == Handle.fn queue)
    if queueLive s queue ∧ peerOk ∧ 1 ≤ window ∧ window ≤ 16 then
      (setSetting { s with bridges := tdel s.bridges b } (0x2D0500 + b) v, some .ok)
    else (s, some .refused)

/-- A write to an entry that is an array of bytes. -/
def blobWrites (s : State) (k offset : Nat) (l : List Byte) : State × Option Result :=
  let whole := bytesLE 4 (splice 0 4 offset l)
  let at_ := fun i => listByte whole i
  if k = 0x220100 then mapWrites s offset l
  else if k = 0x2E0A04 then coreWrites s (at_ 0) (at_ 1) (at_ 2 + 256 * at_ 3)
  else if k = 0x411000 then serviceWrites s (at_ 0) (at_ 1) (at_ 2) (at_ 3)
  else if 0x2D0200 ≤ k ∧ k ≤ 0x2D020F then routeWrites s (k - 0x2D0200) offset l
  else if 0x2D0500 ≤ k ∧ k ≤ 0x2D053F then bridgeWrites s (k - 0x2D0500) (splice (setting s k) 24 offset l)
  else (s, some .refused)

/-- Whether a byte read as two's complement lies in −16 to +40. -/
def exponentOk (v : Nat) : Bool := v ≤ 40 || (240 ≤ v && v ≤ 255)

/-- doze_enable is written (R570, R580): a station counts idle cycles only while it is TRUE, from the write on. -/
def dozeWrites (s : State) (v : Nat) : State :=
  let restart := fun (st : Station) => if st.state = .dozing then st else { st with idleSince := s.clock.fc }
  let t := setSetting s 0x210401 v
  if setting s 0x210401 = 0 ∧ v ≠ 0 then { t with stations := t.stations.map fun p => (p.1, restart p.2) } else t

/-- A write to an engine-wide entry that is a number. -/
def scalarWrites (s : State) (k v : Nat) : State × Option Result :=
  let put := (setSetting s k v, some Result.ok)
  if k = 0x200800 then (if v = 0 then unlocks s s.owner.host else locks s, some .ok)
  else if k = 0x2E0806 then (if v = 0 then (engineResets s, some .ok) else clearsOos s)
  else if k = 0x412000 then (restarts s 2, some .ok)
  else if k = 0x414000 then ({ s with bins := [] }, some .ok)
  else if 0x2E0700 ≤ k ∧ k ≤ 0x2E073F then partitionWrites s (k - 0x2E0700) v
  else if k = 0x2B0201 ∨ k = 0x2B0202 then (if exponentOk v then put else (s, some .badValue))
  else if 0x2E0500 ≤ k ∧ k ≤ 0x2E053F then (if v % 2 ^ 22 ≠ 0 then (s, some .badValue) else put)
  else if k = 0x2D0100 ∨ k = 0x2D0101 then
    (if (liveFns s).isEmpty ∧ s.fns.all fun p => p.2.state != .retired then put else (s, some .refused))
  else if 0x250200 ≤ k ∧ k ≤ 0x250203 then (hintWrites s k v, some .ok)
  else if 0x2D0700 ≤ k ∧ k ≤ 0x2D070F then (budgetWrites s (k - 0x2D0700) v, some .ok)
  else if k = 0x2A0402 ∨ k = 0x2A0403 then (windowWrites s k v, some .ok)
  else if k = 0x210401 then (dozeWrites s v, some .ok)
  else if 0x2E0200 ≤ k ∧ k ≤ 0x2E023F then
    (onPart (setSetting s k v) (k - 0x2E0200) fun x => { x with
      lastBeat := none, beatDue := s.now + setting s 0x2E0400 }, some .ok)
  else put

/-- A write to an entry that exists and may be written, of a length that fits (R485, R489, R490). -/
def entryWrites (s : State) (q : HostReq) (r : EntryRow) (e : EntryRef) (data : List Byte) : State × Option Result :=
  let index := e.index.toNat
  let sub := e.subindex.toNat
  if r.blob then blobWrites s (keyOf index sub) e.offset data
  else
    let v := ofBytesLE data
    if r.type ≠ .handle ∧ (v < r.lo ∨ r.hi < v) then (s, some .badValue)
    else match entryFn index with
      | some f => fnWrites s q f sub v
      | none => scalarWrites s (keyOf index sub) v

/-- A write's refusal before its value is looked at, or the entry's row. -/
def writeRow (s : State) (q : HostReq) (e : EntryRef) (data : List Byte) : Result ⊕ EntryRow :=
  match ownerRefusal s q with
  | some r => .inl r
  | none =>
    match entryRow s e.index.toNat e.subindex.toNat with
    | none => .inl .noEntry
    | some row =>
      if row.right = .ro then .inl .readOnly
      else if lengthOk row e.offset e.length && data.length == e.length then .inr row
      else .inl .badLength

/-- Whether an enable waits for its key: later requests on functions wait for it (R93). -/
def fnBusy (s : State) : Bool := s.fns.any fun p => p.2.enabling.isSome

/-- The requests on functions that have waited are applied in the order in which they were accepted (R93, R504), until one of
them waits itself. -/
def fnRequestsGo : Nat → State → State
  | 0, s => s
  | fuel + 1, s =>
    if fnBusy s then s else
    match s.fnQueue with
    | [] => s
    | (q, e, data) :: rest =>
      let t := { s with fnQueue := rest }
      fnRequestsGo fuel (match entryRow t e.index.toNat e.subindex.toNat with
        | none => answerHost t q.host 0x02 .noEntry []
        | some row => match entryWrites t q row e data with
          | (u, some .ok) => answerHost (leaseRestarts u q) q.host 0x02 .ok []
          | (u, some r) => answerHost u q.host 0x02 r []
          | (u, none) => u)

/-- WRITE: the lease restarts where it returns OK (Table 15.10). A request on a function waits while an enable waits for its
key. -/
def writes (s : State) (q : HostReq) (e : EntryRef) (data : List Byte) : State :=
  admitRequest s q.host 0x02 (Window.access e q.epoch data) false fun t =>
    match writeRow t q e data with
    | .inl r => answerHost t q.host 0x02 r []
    | .inr row =>
      if (entryFn e.index.toNat).isSome && fnBusy t then { t with fnQueue := t.fnQueue ++ [(q, e, data)] } else
      match entryWrites t q row e data with
      | (u, some .ok) => answerHost (if u.owner.state = .owned then startLease u else u) q.host 0x02 .ok []
      | (u, some r) => answerHost u q.host 0x02 r []
      | (u, none) => u

/-- READ. -/
def reads (s : State) (q : HostReq) (e : EntryRef) : State :=
  admitRequest s q.host 0x01 (Window.access e q.epoch []) false fun t =>
    let (r, code, l) := readEntry t e
    answerHost t q.host 0x01 r (if r = .ok then bytesLE 1 code ++ bytesLE 1 0 ++ bytesLE 2 l.length ++ l else [])

/-- A write of a number of `n` bytes to an entry. -/
def writesNumber (s : State) (q : HostReq) (index sub n v : Nat) : State :=
  writes s q ⟨BitVec.ofNat 16 index, BitVec.ofNat 8 sub, 0, n⟩ (bytesLE n v)

/-! ## Events (R507 to R512) -/

/-- Whether a subscriber receives an event (R509). -/
def Sub.wants (x : Sub) (e : Event) : Bool := e.fixed || (e.code < 128 && x.mask.getLsbD e.code)

/-- The oldest event that a subscriber has not acknowledged. -/
def Sub.oldest (x : Sub) (s : State) : Option Event := s.log.find? fun e => x.next ≤ e.seq && x.wants e

/-- The slot of a host. -/
def slotOf (s : State) (host : Nat) : Option (Nat × Sub) := s.subs.find? fun p => p.2.host == host

/-- A slot changes. -/
def setSub (s : State) (slot : Nat) (x : Sub) : State := { s with subs := tput s.subs slot x }

/-- SUBSCRIBE (R509). -/
def subscribes (s : State) (host : Nat) (mask : BitVec 128) : State :=
  admitRequest s host 0x20 id false fun t =>
    match slotOf t host with
    | some (k, x) =>
      let u := if mask = 0 then { t with subs := tdel t.subs k } else setSub t k { x with mask := mask }
      answerHost u host 0x20 .ok (bytesLE 1 k)
    | none =>
      if mask = 0 then answerHost t host 0x20 .ok [Config.vendorByte 2]
      else
        let k := leastFrom (fun k => (tget t.subs k).isNone) 8 0
        if 8 ≤ k then answerHost t host 0x20 .busy []
        else answerHost (setSub t k ⟨host, mask, setting t 0x200601, none, 0, 0⟩) host 0x20 .ok (bytesLE 1 k)

/-- EVENT: the window host fetches its oldest unacknowledged event; with none, BAD_COMMAND (DEDUCED, log entry 15). -/
def fetches (s : State) : State :=
  admitRequest s 0x200 0x21 id false fun t =>
    match slotOf t 0x200 with
    | some (k, x) =>
      match x.oldest t with
      | some e => answerHost (setSub t k { x with outstanding := some e.seq }) 0x200 0x21 .ok e.bytes
      | none => answerHost t 0x200 0x21 .badCommand []
    | none => answerHost t 0x200 0x21 .badCommand []

/-- The sequence of the event outstanding for a subscriber: the window host's is its oldest. -/
def Sub.open_ (x : Sub) (s : State) : Option Nat :=
  if x.host = 0x200 then (x.oldest s).map (·.seq) else x.outstanding

/-- EVENT_ACK (R512). -/
def acknowledges (s : State) (host seq : Nat) : State :=
  admitRequest s host 0x22 (Window.args s.window.epoch.toNat seq s.window.arg1.toNat) false fun t =>
    match slotOf t host with
    | some (k, x) =>
      if x.open_ t = some seq then
        answerHost (setSub t k { x with next := seq + 1, outstanding := none, sends := 0 }) host 0x22 .ok []
      else answerHost t host 0x22 .badCommand []
    | none => answerHost t host 0x22 .badCommand []

/-- An event leaves as a message to its subscriber (R511; the tag and its owner bit PRESUMED, log entry 44). -/
def sendEvent (s : State) (k : Nat) (x : Sub) (e : Event) (n : Nat) : State :=
  let t := setSub s k { x with outstanding := some e.seq, sends := n, due := s.now + setting s 0x200501 }
  queueMessage t (x.host % 256) 8 (vendorHeader t 0x21 0 0 0 ++ e.bytes)

/-- The event that a subscriber has outstanding, if the log still holds it. -/
def Sub.current (x : Sub) (s : State) : Option Event :=
  match x.outstanding with
  | some q => s.log.find? fun e => e.seq == q
  | none => none

/-- The next event is sent to an MCTP subscriber that has none outstanding. One that the log has replaced meanwhile is done
(DEDUCED, log entry 15). -/
def sendsEvent (s : State) (host : Nat) : State :=
  if host = 0x200 ∨ s.restarting.isSome then s
  else match slotOf s host with
    | some (k, x) =>
      if (x.current s).isSome then s
      else
        let y := match x.outstanding with | some q => { x with next := max x.next (q + 1), outstanding := none } | none => x
        match y.oldest s with
        | some e => sendEvent s k y e 1
        | none => s
    | none => s

/-- event_retry_ac passes without an acknowledgement: the event is sent again, or the subscriber dropped (R512). -/
def retriesEvent (s : State) (host : Nat) : State :=
  if host = 0x200 ∨ s.restarting.isSome then s
  else match slotOf s host with
    | some (k, x) =>
      match x.current s with
      | some e =>
        let t := passToAc s x.due
        if x.sends < setting t 0x200502 then sendEvent t k x e (x.sends + 1)
        else raise { t with subs := tdel t.subs k } 0x04 (generic host 0 0 0 0)
      | none => s
    | none => s

/-! ## Entropy (R548) -/

/-- A word is taken for the current need; the need's last completes it. -/
def entropyTaken (s : State) (w : Word) : State :=
  match s.entropy.needs with
  | [] => s
  | need :: _ =>
    if !s.entropy.req then s
    else
      let l := s.entropy.words ++ [w]
      if l.length < need.words then { s with entropy := { s.entropy with words := l } }
      else
        let t := nextNeed s
        match need with
        | .uuid => setSetting t 0x200301 (uuidOf l)
        | .tagKey => unlockEnds { t with tagKey := BitVec.ofNat 128 (wordsNat l) }
        | .fnKey f => fnRequestsGo (t.fnQueue.length + 1) (enableEnds t f (BitVec.ofNat 256 (wordsNat l)))

end Sys2Proof.Machine
end

