-- ==== Sys2Proof/Machine/Mctp.lean ====
section
/-!
DEFINITION. The mp port (R496 to R499, R541 to R544): packets checked and assembled, control messages, vendor messages,
private reads and in-band interrupts. The layouts that the manual takes from the standards of Table 15.6 are PRESUMED (log
entry 44).
-/

namespace Sys2Proof.Machine

/-! ## Control messages (R496, R498) -/

/-- A control message is answered: its header, instance, command, completion code and data. -/
def controlAnswer (s : State) (c : MctpCtl) (command completion : Nat) (l : List Byte) : State :=
  queueMessage s c.srcEid.toNat c.messageTag.toNat
    (bytesLE 1 0 ++ bytesLE 1 c.instanceId.toNat ++ bytesLE 1 command ++ bytesLE 1 completion ++ l)

/-- A control message reaches the engine: none does while it has no power, and while the management controller restarts it
is dropped and counted (R605). -/
def controlTaken (s : State) (f : State → State) : State :=
  if s.power.phase = 1 then s else if s.restarting.isSome then bump s 0x412002 else f s

/-- Set Endpoint ID, accepted from any host (R498). An identifier that no endpoint may have is refused. -/
def setsEndpoint (s : State) (c : MctpCtl) (eid : Nat) : State :=
  controlTaken s fun t =>
    if 0x08 ≤ eid ∧ eid ≤ 0xFE then
      controlAnswer (setSetting t 0x200300 eid) c 0x01 0 (bytesLE 1 0 ++ bytesLE 1 eid ++ bytesLE 1 0)
    else controlAnswer t c 0x01 0x02 []

/-- Get Endpoint ID. -/
def givesEndpoint (s : State) (c : MctpCtl) : State :=
  controlTaken s fun t => controlAnswer t c 0x02 0 (bytesLE 1 (setting t 0x200300) ++ bytesLE 2 0)

/-- Get Endpoint UUID: the UUID drawn at power-up, most significant byte first. -/
def givesUuid (s : State) (c : MctpCtl) : State :=
  controlTaken s fun t => controlAnswer t c 0x03 0 (bytesBE 16 (setting t 0x200301))

/-- Get MCTP Version Support: version 1.3 of the base and of control messages. -/
def givesVersion (s : State) (c : MctpCtl) (type : Nat) : State :=
  controlTaken s fun t =>
    if type = 0xFF ∨ type = 0x00 then controlAnswer t c 0x04 0 (bytesLE 1 1 ++ bytesBE 4 0xF1F3FF00)
    else controlAnswer t c 0x04 0x80 []

/-- Get Message Type Support: control and vendor-defined messages. -/
def givesTypes (s : State) (c : MctpCtl) : State :=
  controlTaken s fun t => controlAnswer t c 0x05 0 (bytesLE 1 2 ++ bytesLE 1 0x00 ++ bytesLE 1 0x7F)

/-- Get Vendor Defined Message Support: one vendor, its identifier an IANA number. -/
def givesVendor (s : State) (c : MctpCtl) (selector : Nat) : State :=
  controlTaken s fun t =>
    if selector = 0 then
      controlAnswer t c 0x06 0 (bytesLE 1 0xFF ++ bytesLE 1 1 ++ bytesBE 4 (setting t 0x100001) ++
        [Config.vendorByte 0, Config.vendorByte 1])
    else controlAnswer t c 0x06 0x02 []

/-- A control message that was assembled: type, request bit and instance, command, data. One that asks for nothing, being a
response, has no effect; a command with too few bytes is refused. -/
def controlMessage (s : State) (src tag : Nat) (msg : List Byte) : State :=
  match msg with
  | _ :: rq :: command :: l =>
    let c : MctpCtl := ⟨BitVec.ofNat 8 src, BitVec.ofNat 3 tag, rq.setWidth 5⟩
    let short := controlAnswer s c command.toNat 0x03 []
    if !bit rq 7 then s
    else match command.toNat, l with
      | 0x01, op :: eid :: _ => if op.toNat % 4 < 2 then setsEndpoint s c eid.toNat else controlAnswer s c 0x01 0x02 []
      | 0x02, _ => givesEndpoint s c
      | 0x03, _ => givesUuid s c
      | 0x04, type :: _ => givesVersion s c type.toNat
      | 0x05, _ => givesTypes s c
      | 0x06, selector :: _ => givesVendor s c selector.toNat
      | 0x01, _ | 0x04, _ | 0x06, _ => short
      | n, _ => controlAnswer s c n 0x05 []
  | _ => s

/-! ## Vendor messages (R499, Tables 15.7 and 15.8) -/

/-- Whether a host has a request outstanding as its new one arrives: a further CLAIM in an election is none. -/
def hostBusy (s : State) (host command : Nat) : Bool :=
  requestOpen s host && !(command == 0x10 && s.owner.state == .electing)

/-- The command of a message, where its body is one that Table 15.8 defines. -/
def vendorCommand (host command epoch : Nat) (l : List Byte) : Option (State → State) :=
  let q : HostReq := ⟨host, epoch⟩
  let at_ := fun i n => ofBytesLE ((l.drop i).take n)
  let entry : EntryRef := ⟨BitVec.ofNat 16 (at_ 0 2), BitVec.ofNat 8 (at_ 2 1), at_ 4 4, at_ 8 2⟩
  let only := fun (n : Nat) (f : State → State) => if l.length = n then some f else none
  match command with
  | 0x01 => if l.length = 10 ∧ at_ 3 1 = 0 then some fun t => reads t q entry else none
  | 0x02 => if 10 ≤ l.length ∧ at_ 3 1 = 0 then some fun t => writes t q entry (l.drop 10) else none
  | 0x10 => if l.length = 8 ∧ at_ 1 3 = 0 then some fun t => claims t host (at_ 0 1) (at_ 4 4) else none
  | 0x11 => only 0 fun t => renews t q
  | 0x12 => only 0 fun t => releases t q
  | 0x13 => only 2 fun t => hands t q (at_ 0 2)
  | 0x14 => only 2 fun t => accepts t host (at_ 0 2)
  | 0x20 => only 16 fun t => subscribes t host (BitVec.ofNat 128 (at_ 0 16))
  | 0x22 => only 4 fun t => acknowledges t host (at_ 0 4)
  | _ => none

/-- A vendor message that was assembled. One of another vendor's, or that comes before the engine has an endpoint
identifier, or that is itself a response, has no effect; an undefined command, version or body is BAD_COMMAND, and a second
request BUSY (R499). -/
def vendorMessage (s : State) (src tag : Nat) (msg : List Byte) : State :=
  let at_ := fun i n => ofBytesLE ((msg.drop i).take n)
  let host := 0x100 + src
  let command := at_ 6 1
  let flags := at_ 7 1
  if setting s 0x200300 = 0 ∨ msg.length < 5 ∨ ofBytesBE ((msg.drop 1).take 4) ≠ setting s 0x100001 ∨ 128 ≤ flags ∨
      !hostDefined host then s
  else
    let t := ownerDue s
    let direct := fun (r : Result) =>
      queueMessage (bump t 0x200702) src tag (vendorHeader t command (128 + flags % 32) t.owner.epoch r.code)
    if msg.length < 16 ∨ at_ 5 1 ≠ 1 ∨ 32 ≤ flags ∨ at_ 12 4 ≠ 0 then direct .badCommand
    else match vendorCommand host command (at_ 8 4) (msg.drop 16) with
      | none => direct .badCommand
      | some f =>
        if hostBusy t host command then direct .busy
        else f { t with transport := { t.transport with requests := tput t.transport.requests host (tag, flags % 32) } }

/-! ## Packets (R497, R542) -/

/-- A message that was assembled: control, or vendor-defined; one with the integrity-check bit is discarded and counted. -/
def messageArrives (s : State) (src tag : Nat) (msg : List Byte) : State :=
  match msg with
  | [] => s
  | type :: _ =>
    if type = 0x00 then controlMessage s src tag msg
    else if type = 0x7F then vendorMessage s src tag msg
    else if bit type 7 then bump s 0x200701
    else s

/-- The assemblies without one source's and tag's. -/
def otherAssemblies (s : State) (src tag : Nat) : List Assembly :=
  s.transport.assembly.filter fun a => !(a.src == src && a.tag == tag)

/-- The assemblies become these. -/
def setAssembly (s : State) (l : List Assembly) : State := { s with transport := { s.transport with assembly := l } }

/-- A packet whose code is good: the piece of a message that it carries is joined to those before it. -/
def packetJoins (s : State) (src flags : Nat) (l : List Byte) : State :=
  let tag := flags % 8
  let seq := flags / 16 % 4
  let others := otherAssemblies s src tag
  let last := flags / 64 % 2 == 1
  let put := fun (done : List Byte) =>
    let msg := done ++ l
    if 1104 < msg.length then setAssembly s others
    else if last then messageArrives (setAssembly s others) src tag msg
    else setAssembly s (others ++ [⟨src, tag, (seq + 1) % 4, msg⟩])
  if flags / 8 % 2 = 0 then bump s 0x200701
  else if flags / 128 = 1 then put []
  else match s.transport.assembly.find? fun a => a.src == src && a.tag == tag with
    | none => bump s 0x200701
    | some a => if a.next = seq then put a.bytes else bump (setAssembly s others) 0x200701

/-- One private write delivers one packet: header version, destination, source, flags, its piece of a message, and the
packet error code. -/
def packetArrives (s : State) (bytes : List Byte) : State :=
  controlTaken s fun t =>
    let body := bytes.dropLast
    match body with
    | version :: dest :: src :: flags :: l =>
      if some (Config.packetCode body) ≠ bytes.getLast? ∨ version.toNat % 16 ≠ 1 then bump t 0x200701
      else if dest.toNat ≠ 0 ∧ dest.toNat ≠ setting t 0x200300 then t
      else packetJoins t src.toNat flags.toNat l
    | _ => bump t 0x200701

/-! ## Private reads and in-band interrupts (R543, R544) -/

/-- A private read ends: the packet it read leaves if its last byte was taken, and is offered again otherwise. -/
def privateReadEnds (s : State) (lastTaken : Bool) : State :=
  if lastTaken ∧ s.transport.txQueue ≠ [] then
    { s with transport := Transport.ibi (setting s 0x2F0400) { s.transport with
      txQueue := s.transport.txQueue.drop 1, ibiTaken := false, ibiRetryAt := none } }
  else s

/-- The neighbour answers an interrupt request: accepted, or to be made again after ibi_retry_ac. -/
def ibiAnswered (s : State) (accepted : Bool) : State :=
  if !s.transport.ibiReq then s
  else if accepted then { s with transport := Transport.ibi (setting s 0x2F0400) { s.transport with ibiTaken := true } }
  else { s with transport := Transport.ibi (setting s 0x2F0400) { s.transport with ibiRetryAt := some (s.now + setting s 0x2F0401) } }

/-- ibi_retry_ac has passed since a request was refused: it is made again. -/
def ibiAgain (s : State) : State :=
  match s.transport.ibiRetryAt with
  | none => s
  | some d =>
    let t := passToAc s d
    { t with transport := Transport.ibi (setting t 0x2F0400) { t.transport with ibiRetryAt := none } }

end Sys2Proof.Machine
end

