-- ==== Sys2Proof/Machine/Ports.lean ====
section
/-!
DEFINITION. What the ports do with an access, a transfer or a credit (chapter 16): aperture reads and errors, credits,
reports, ferry responses, caravans, and the counting of transfers that fail a check.
-/

namespace Sys2Proof.Machine

/-! ## Transfers that fail (R521, R524, R556) -/

/-- The sum of the port error counters. -/
def portErrors (s : State) : Nat := setting s 0x2F0302 + setting s 0x2F0303 + setting s 0x2F0304

/-- The counter of a cause: 1 header parity, 2 uncorrectable, 3 without credit, 4 malformed. -/
def causeCounter (cause : Nat) : Nat := if cause = 1 then 0x2F0302 else if cause = 2 then 0x2F0303 else 0x2F0304

/-- A transfer on a port fails: it is counted, and port_error raised at each multiple of the step. Port codes: 1 xp, 2 xi,
3 lp, 4 kp. -/
def portFails (s : State) (port number cause : Nat) : State :=
  let t := bump s (causeCounter cause)
  let step := setting t 0x2F0600
  if step ≠ 0 ∧ portErrors t % step = 0 then raise t 0x60 (generic (256 * port + number) cause 0 0 0) else t

/-- Some transfers fail alike, each counted for itself. -/
def portFailsBy (s : State) (port number cause k : Nat) : State := (List.range k).foldl (fun t _ => portFails t port number cause) s

/-! ## Aperture (R96, R125, R126, R524, R526, R532) -/

/-- Foreground work of a station: a dozing one is woken (R569, R571). -/
def foreground (s : State) (n : Nat) : State := touch (wakeStation s n) n

/-- A beacon read reaches its station's port. -/
def beaconReads (s : State) (a : ApertureRead) : State := presented s (.beacon a)

/-- An access that is not parsed reaches its station's port: a transfer without credit is discarded, and with it the access, and
one that came with credit gives it back; each transfer that fails a check is counted as it comes (R96, R521, R524, Table
16.1). -/
def apertureFails (s : State) (a : AccessIn) : State :=
  if !portHere s a.station then s
  else match a.fault.cause with
    | .withoutCredit => creditsBack (portFailsBy s 1 a.station 3 (failingTransfers a.fault)) (.xpRequest a.station a.fault.lane.toNat)
        (accessTransfers a.fault - failingTransfers a.fault)
    | .headerParity => presented (portFailsBy s 1 a.station 1 (failingTransfers a.fault)) (.access a)
    | .uncorrectable => presented (portFailsBy s 1 a.station 2 (failingTransfers a.fault)) (.access a)
    | .unaccepted => presented s (.access a)

/-! ## Credits (R119, R520, R528) -/

/-- A mailbox credit return: bad parity and malformed transfers are discarded, the towpath discards every one, and beats
above the mailbox's depth are. -/
def mailboxReturns (s : State) (n agent beats rsv : Nat) (parityBad : Bool) : State :=
  if !portHere s n then s
  else if parityBad then portFails s 1 n 1
  else if beats = 0 ∨ rsv ≠ 0 ∨ !agentFieldOk agent then portFails s 1 n 4
  else if towpathActs s n then s
  else
    let used := tgetD (station s n).pushUsed agent 0
    let t := onStation (foreground s n) n fun st => { st with pushUsed := nput st.pushUsed agent (used - beats) }
    if used < beats then portFails t 1 n 4 else t

/-- One more credit on a lane of two. -/
def laneGain (c : Nat × Nat) (lane : Nat) : Nat × Nat :=
  if lane = 0 then (c.1 + 1, c.2) else if lane = 1 then (c.1, c.2 + 1) else c

/-- The flits that a port may send grow with its credit while it is ready, and not drained (R540, R602). -/
def flitCreditReturns (s : State) (p : Nat) : State :=
  let l := linkAt s p
  if l.state = .absent ∨ !l.ready ∨ linkOut s p then s else setLink s p { l with flitCredit := l.flitCredit + 1 }

/-- A ferry initiator's port gains credit: the seal writes that it then can are issued. -/
def initiatorGains (s : State) (j : Nat) (f : XiPort → XiPort) : State :=
  if j < s.gelari.initiators then
    let t := setXi s j (f (xiAt s j))
    driveSeals ((xiAt t j).sealsWait.length) t j
  else s

/-- A receiver returns a credit on a fast-clock channel: what waited for it leaves. -/
def creditReturns (s : State) (c : Channel) : State :=
  if !portsLive s then s
  else match c with
    | .xpResponse n lane =>
      if (station s n).state = .absent then s
      else
        let t := onStation s n fun st => { st with rspCredit := laneGain st.rspCredit lane }
        driveRsp t n (station t n).rspQueue.length
    | .xpPush n lane =>
      if (station s n).state = .absent then s
      else onStation s n fun st => { st with pushCredit := laneGain st.pushCredit lane }
    | .xiRequest j => initiatorGains s j fun x => { x with reqCredit := x.reqCredit + 1 }
    | .xiWrite j => initiatorGains s j fun x => { x with wrCredit := x.wrCredit + 1 }
    | .kpTransmit p => flitCreditReturns s p

/-! ## Reports, responses and caravans -/

/-- Whether a configuration has a report port. -/
def reportPortHere (s : State) : ReportPort → Bool
  | .landing n => n < s.gelari.landingPorts
  | .link n => n < s.gelari.linkPorts

/-- The code and number of a report port. -/
def reportPortName : ReportPort → Nat × Nat
  | .landing n => (3, n)
  | .link n => (4, n)

/-- A report is presented: without credit, or with a flit that fails its code, it is discarded (R521, Table 16.1). -/
def reportPresented (s : State) (p : ReportIn) : State :=
  let name := reportPortName p.port
  if !portsLive s || !reportPortHere s p.port then s
  else if p.noCredit then portFails s name.1 name.2 3
  else if p.codeBad then returnReportCredit (portFails s name.1 name.2 2) p.port
  else
    let n := reportStation s p.port
    homeStep (foreground (if p.corrected then countCorrected s 3 else s) n) n (Handle.hi p.handle) fun t => takeReport t p n

/-- A response transfer on a ferry initiator: a header that fails its parity counts as such and is treated as an uncorrectable
beat (R524, Table 16.1). -/
def ferryResponds (s : State) (x : XiRsp) : State :=
  if !portsLive s || !decide (x.initiator < s.gelari.initiators) then s
  else
    let t := foreground s (sliceStation s x.initiator)
    let u := if x.headerBad then portFails t 2 x.initiator 1 else if x.bad then portFails t 2 x.initiator 2
      else if x.corrected then countCorrected t 3 else t
    takeXi u { x with bad := x.bad || x.headerBad }

/-- Flits leave a port's receive buffer: their credits return, or are owed while the port is drained (R520, R602). -/
def flitsBack (s : State) (p k : Nat) : State :=
  if linkOut s p then onLink s p fun l => { l with owedFlits := l.owedFlits + k } else creditsBack s (.kpReceive p) k

/-- A caravan reaches its port and leaves its receive buffer, whose credits return for every flit that came with one (R520,
R539, R541); each flit without credit, or that fails its code, is counted (R521, R524), and so is each corrected one; a sound
caravan of the weir or op class is work of the port's attach logic (R569). -/
def caravanCounted (s : State) (c : CaravanIn) : State :=
  let t := correctedWords (flitsBack s c.port (1 + c.bodies.length - c.noCredit)) 3 c.corrected
  let u := portFailsBy (portFailsBy t 4 c.port 3 c.noCredit) 4 c.port 2 c.bad
  if c.noCredit ≠ 0 ∨ c.bad ≠ 0 then u
  else match kindClass (headKind c.head) with
    | some .weir | some .op => foreground u (linkAttach s c.port)
    | _ => u

/-- A caravan is presented on a port: its effect, which is that of no other kind. -/
def caravanPresented (s : State) (c : CaravanIn) (kind : Nat) (f : State → State) : State :=
  let k := headKind c.head
  if !portsLive s || (linkAt s c.port).state == .absent || (k != kind && (kindClass k).isSome) then s
  else onCaravan (caravanCounted s c) c kind f

/-- An OP or OP_PAYLOAD is presented on a port. -/
def operationPart (s : State) (c : CaravanIn) : State :=
  if !portsLive s || (linkAt s c.port).state == .absent then s else opPresented (caravanCounted s c) c

/-- An operation caravan is presented, with the OP_PAYLOAD that follows it on its port where one does; an OP_PAYLOAD may come
again without its OP (R424). -/
def operationPresented (s : State) (c : CaravanIn) (payload : Option CaravanIn) : State :=
  match headKind c.head, payload with
  | 0x20, none | 0x21, none => operationPart s c
  | 0x20, some d =>
    if bit c.head 49 && headKind d.head == 0x21 then operationPart (operationPart s c) { d with port := c.port } else s
  | _, _ => s

end Sys2Proof.Machine
end

