-- ==== Sys2Proof/Machine/Arrival.lean ====
section
/-!
DEFINITION. How a course message arrives, and how a deadline of a station takes effect.
-/

namespace Sys2Proof.Machine

/-- Whether a station's logic can take a message or a deadline: it is ACTIVE or FENCED; a dozing one where it does so
without waking (R568). -/
def takesNow (s : State) (n : Nat) (asleep : Bool) : Bool :=
  awake (station s n) || (asleep && (station s n).state == .dozing)

/-- The message of a class that arrives next between two stations (R33), with the course without it. -/
def nextMsg (s : State) (src dst cls : Nat) : Option (Msg × List Msg) :=
  takeFirst (fun m => m.src == src && m.dst == dst && m.body.cls == cls) s.course

/-- A message between two stations arrives: the next one of its class, where it is of the command's kind and the receiving
station takes it. A command that names no such message has no effect (log entry 5). -/
def arrives (s : State) (src dst cls : Nat) (f : State → MsgBody → Option State) (asleep : Bool := false) :
    Host.Outcome State Fault Refusal :=
  if takesNow s dst asleep then
    match nextMsg s src dst cls with
    | some (m, rest) =>
      let t := { s with course := rest }
      match f (if asleep then t else touch t dst) m.body with
      | some u => conclude u
      | none => .next s
    | none => .next s
  else .next s

/-- A message addressed by handle takes effect as one step of the object's home (R29, R349, R408). -/
def homeMsg (s : State) (n : Nat) (h : Word) (b : MsgBody) (f : State → State) : Option State :=
  some (atObject s n h b fun t => homeStep t n (Handle.hi h) f)

/-- The same for a message to a fire rule. -/
def ruleMsg (s : State) (n : Nat) (h : Word) (b : MsgBody) (f : State → Obj → Rule → State) : Option State :=
  homeMsg s n h b fun t => match ruleAt t n h with
    | some (o, r) => f t o r
    | none => t

/-- A deadline of a station takes effect; a dozing station wakes for one that is due (R569). -/
def deadlineAt (s : State) (n : Nat) (due : Bool) (f : State → State) : State :=
  if due && takesNow s n true then f (foreground s n) else s

/-- What an object's body says of a deadline. -/
def dueAt (s : State) (n index : Nat) (f : Body → Bool) : Bool :=
  match objAt s n index with
  | some o => f o.body
  | none => false

/-- An event while the engine has power; in always-on reset it has no effect (R553). -/
def powered (s : State) (f : State → State) : State := if s.power.phase = 1 then s else f s

/-- Whether a host's requests reach the engine: the register window's do, and an MCTP endpoint's once the engine has an
endpoint identifier (R495, R498). -/
def hostSpeaks (s : State) (host : Nat) : Bool := host == 0x200 || (hostDefined host && setting s 0x200300 != 0)

/-- A request of a host. -/
def fromHost (s : State) (host : Nat) (f : State → State) : Host.Outcome State Fault Refusal :=
  conclude (if hostSpeaks s host then f s else s)

end Sys2Proof.Machine
end

