-- ==== Sys2Proof/Machine/Events.lean ====
section
/-!
DEFINITION. Events of recovery, power, clock, reset, entropy, doze, integrity and telemetry (chapters 14, 16, 17 and 18),
and the tick of the clocks.
-/

namespace Sys2Proof.Machine

/-! ## Recovery -/

/-- HEARTBEAT_READ (R455). -/
def execHeartbeatRead (partition : BitVec 6) (s : State) : Host.Outcome State Fault Refusal :=
  conclude (heartbeatReads s partition.toNat)

/-- PARTITION_FAULT (R461): cause 3. -/
def execPartitionFault (partition : BitVec 6) (s : State) : Host.Outcome State Fault Refusal :=
  conclude (powered s fun t => declare t partition.toNat 3 0 0 0 0 0)

/-- INTERFACE_RESET_ACK (R463). -/
def execInterfaceResetAck (phys : BitVec 12) (block : BitVec 256) (s : State) : Host.Outcome State Fault Refusal :=
  conclude (resetAcked s phys.toNat block)

/-- INTERFACE_RESET_TIMEOUT (R475). -/
def execInterfaceResetTimeout (phys : BitVec 12) (s : State) : Host.Outcome State Fault Refusal :=
  conclude (resetTimesOut s phys.toNat)

/-- CAPTURE_ENTRY (R467). -/
def execCaptureEntry (src dst : Nat) (s : State) : Host.Outcome State Fault Refusal :=
  arrives s src dst 0 fun t b => match b with
    | .captureEntry e => some (takeEntry t dst e)
    | _ => none

/-- CAPTURE_LIMIT (R470). -/
def execCaptureLimit (partition : BitVec 6) (s : State) : Host.Outcome State Fault Refusal :=
  conclude (captureLimited s partition.toNat)

/-- FENCE_ACK (R473). -/
def execFenceAck (phys : BitVec 12) (s : State) : Host.Outcome State Fault Refusal := conclude (fenceAcked s phys.toNat)

/-- FENCE_TIMEOUT (R473). -/
def execFenceTimeout (phys : BitVec 12) (s : State) : Host.Outcome State Fault Refusal :=
  conclude (fenceTimesOut s phys.toNat)

/-- UNFENCE_ACK (R474). -/
def execUnfenceAck (phys : BitVec 12) (s : State) : Host.Outcome State Fault Refusal :=
  conclude (unfenceAcked s phys.toNat)

/-- PRST_ACK (R547). -/
def execPrstAck (partition : BitVec 6) (s : State) : Host.Outcome State Fault Refusal :=
  conclude (resetAcknowledged s partition.toNat)

/-- PRST_ACK_FALL (R547). -/
def execPrstAckFall (partition : BitVec 6) (s : State) : Host.Outcome State Fault Refusal :=
  conclude (ackFalls s partition.toNat)

/-- PARTITION_RESET_TIMEOUT (R475). -/
def execPartitionResetTimeout (partition : BitVec 6) (s : State) : Host.Outcome State Fault Refusal :=
  conclude (partitionTimesOut s partition.toNat)

/-- ENGINE_RESET (R481): cp0_eng_rst_n falls. -/
def execEngineReset (s : State) : Host.Outcome State Fault Refusal :=
  conclude (if s.power.phase = 0 then engineResets s else s)

/-- MC_WATCHDOG_EXPIRY (R454). -/
def execMcWatchdogExpiry (s : State) : Host.Outcome State Fault Refusal := conclude (powered s heartbeatMissed)

/-- MC_RESUMED (R605). -/
def execMcResumed (s : State) : Host.Outcome State Fault Refusal := conclude (controllerResumes s)

/-- MC_RESTART_TIMEOUT (R605). -/
def execMcRestartTimeout (s : State) : Host.Outcome State Fault Refusal := conclude (restartTimesOut s)

/-! ## Power, clock, reset and entropy -/

/-- AON_RESET_RELEASE (R551). -/
def execAonResetRelease (s : State) : Host.Outcome State Fault Refusal := conclude (aonReleased s)

/-- AON_RESET (R553). -/
def execAonReset (s : State) : Host.Outcome State Fault Refusal := conclude (aonFalls s)

/-- CLAMP (R552). -/
def execClamp (s : State) : Host.Outcome State Fault Refusal := conclude (clampRises s)

/-- CLAMP_RELEASE (R551). -/
def execClampRelease (s : State) : Host.Outcome State Fault Refusal := conclude (clampFalls s)

/-- FC_ACK_RISE (R560). -/
def execFcAckRise (s : State) : Host.Outcome State Fault Refusal := conclude (fcRises s)

/-- FC_CLOCK_LOST (R561). -/
def execFcClockLost (s : State) : Host.Outcome State Fault Refusal := conclude (fcFalls s)

/-- PD_ACK (R565, R566). -/
def execPdAck (domain : Nat) (level : Bool) (s : State) : Host.Outcome State Fault Refusal :=
  conclude (if level then domainRises s domain else domainFalls s domain)

/-- PD_ACK_TIMEOUT (R565, R566). -/
def execPdAckTimeout (domain : Nat) (s : State) : Host.Outcome State Fault Refusal := conclude (domainFails s domain)

/-- ENTROPY_WORD (R548). -/
def execEntropyWord (word : Word) (s : State) : Host.Outcome State Fault Refusal := conclude (entropyTaken s word)

/-- ENTROPY_ERROR (R548). -/
def execEntropyError (s : State) : Host.Outcome State Fault Refusal := conclude (entropyFails s)

/-- ENTROPY_RETRY (R548). -/
def execEntropyRetry (s : State) : Host.Outcome State Fault Refusal := conclude (entropyAgain s)

/-! ## Doze -/

/-- DOZE_ENTRY (R570). -/
def execDozeEntry (n : Nat) (s : State) : Host.Outcome State Fault Refusal := conclude (dozes s n)

/-- STATION_WAKE (R571): foreground work wakes a dozing station, which resumes 24 fc later. -/
def execStationWake (n : Nat) (s : State) : Host.Outcome State Fault Refusal :=
  conclude (if (station s n).state = .dozing ∧ hasWork s n then wakeStation (passFc s (setting s 0x210403)) n else s)

/-- TOWPATH_HOLD_EXPIRY (R531, R572). -/
def execTowpathHoldExpiry (n : Nat) (s : State) : Host.Outcome State Fault Refusal := conclude (holdExpires s n)

/-! ## Integrity and telemetry -/

/-- SCRUB_BURST (R584). -/
def execScrubBurst (unit : Nat) (findings : List RowFinding) (s : State) : Host.Outcome State Fault Refusal :=
  conclude (scrubs s unit findings)

/-- COURSE_REPLAY (R590). -/
def execCourseReplay (n link : Nat) (s : State) : Host.Outcome State Fault Refusal := conclude (replays s n link)

/-- CALIBRATION_WINDOW (R606). -/
def execCalibrationWindow (khz : BitVec 32) (s : State) : Host.Outcome State Fault Refusal :=
  conclude (powered s fun t => calibrates t khz.toNat)

/-- CHANNEL_CREDIT_RETURN (R520). -/
def execChannelCreditReturn (c : Channel) (s : State) : Host.Outcome State Fault Refusal := conclude (creditReturns s c)

/-- OCCUPANCY_SAMPLE (R607). -/
def execOccupancySample (s : State) : Host.Outcome State Fault Refusal :=
  conclude (if portsLive s then samples s else s)

/-! ## The tick -/

/-- One fast cycle passes, and every station takes a waiting operation of each of its two paths where it has one (R77);
without a fast clock one always-on cycle passes. DESIGN CHOICE (log entry 4): this is what an empty queue of commands lets
happen. -/
def tick (s : State) : Host.Outcome State Fault Refusal :=
  conclude (if portsLive s then s.stations.foldl (fun t p => takeNext (takeNext t p.1 false) p.1 true) (passFc s 1)
    else { s with clock := { s.clock with ac := s.clock.ac + 1 } })

end Sys2Proof.Machine
end

