-- ==== Sys2Proof/Machine/LinkEvents.lean ====
section
/-!
DEFINITION. Caravans, link ports and bridges (chapter 13).
-/

namespace Sys2Proof.Machine

/-- CARAVAN_SEND (R429). -/
def execCaravanSend (port : Nat) (s : State) : Host.Outcome State Fault Refusal :=
  conclude (if portsLive s then sendNext s port else s)

/-! ## Control caravans -/

/-- ACK (R425): the ack that every caravan carries is its whole effect. -/
def execAck (c : CaravanIn) (s : State) : Host.Outcome State Fault Refusal := conclude (caravanPresented s c 0x00 id)

/-- ACK_DUE (R425). -/
def execAckDue (port : Nat) (s : State) : Host.Outcome State Fault Refusal :=
  conclude (if portsLive s then ackNow s port else s)

/-- RETX_TIMEOUT (R425). -/
def execRetxTimeout (port : Nat) (s : State) : Host.Outcome State Fault Refusal :=
  conclude (if portsLive s then retransmit s port else s)

/-- CREDIT (R428). -/
def execCredit (c : CaravanIn) (s : State) : Host.Outcome State Fault Refusal :=
  conclude (caravanPresented s c 0x01 fun t => creditArrives t c.port c.head)

/-- RESYNC (R447). -/
def execResync (c : CaravanIn) (s : State) : Host.Outcome State Fault Refusal :=
  conclude (caravanPresented s c 0x02 fun t => linkResyncs t c.port)

/-! ## The course leg (R422) -/

/-- A caravan of a kind arrives between two stations. -/
def caravanCrosses (s : State) (src dst kind : Nat) : Host.Outcome State Fault Refusal :=
  arrives s src dst 0 fun t b => match b with
    | .caravan out isSeal parts =>
      if headKind ((parts.headD (0, [])).1) = kind then some (caravanAt t dst out isSeal parts) else none
    | _ => none

/-- A caravan of a kind for an object of this chip: from its port it crosses the course to the object's home, where it acts. -/
def carriedInward (u : Carried) (kind : Nat) (s : State) : Host.Outcome State Fault Refusal :=
  match u with
  | .link c => conclude (caravanPresented s c kind fun t => caravanInward t (linkAttach t c.port) c.head c.bodies)
  | .course a b => caravanCrosses s a b kind

/-! ## System weirs -/

/-- BIND (R433). -/
def execBind (u : Carried) (s : State) : Host.Outcome State Fault Refusal :=
  match u with
  | .link c => conclude (caravanPresented s c 0x10 fun t => bindArrives t (linkAttach t c.port) c.head)
  | .course a b => caravanCrosses s a b 0x10

/-- BIND_REPLY (R433). -/
def execBindReply (u : Carried) (s : State) : Host.Outcome State Fault Refusal := carriedInward u 0x11 s

/-- Whether a weir's home waits to send BIND again. -/
def bindWaits (s : State) (n index : Nat) : Bool :=
  match weirAt s n index with
  | some (_, w) => w.record.retryAt.isSome
  | none => false

/-- BIND_RETRY (R433). -/
def execBindRetry (n index : Nat) (s : State) : Host.Outcome State Fault Refusal :=
  conclude (deadlineAt s n (bindWaits s n index) fun t => bindAgain t n index)

/-- WEIR_UP (R434). -/
def execWeirUp (u : Carried) (s : State) : Host.Outcome State Fault Refusal := carriedInward u 0x12 s

/-- WEIR_DOWN (R434). -/
def execWeirDown (u : Carried) (s : State) : Host.Outcome State Fault Refusal := carriedInward u 0x13 s

/-! ## Remote operations -/

/-- OP (R444). -/
def execOp (u : Carried) (payload : Option CaravanIn) (s : State) : Host.Outcome State Fault Refusal :=
  match u with
  | .link c => conclude (operationPresented s c payload)
  | .course a b => caravanCrosses s a b 0x20

/-- REPLY (R443). -/
def execReply (u : Carried) (s : State) : Host.Outcome State Fault Refusal := carriedInward u 0x22 s

/-- TOKENS (R445). -/
def execTokens (u : Carried) (s : State) : Host.Outcome State Fault Refusal :=
  match u with
  | .link c => conclude (caravanPresented s c 0x23 fun t => serveTokens t c.port c.head c.bodies)
  | .course a b => caravanCrosses s a b 0x23

/-- TOKEN_ACK (R445). -/
def execTokenAck (u : Carried) (s : State) : Host.Outcome State Fault Refusal := carriedInward u 0x24 s

/-- A bridge acts at its queue's home, which wakes for tokens that it can take. -/
def bridgeActs (s : State) (b : Nat) (f : State → State) : State :=
  match bridgeHome s b with
  | some (home, _, q) => deadlineAt s home (portsLive s && !(q.takeTokens false 1 q.read).isEmpty) f
  | none => s

/-- BRIDGE_OP_SEND (R443). -/
def execBridgeOpSend (b : Nat) (s : State) : Host.Outcome State Fault Refusal :=
  conclude (bridgeActs s b fun t => bridgeOpSends t b)

/-- BRIDGE_TOKENS_SEND (R445). -/
def execBridgeTokensSend (b : Nat) (s : State) : Host.Outcome State Fault Refusal :=
  conclude (bridgeActs s b fun t => bridgeTokensSends t b)

/-! ## Readiness -/

/-- LINK_READY (R447). -/
def execLinkReady (port : Nat) (s : State) : Host.Outcome State Fault Refusal :=
  conclude (powered s fun t => linkRises t port)

/-- LINK_NOT_READY (R540). -/
def execLinkNotReady (port : Nat) (s : State) : Host.Outcome State Fault Refusal :=
  conclude (powered s fun t => linkFalls t port)

/-- LINK_LOST_TIMEOUT (R448). -/
def execLinkLostTimeout (port : Nat) (s : State) : Host.Outcome State Fault Refusal :=
  conclude (powered s fun t => linkTimesOut t port)

end Sys2Proof.Machine
end

