-- ==== Sys2Proof/Machine/Messages.lean ====
section
/-!
DEFINITION. Course messages and deadlines of the operation interface, weirs, landing counters, queues and the ferry
(chapters 01, 03 to 09).
-/

namespace Sys2Proof.Machine

/-! ## The operation interface -/

/-- FORWARDED_OPERATION (R29). -/
def execForwardedOperation (src dst : Nat) (s : State) : Host.Outcome State Fault Refusal :=
  arrives s src dst 0 fun t b => match b with
    | .fwdOp f => some (opArrives t dst src f)
    | _ => none

/-- OPERATION_RESPONSE (R47, R147, R152, R269). -/
def execOperationResponse (src dst : Nat) (s : State) : Host.Outcome State Fault Refusal :=
  arrives s src dst 1 fun t b => match b with
    | .response tag st x y d => some (opAnswered t dst tag ⟨st, x, y, d, none⟩)
    | .registeredWait tag ref => some (waitRegistered t dst src tag ref)
    | .withdrawn id removed => some (withdrawnArrives t dst id removed)
    | .popGrant h ref id i => some (coverPop t dst h ref id i)
    | _ => none

/-- CHART_COMMIT (R28). -/
def execChartCommit (src dst : Nat) (s : State) : Host.Outcome State Fault Refusal :=
  arrives s src dst 3 (fun t b => match b with
    | .chartCommit index move home _ => some (commitArrives t dst src index move home)
    | .chartClear index => some (releaseReports (chartSet t dst index none) dst index)
    | _ => none) true

/-- WAKE_REQUEST (R151). -/
def execWakeRequest (src dst : Nat) (s : State) : Host.Outcome State Fault Refusal :=
  arrives s src dst 3 fun t b => match b with
    | .wake h ref grant _ waits i => some (wakeArrives t dst h ref grant waits i)
    | _ => none

/-- WITHDRAWAL (R152). -/
def execWithdrawal (src dst : Nat) (s : State) : Host.Outcome State Fault Refusal :=
  arrives s src dst 0 fun t b => match b with
    | .withdraw entry id h _ => homeMsg t dst h b fun u => withdrawAt u dst entry id (Handle.index h)
    | _ => none

/-- WAIT_TIMEOUT (R115). -/
def execWaitTimeout (n wait : Nat) (s : State) : Host.Outcome State Fault Refusal :=
  conclude (deadlineAt s n ((waiterAt s n wait).any fun w => w.deadline.isSome) fun t => waitTimesOut t n wait)

/-- PUSH_MESSAGE (R120). -/
def execPushMessage (n : Nat) (s : State) : Host.Outcome State Fault Refusal :=
  conclude (if portsLive s then pushNext s n else s)

/-- PUSH_CREDIT_RETURN (R528). -/
def execPushCreditReturn (n : Nat) (agent : BitVec 14) (beats : BitVec 4) (rsv : BitVec 6) (parityBad : Bool) (s : State) :
    Host.Outcome State Fault Refusal :=
  conclude (mailboxReturns s n agent.toNat beats.toNat rsv.toNat parityBad)

/-- BEACON_UPDATE (R135). -/
def execBeaconUpdate (src dst : Nat) (s : State) : Host.Outcome State Fault Refusal :=
  arrives s src dst 3 (fun t b => match b with
    | .beaconUpdate word value free weir h => some (beaconArrives t dst src word value free weir h)
    | _ => none) true

/-- BEACON_UPDATE_ACK (R136). -/
def execBeaconUpdateAck (src dst : Nat) (s : State) : Host.Outcome State Fault Refusal :=
  arrives s src dst 1 fun t b => match b with
    | .beaconAck word h => homeMsg t dst h b fun u => beaconAcked u dst src word h
    | _ => none

/-! ## Weirs -/

/-- WEIR_SETUP (R164). -/
def execWeirSetup (src dst : Nat) (s : State) : Host.Outcome State Fault Refusal :=
  arrives s src dst 3 fun t b => match b with
    | .setup h p home moving => some (takeSetup t dst src h p home moving)
    | _ => none

/-- SETUP_ACKNOWLEDGEMENT (R163). -/
def execSetupAcknowledgement (src dst : Nat) (s : State) : Host.Outcome State Fault Refusal :=
  arrives s src dst 2 fun t b => match b with
    | .setupAck h refused => some (homeStep t dst (Handle.hi h) fun u => setupAnswered u dst src h refused)
    | _ => none

/-- COMBINED_ARRIVAL (R168). -/
def execCombinedArrival (src dst : Nat) (s : State) : Host.Outcome State Fault Refusal :=
  arrives s src dst 2 fun t b => match b with
    | .combined h odd break_ lost segment last d =>
      some (homeStep t dst (Handle.hi h) fun u => combinedArrives u dst src h odd break_ lost segment last d)
    | .combinedMoved h origin odd segment last d =>
      some (homeStep t dst (Handle.hi h) fun u => movedArrives u dst h origin odd segment last d)
    | _ => none

/-- EPOCH_COMPLETION (R170). -/
def execEpochCompletion (src dst : Nat) (s : State) : Host.Outcome State Fault Refusal :=
  arrives s src dst 3 fun t b => match b with
    | .completion h outcome odd result => some (completionArrives t dst h outcome odd result)
    | _ => none

/-- WEIR_SUBSCRIBE (R173). -/
def execWeirSubscribe (src dst : Nat) (s : State) : Host.Outcome State Fault Refusal :=
  arrives s src dst 2 fun t b => match b with
    | .subscribe h => some (homeStep t dst (Handle.hi h) fun u => subscribeArrives u dst src h)
    | _ => none

/-- SUBSCRIBE_REPLY (R173). -/
def execSubscribeReply (src dst : Nat) (s : State) : Host.Outcome State Fault Refusal :=
  arrives s src dst 3 fun t b => match b with
    | .subscribeReply h p open_ state result => some (subscribed t dst h p open_ state result)
    | _ => none

/-- TEARDOWN (R180). -/
def execTeardown (src dst : Nat) (s : State) : Host.Outcome State Fault Refusal :=
  arrives s src dst 3 fun t b => match b with
    | .teardown h _ => some (teardownArrives t dst src h)
    | _ => none

/-- TEARDOWN_ACK (R180). -/
def execTeardownAck (src dst : Nat) (s : State) : Host.Outcome State Fault Refusal :=
  arrives s src dst 2 fun t b => match b with
    | .teardownAck h => some (homeStep t dst (Handle.hi h) fun u => teardownAcked u dst src (Handle.hi h))
    | _ => none

/-- HINT_OVERDUE (R187). -/
def execHintOverdue (n index : Nat) (s : State) : Host.Outcome State Fault Refusal :=
  conclude (if takesNow s n true then hintAsserts s n index else s)

/-- HINT_MAX (R187). -/
def execHintMax (n : Nat) (s : State) : Host.Outcome State Fault Refusal :=
  conclude (if takesNow s n true then hintMaxed s n else s)

/-! ## Landing counters and seals -/

/-- LANDING_REPORT (R222). -/
def execLandingReport (p : ReportIn) (s : State) : Host.Outcome State Fault Refusal := conclude (reportPresented s p)

/-- REPORT_CREDIT (R223). -/
def execReportCredit (src dst : Nat) (s : State) : Host.Outcome State Fault Refusal :=
  arrives s src dst 0 fun t b => match b with
    | .report r => some (homeStep t dst (Handle.hi r.handle) fun u => reportArrives u dst r)
    | _ => none

/-- SEAL_DEPOSIT (R235). -/
def execSealDeposit (src dst : Nat) (s : State) : Host.Outcome State Fault Refusal :=
  arrives s src dst 0 fun t b => match b with
    | .sealDeposit r address mask data => some (sealDeposited t r address mask data)
    | _ => none

/-- SEAL_RELEASE (R236). -/
def execSealRelease (src dst : Nat) (s : State) : Host.Outcome State Fault Refusal :=
  arrives s src dst 0 fun t b => match b with
    | .sealRelease r => some (sealReleased t r)
    | _ => none

/-- SEAL_DISCARD (R235). -/
def execSealDiscard (src dst : Nat) (s : State) : Host.Outcome State Fault Refusal :=
  arrives s src dst 0 fun t b => match b with
    | .sealDiscard r => some (sealDropped t r)
    | _ => none

/-- SEAL_REGISTER (R238). -/
def execSealRegister (src dst : Nat) (s : State) : Host.Outcome State Fault Refusal :=
  arrives s src dst 0 fun t b => match b with
    | .sealRegister r f => some (atObject t dst f.handle b fun u => sealRegistered u dst r f)
    | _ => none

/-- FREE_NOTICE (R236). -/
def execFreeNotice (src dst : Nat) (s : State) : Host.Outcome State Fault Refusal :=
  arrives s src dst 1 fun t b => match b with
    | .freeNotice buffer entry => some (sealNoticed t dst buffer entry)
    | _ => none

/-! ## Queues and the ferry -/

/-- The idle deadline of a queue. -/
def Body.idleArmed : Body → Bool
  | .queue q => q.idleDeadline.isSome
  | _ => false

/-- A spill of a queue that the slice has refused. -/
def Body.spillRefused : Body → Bool
  | .queue q => q.spillTail == 2 || q.spillHead == 2
  | _ => false

/-- IDLE_TIMEOUT (R275). -/
def execIdleTimeout (n index : Nat) (s : State) : Host.Outcome State Fault Refusal :=
  conclude (deadlineAt s n (dueAt s n index Body.idleArmed) fun t =>
    match objAt t n index with
    | some o => homeStep t n o.hi fun u => idlePasses u n index
    | none => t)

/-- SPILL_SEGMENT (R297). -/
def execSpillSegment (src dst : Nat) (s : State) : Host.Outcome State Fault Refusal :=
  arrives s src dst 0 fun t b => match b with
    | .spillSegment h block segment d => some (takeSpill t dst src h block segment d)
    | _ => none

/-- SPILL_ACCEPTED (R256). -/
def execSpillAccepted (src dst : Nat) (s : State) : Host.Outcome State Fault Refusal :=
  arrives s src dst 1 fun t b => match b with
    | .spillAccepted h block => homeMsg t dst h b fun u => spillAccepted u dst h block
    | _ => none

/-- SPILL_REFUSED (R297). -/
def execSpillRefused (src dst : Nat) (s : State) : Host.Outcome State Fault Refusal :=
  arrives s src dst 1 fun t b => match b with
    | .spillRefused h block => homeMsg t dst h b fun u => spillRefused u dst h block
    | _ => none

/-- SPILL_RETRY (R297). -/
def execSpillRetry (n index : Nat) (s : State) : Host.Outcome State Fault Refusal :=
  conclude (deadlineAt s n (dueAt s n index Body.spillRefused) fun t => retrySpill t n index)

/-- REFILL_REQUEST (R296). -/
def execRefillRequest (src dst : Nat) (s : State) : Host.Outcome State Fault Refusal :=
  arrives s src dst 0 fun t b => match b with
    | .refillRequest h block => some (takeRefill t src h block)
    | _ => none

/-- REFILL_SEGMENT (R259, R298). -/
def execRefillSegment (src dst : Nat) (s : State) : Host.Outcome State Fault Refusal :=
  arrives s src dst 1 fun t b => match b with
    | .refillSegment h block _ fail d => homeMsg t dst h b fun u => refillArrives u dst h block fail d
    | _ => none

/-- RESERVE_EXTENT (R287). -/
def execReserveExtent (src dst : Nat) (s : State) : Host.Outcome State Fault Refusal :=
  arrives s src dst 0 fun t b => match b with
    | .reserveExtent h length => some (takeReserve t dst src h length)
    | _ => none

/-- EXTENT_RESERVED (R287): the answer to a reservation, reserved or refused. -/
def execExtentReserved (src dst : Nat) (s : State) : Host.Outcome State Fault Refusal :=
  arrives s src dst 1 fun t b => match b with
    | .extentReserved h => homeMsg t dst h b fun u => extentReservedArrives u dst h
    | .extentRefused h => homeMsg t dst h b fun u => extentRefusedArrives u dst h
    | _ => none

/-- RELEASE_EXTENT (R311). -/
def execReleaseExtent (src dst : Nat) (s : State) : Host.Outcome State Fault Refusal :=
  arrives s src dst 0 fun t b => match b with
    | .releaseExtent h => some (takeRelease t dst src h)
    | _ => none

/-- EXTENT_RELEASED (R296). -/
def execExtentReleased (src dst : Nat) (s : State) : Host.Outcome State Fault Refusal :=
  arrives s src dst 1 fun t b => match b with
    | .extentReleased h => homeMsg t dst h b fun u => extentReleasedArrives u dst h
    | _ => none

/-- Whether a slice works: its ports are live and its station's logic is on. -/
def sliceWorks (s : State) (j : Nat) : Bool :=
  portsLive s && decide (j < s.gelari.initiators) && awake (station s (sliceStation s j))

/-- FERRY_ISSUE (R301). -/
def execFerryIssue (slice : Nat) (cls : FerryClass) (s : State) : Host.Outcome State Fault Refusal :=
  conclude (if sliceWorks s slice then issueClass s slice cls else s)

/-- XI_RESPONSE (R536). -/
def execXiResponse (x : XiRsp) (s : State) : Host.Outcome State Fault Refusal := conclude (ferryResponds s x)

/-- FERRY_SLOW (R304). -/
def execFerrySlow (slice tag : Nat) (s : State) : Host.Outcome State Fault Refusal := conclude (tagSlow s slice tag)

/-- COMPACTION_MOVE (R308). -/
def execCompactionMove (slice : Nat) (s : State) : Host.Outcome State Fault Refusal :=
  conclude (if sliceWorks s slice then startMove s slice else s)

/-- SHADOW_RECORD (R409), and a part of a keeper's image (R372, log 36). -/
def execShadowRecord (src dst : Nat) (s : State) : Host.Outcome State Fault Refusal :=
  arrives s src dst 0 fun t b => match b with
    | .shadowRecord r => some (takeShadow t src r)
    | .imageRequest h a len part d => some (takeImage t src h a len part d)
    | _ => none

/-- SHADOW_RECORD_WRITTEN (R408), and the answer to a part of a keeper's image (R372, log 36). -/
def execShadowRecordWritten (src dst : Nat) (s : State) : Host.Outcome State Fault Refusal :=
  arrives s src dst 1 fun t b => match b with
    | .shadowWritten h _ => some (shadowWrittenArrives t dst h)
    | .imagePart h part bad d => homeMsg t dst h b fun u => keeperPart u h dst part bad d
    | _ => none

end Sys2Proof.Machine
end

