-- ==== Sys2Proof/Machine/Operations.lean ====
section
/-!
DEFINITION. The operations of Table 3.4, each a record written to an op window: what its entry station does with it follows
from its opcode; and the other accesses to a station aperture.
-/

namespace Sys2Proof.Machine

/-- An operation is presented at its port. -/
def operation (op : Opcode) (r : OpRec) (s : State) : Host.Outcome State Fault Refusal := conclude (submit s op r)

/-- NOP (R105). -/
def execNop (r : OpRec) (s : State) : Host.Outcome State Fault Refusal := operation .nop r s

/-- CANCEL (R105). -/
def execCancel (r : OpRec) (s : State) : Host.Outcome State Fault Refusal := operation .cancel r s

/-- DESTROY (R105). -/
def execDestroy (r : OpRec) (s : State) : Host.Outcome State Fault Refusal := operation .destroy r s

/-- CTR_CREATE (R153). -/
def execCtrCreate (r : OpRec) (s : State) : Host.Outcome State Fault Refusal := operation .ctrCreate r s

/-- CTR_ADD (R140). -/
def execCtrAdd (r : OpRec) (s : State) : Host.Outcome State Fault Refusal := operation .ctrAdd r s

/-- CTR_SUB (R140). -/
def execCtrSub (r : OpRec) (s : State) : Host.Outcome State Fault Refusal := operation .ctrSub r s

/-- CTR_SET (R141). -/
def execCtrSet (r : OpRec) (s : State) : Host.Outcome State Fault Refusal := operation .ctrSet r s

/-- CTR_READ (R141). -/
def execCtrRead (r : OpRec) (s : State) : Host.Outcome State Fault Refusal := operation .ctrRead r s

/-- CTR_ACQUIRE (R147). -/
def execCtrAcquire (r : OpRec) (s : State) : Host.Outcome State Fault Refusal := operation .ctrAcquire r s

/-- CTR_WAIT_GE (R147). -/
def execCtrWaitGe (r : OpRec) (s : State) : Host.Outcome State Fault Refusal := operation .ctrWaitGe r s

/-- WEIR_CREATE (R163). -/
def execWeirCreate (r : OpRec) (s : State) : Host.Outcome State Fault Refusal := operation .weirCreate r s

/-- WEIR_ARRIVE (R165). -/
def execWeirArrive (r : OpRec) (s : State) : Host.Outcome State Fault Refusal := operation .weirArrive r s

/-- WEIR_WAIT (R172). -/
def execWeirWait (r : OpRec) (s : State) : Host.Outcome State Fault Refusal := operation .weirWait r s

/-- WEIR_ARRIVE_WAIT (R172). -/
def execWeirArriveWait (r : OpRec) (s : State) : Host.Outcome State Fault Refusal := operation .weirArriveWait r s

/-- WEIR_READ (R174). -/
def execWeirRead (r : OpRec) (s : State) : Host.Outcome State Fault Refusal := operation .weirRead r s

/-- WEIR_POLICY (R175). -/
def execWeirPolicy (r : OpRec) (s : State) : Host.Outcome State Fault Refusal := operation .weirPolicy r s

/-- LAND_CREATE (R226). -/
def execLandCreate (r : OpRec) (s : State) : Host.Outcome State Fault Refusal := operation .landCreate r s

/-- LAND_EXPECT (R227). -/
def execLandExpect (r : OpRec) (s : State) : Host.Outcome State Fault Refusal := operation .landExpect r s

/-- LAND_WAIT (R228). -/
def execLandWait (r : OpRec) (s : State) : Host.Outcome State Fault Refusal := operation .landWait r s

/-- LAND_READ (R226). -/
def execLandRead (r : OpRec) (s : State) : Host.Outcome State Fault Refusal := operation .landRead r s

/-- LAND_SEAL (R234). -/
def execLandSeal (r : OpRec) (s : State) : Host.Outcome State Fault Refusal := operation .landSeal r s

/-- LAND_RENEW (R240). -/
def execLandRenew (r : OpRec) (s : State) : Host.Outcome State Fault Refusal := operation .landRenew r s

/-- Q_CREATE (R287). -/
def execQCreate (r : OpRec) (s : State) : Host.Outcome State Fault Refusal := operation .qCreate r s

/-- Q_PUSH (R266). -/
def execQPush (r : OpRec) (s : State) : Host.Outcome State Fault Refusal := operation .qPush r s

/-- Q_POP (R268). -/
def execQPop (r : OpRec) (s : State) : Host.Outcome State Fault Refusal := operation .qPop r s

/-- Q_MARK (R271). -/
def execQMark (r : OpRec) (s : State) : Host.Outcome State Fault Refusal := operation .qMark r s

/-- Q_REWIND (R272). -/
def execQRewind (r : OpRec) (s : State) : Host.Outcome State Fault Refusal := operation .qRewind r s

/-- Q_RELEASE (R273). -/
def execQRelease (r : OpRec) (s : State) : Host.Outcome State Fault Refusal := operation .qRelease r s

/-- Q_TOLL (R263). -/
def execQToll (r : OpRec) (s : State) : Host.Outcome State Fault Refusal := operation .qToll r s

/-- Q_READ (R265). -/
def execQRead (r : OpRec) (s : State) : Host.Outcome State Fault Refusal := operation .qRead r s

/-- Q_POLICY (R274). -/
def execQPolicy (r : OpRec) (s : State) : Host.Outcome State Fault Refusal := operation .qPolicy r s

/-- FR_CREATE (R321). -/
def execFrCreate (r : OpRec) (s : State) : Host.Outcome State Fault Refusal := operation .frCreate r s

/-- FR_ARM (R326). -/
def execFrArm (r : OpRec) (s : State) : Host.Outcome State Fault Refusal := operation .frArm r s

/-- FR_DISARM (R326). -/
def execFrDisarm (r : OpRec) (s : State) : Host.Outcome State Fault Refusal := operation .frDisarm r s

/-- FR_READ (R333). -/
def execFrRead (r : OpRec) (s : State) : Host.Outcome State Fault Refusal := operation .frRead r s

/-- LOAD_REPORT (R331). -/
def execLoadReport (r : OpRec) (s : State) : Host.Outcome State Fault Refusal := operation .loadReport r s

/-- SK_CREATE (R368). -/
def execSkCreate (r : OpRec) (s : State) : Host.Outcome State Fault Refusal := operation .skCreate r s

/-- SK_REPORT (R358). -/
def execSkReport (r : OpRec) (s : State) : Host.Outcome State Fault Refusal := operation .skReport r s

/-- SK_READ (R369). -/
def execSkRead (r : OpRec) (s : State) : Host.Outcome State Fault Refusal := operation .skRead r s

/-- SK_EXPORT (R372). -/
def execSkExport (r : OpRec) (s : State) : Host.Outcome State Fault Refusal := operation .skExport r s

/-- SK_IMPORT (R372). -/
def execSkImport (r : OpRec) (s : State) : Host.Outcome State Fault Refusal := operation .skImport r s

/-- SK_POLICY (R370). -/
def execSkPolicy (r : OpRec) (s : State) : Host.Outcome State Fault Refusal := operation .skPolicy r s

/-- BCN_CREATE (R134). -/
def execBcnCreate (r : OpRec) (s : State) : Host.Outcome State Fault Refusal := operation .bcnCreate r s

/-- BCN_WRITE (R135). -/
def execBcnWrite (r : OpRec) (s : State) : Host.Outcome State Fault Refusal := operation .bcnWrite r s

/-- BCN_READ (R124). -/
def execBcnRead (r : OpRec) (s : State) : Host.Outcome State Fault Refusal := operation .bcnRead r s

/-- BEACON_READ (R126). -/
def execBeaconRead (a : ApertureRead) (s : State) : Host.Outcome State Fault Refusal := conclude (beaconReads s a)

/-- APERTURE_ERROR (R96, R521, Table 16.1). -/
def execApertureError (n : Nat) (aux : Bool) (initId xtag : BitVec 12) (why : AccessFault) (s : State) :
    Host.Outcome State Fault Refusal :=
  conclude (apertureFails s ⟨n, aux, initId, xtag, why⟩)

end Sys2Proof.Machine
end

