-- ==== Sys2Proof/Machine/Placement.lean ====
section
/-!
DEFINITION. Course messages and deadlines of fire rules, load digests and migration (chapter 10).
-/

namespace Sys2Proof.Machine

/-! ## Inputs and targets -/

/-- REGISTER (R321). -/
def execRegister (src dst : Nat) (s : State) : Host.Outcome State Fault Refusal :=
  arrives s src dst 0 fun t b => match b with
    | .register h slot threshold step rule => homeMsg t dst h b fun u => registerWatch u dst h slot threshold step rule
    | _ => none

/-- FEED_REGISTER (R321): a target queue takes a feed record, an arrive target is validated. -/
def execFeedRegister (src dst : Nat) (s : State) : Host.Outcome State Fault Refusal :=
  arrives s src dst 0 fun t b => match b with
    | .feedRegister h rule => homeMsg t dst h b fun u => registerFeed u dst h rule
    | .validate h agent rule => homeMsg t dst h b fun u => validateArrive u dst h agent rule
    | _ => none

/-- ACTIVATE (R326). -/
def execActivate (src dst : Nat) (s : State) : Host.Outcome State Fault Refusal :=
  arrives s src dst 0 fun t b => match b with
    | .activate h rule slot seq => homeMsg t dst h b fun u => onWatch u dst h rule slot (activateWatch seq)
    | _ => none

/-- DEACTIVATE (R326). -/
def execDeactivate (src dst : Nat) (s : State) : Host.Outcome State Fault Refusal :=
  arrives s src dst 0 fun t b => match b with
    | .deactivate h rule slot => homeMsg t dst h b fun u => onWatch u dst h rule slot deactivateWatch
    | _ => none

/-- CONSUME (R324). -/
def execConsume (src dst : Nat) (s : State) : Host.Outcome State Fault Refusal :=
  arrives s src dst 0 fun t b => match b with
    | .consume h rule slot seq => homeMsg t dst h b fun u => onWatch u dst h rule slot (consumeWatch false seq)
    | _ => none

/-- CONSUME_DORMANT (R324). -/
def execConsumeDormant (src dst : Nat) (s : State) : Host.Outcome State Fault Refusal :=
  arrives s src dst 0 fun t b => match b with
    | .consumeDormant h rule slot seq => homeMsg t dst h b fun u => onWatch u dst h rule slot (consumeWatch true seq)
    | _ => none

/-- RELEASE_WATCH (R330). -/
def execReleaseWatch (src dst : Nat) (s : State) : Host.Outcome State Fault Refusal :=
  arrives s src dst 0 fun t b => match b with
    | .releaseWatch h rule slot feed => homeMsg t dst h b fun u => releaseWatchAt u dst h rule slot feed
    | _ => none

/-- FEED_PUSH (R317). -/
def execFeedPush (src dst : Nat) (s : State) : Host.Outcome State Fault Refusal :=
  arrives s src dst 0 fun t b => match b with
    | .feedPush h rule token => homeMsg t dst h b fun u => feedArrives u dst h rule token
    | _ => none

/-! ## The rule's home -/

/-- REGISTERED (R321). -/
def execRegistered (src dst : Nat) (s : State) : Host.Outcome State Fault Refusal :=
  arrives s src dst 0 fun t b => match b with
    | .registered h refusal slot sender feed => homeMsg t dst h b fun u => ruleRegistered u dst h refusal slot sender feed
    | _ => none

/-- RELEASED (R330). -/
def execReleased (src dst : Nat) (s : State) : Host.Outcome State Fault Refusal :=
  arrives s src dst 0 fun t b => match b with
    | .released h => homeMsg t dst h b fun u => ruleReleased u dst h
    | _ => none

/-- MET (R324). -/
def execMet (src dst : Nat) (s : State) : Host.Outcome State Fault Refusal :=
  arrives s src dst 0 fun t b => match b with
    | .met h slot seq => ruleMsg t dst h b fun u o r => ruleMet u dst o r slot seq
    | _ => none

/-- LAPSED (R327). -/
def execLapsed (src dst : Nat) (s : State) : Host.Outcome State Fault Refusal :=
  arrives s src dst 0 fun t b => match b with
    | .lapsed h slot feed st => ruleMsg t dst h b fun u o r => ruleLapses u dst o r slot feed st
    | _ => none

/-- PUSHED (R316). -/
def execPushed (src dst : Nat) (s : State) : Host.Outcome State Fault Refusal :=
  arrives s src dst 0 fun t b => match b with
    | .pushed h st => ruleMsg t dst h b fun u o r => rulePushed u dst o r st
    | _ => none

/-- LAUNCH (R329). -/
def execLaunch (src dst : Nat) (s : State) : Host.Outcome State Fault Refusal :=
  arrives s src dst 0 fun t b => match b with
    | .launch rule engine scope seq d => some (launchArrives t dst rule engine scope seq d)
    | _ => none

/-- LAUNCH_ANSWER (R318, R329). -/
def execLaunchAnswer (src dst : Nat) (s : State) : Host.Outcome State Fault Refusal :=
  arrives s src dst 1 fun t b => match b with
    | .launchAnswer h st engine => ruleMsg t dst h b fun u o r => actionAnswered u dst o r st engine
    | _ => none

/-- ARRIVE_ACTION (R318). -/
def execArriveAction (src dst : Nat) (s : State) : Host.Outcome State Fault Refusal :=
  arrives s src dst 0 fun t b => match b with
    | .arrive rule weir agent e release scope =>
      some (homeStep t dst (Handle.hi weir) fun u => arriveActs u dst rule weir agent e release scope)
    | _ => none

/-- A rule that waits to send its arrival again. -/
def Body.arriveWaits : Body → Bool
  | .rule r => r.state == 2 && r.retry
  | _ => false

/-- ARRIVE_RETRY (R318). -/
def execArriveRetry (n index : Nat) (s : State) : Host.Outcome State Fault Refusal :=
  conclude (deadlineAt s n (dueAt s n index Body.arriveWaits) fun t => arriveAgain t n index)

/-! ## Load digests -/

/-- LOAD_SUBSCRIBE (R331). -/
def execLoadSubscribe (src dst : Nat) (s : State) : Host.Outcome State Fault Refusal :=
  arrives s src dst 0 fun t b => match b with
    | .loadSubscribe on => some (subscribeLoads t dst src on)
    | _ => none

/-- DIGEST_PERIOD (R331). -/
def execDigestPeriod (n : Nat) (s : State) : Host.Outcome State Fault Refusal :=
  conclude (deadlineAt s n (!(station s n).digestDue.isEmpty) fun t => sendDigests t n)

/-- DIGEST (R331). -/
def execDigest (src dst : Nat) (s : State) : Host.Outcome State Fault Refusal :=
  arrives s src dst 0 fun t b => match b with
    | .digest first loads => some (digestArrives t dst src first loads)
    | _ => none

/-! ## Migration -/

/-- MIGRATE_WINDOW_END (R343). -/
def execMigrateWindowEnd (n : Nat) (s : State) : Host.Outcome State Fault Refusal :=
  conclude (newWindow (deadlineAt s n (setting s 0x2A0400 != 0 && !(station s n).objects.isEmpty) fun t => windowEnds t n) n)

/-- MIGRATION_COPY (R344, R594): a copy segment of an object, or of a drained station's roles; the last completes the copy. -/
def execMigrationCopy (src dst : Nat) (s : State) : Host.Outcome State Fault Refusal :=
  arrives s src dst 0 fun t b => match b with
    | .copy c h segment last => some (if segment = last then copyArrives t dst src c h else t)
    | .roles n segment last => some (rolesArrive t dst n segment last)
    | _ => none

/-- COPY_ACCEPTED (R344): the answer to a copy, accepted or refused. -/
def execCopyAccepted (src dst : Nat) (s : State) : Host.Outcome State Fault Refusal :=
  arrives s src dst 1 fun t b => match b with
    | .copyAnswer _ accepted => some (copyAnswered t dst accepted)
    | .rolesTaken n => some (if n = dst then rolesAcked t n else t)
    | _ => none

/-- REBIND (R346). -/
def execRebind (src dst : Nat) (s : State) : Host.Outcome State Fault Refusal :=
  arrives s src dst 3 fun t b => match b with
    | .rebind h oldRef newRef newHome => some (rebindArrives t dst src h oldRef newRef newHome)
    | _ => none

/-- REBIND_ACK (R344). -/
def execRebindAck (src dst : Nat) (s : State) : Host.Outcome State Fault Refusal :=
  arrives s src dst 0 fun t b => match b with
    | .rebindAck _ => some (rebindAcked t dst src)
    | _ => none

/-- MIGRATION_COMMIT (R344). -/
def execMigrationCommit (n : Nat) (s : State) : Host.Outcome State Fault Refusal :=
  conclude (deadlineAt s n ((station s n).outgoing.any fun m => m.step == 4) fun t => commitMigration t n)

/-- FLUSH (R345). -/
def execFlush (src dst : Nat) (s : State) : Host.Outcome State Fault Refusal :=
  arrives s src dst 0 fun t b => match b with
    | .flush _ => some (flushArrives t dst src)
    | _ => none

/-- FORWARD_DONE (R345). -/
def execForwardDone (src dst : Nat) (s : State) : Host.Outcome State Fault Refusal :=
  arrives s src dst 0 fun t b => match b with
    | .forwardDone _ => some (forwardDoneArrives t dst src)
    | _ => none

end Sys2Proof.Machine
end

