-- ==== Sys2Proof/Machine/Window.lean ====
section
/-!
DEFINITION. The register window (R500, Table 15.9): its registers at the wp port, the commands that a write of WIN_CMD starts,
and the pending events that drive its interrupt.
-/

namespace Sys2Proof.Machine

/-- Events not yet acknowledged by the window host (Table 15.9, R511). -/
def windowPending (s : State) : Nat :=
  match slotOf s 0x200 with
  | some (_, x) => min 0xFFFF (s.log.filter fun e => decide (x.next ≤ e.seq) && x.wants e).length
  | none => 0

/-- Whether wp0_irq is driven. -/
def windowIrq (s : State) : Bool := s.window.irqEnable && windowPending s != 0 && !s.power.clamp

/-- The first bytes of the data area; a byte never written is zero. -/
def Window.bytes (w : Window) (n : Nat) : List Byte := (List.range (min n 1024)).map fun k => w.data.getD k 0

/-- The entry and range that the registers name. -/
def Window.entry (w : Window) : EntryRef := ⟨w.index, w.subindex, w.offset.toNat, w.length.toNat⟩

/-- What the window shows at a byte address, a multiple of 4. -/
def windowRead (s : State) (addr : Nat) : Nat :=
  let w := s.window
  match addr with
  | 0x000 => field 1 31 (flag w.go) + w.command.toNat
  | 0x004 => field 8 8 w.result.toNat
  | 0x008 => field 16 16 w.index.toNat + field 8 8 w.subindex.toNat
  | 0x00C => w.offset.toNat
  | 0x010 => w.length.toNat
  | 0x014 => w.epoch.toNat
  | 0x018 => w.arg0.toNat
  | 0x01C => w.arg1.toNat
  | 0x020 => field 1 31 (flag w.irqEnable) + windowPending s
  | _ => if 0x400 ≤ addr ∧ addr ≤ 0x7FC then ofBytesLE ((w.bytes 1024).drop (addr - 0x400) |>.take 4) else 0

/-- A command of the window (R500): the vendor message of its code, with the registers as its operands, which it leaves as
they are but for those that carry its answer. A mask of SUBSCRIBE stands in the first 16 bytes of the data area (DEDUCED, log
entry 78). -/
def windowCommand (s : State) (code : Nat) : State :=
  let w := s.window
  let q : HostReq := ⟨0x200, w.epoch.toNat⟩
  match code with
  | 0x01 => reads s q w.entry
  | 0x02 => writes s q w.entry (w.bytes w.length.toNat)
  | 0x10 => claims s 0x200 (w.arg0.toNat % 256) w.arg1.toNat
  | 0x11 => renews s q
  | 0x12 => releases s q
  | 0x13 => hands s q (w.arg0.toNat % 65536)
  | 0x14 => accepts s 0x200 (w.arg0.toNat % 65536)
  | 0x20 => subscribes s 0x200 (BitVec.ofNat 128 (ofBytesLE (w.bytes 16)))
  | 0x21 => fetches s
  | 0x22 => acknowledges s 0x200 w.arg0.toNat
  | _ => admitRequest s 0x200 code id false fun t => answerHost t 0x200 code .badCommand []

/-- The registers change. -/
def onWindow (s : State) (f : Window → Window) : State := { s with window := f s.window }

/-- Four bytes of the data area are written, the least significant at the lowest address (DEDUCED, log entry 78). -/
def Window.putData (w : Window) (at_ : Nat) (v : Nat) : Window :=
  { w with data := (w.bytes 1024).take at_ ++ bytesLE 4 v ++ (w.bytes 1024).drop (at_ + 4) }

/-- A write at a byte address: WIN_CMD with go set starts the command unless one runs; read-only and reserved fields and
unnamed addresses take nothing. -/
def windowWrite (s : State) (addr : Nat) (v : BitVec 32) : State :=
  match addr with
  | 0x000 =>
    if s.window.go then s
    else
      let code := bits v 7 0
      let t := if bit v 31 then windowCommand s code else s
      onWindow t fun x => { x with command := BitVec.ofNat 8 code, arg0 := s.window.arg0 }
  | 0x008 => onWindow s fun x => { x with index := BitVec.ofNat 16 (bits v 31 16), subindex := BitVec.ofNat 8 (bits v 15 8) }
  | 0x00C => onWindow s fun x => { x with offset := v }
  | 0x010 => onWindow s fun x => { x with length := BitVec.ofNat 11 (bits v 10 0) }
  | 0x014 => onWindow s fun x => { x with epoch := v }
  | 0x018 => onWindow s fun x => { x with arg0 := v }
  | 0x01C => onWindow s fun x => { x with arg1 := v }
  | 0x020 => onWindow s fun x => { x with irqEnable := bit v 31 }
  | _ => if 0x400 ≤ addr ∧ addr ≤ 0x7FC then onWindow s fun x => x.putData (addr - 0x400) v.toNat else s

/-- An access completes with wp0_ack, and a read with its data on wp0_rdata (Table 16.11). -/
def windowAck (s : State) (v : Nat) : State := drive s [.windowAck (BitVec.ofNat 32 v)]

/-- The window host reads a register at the wp port; in always-on reset that has no effect (R553). -/
def windowReads (s : State) (a : BitVec 9) : State :=
  if s.power.phase = 1 then s else windowAck s (windowRead s (4 * a.toNat))

/-- The window host writes a register at the wp port: a command that the write starts runs after the handshake (R545). -/
def windowStores (s : State) (a : BitVec 9) (v : BitVec 32) : State :=
  if s.power.phase = 1 then s else windowWrite (windowAck s 0) (4 * a.toNat) v

end Sys2Proof.Machine
end

