-- ==== Sys2Proof/Machine/Requests.lean ====
section
/-!
DEFINITION. Requests of management hosts: dictionary accesses, ownership, events, debug access and online service (chapters
02, 15, 17 and 18), the MCTP transport, and what ends a request's work. A command that is the write of one entry is that
write, so that it has every check of a write.
-/

namespace Sys2Proof.Machine

/-! ## Dictionary accesses and functions -/

/-- READ (R489), or a read of one of the register window's registers (R500). -/
def execRead (q : HostReq) (e : AccessAt) (s : State) : Host.Outcome State Fault Refusal :=
  match e with
  | .entry x => fromHost s q.host fun t => reads t q x
  | .register k => conclude (windowReads s k)

/-- WRITE (R491), or a write of one of the register window's registers (R500). -/
def execWrite (q : HostReq) (e : AccessAt) (data : List Byte) (s : State) : Host.Outcome State Fault Refusal :=
  match e with
  | .entry x => fromHost s q.host fun t => writes t q x data
  | .register k => conclude (windowStores s k (BitVec.ofNat 32 (ofBytesLE data)))

/-- ENABLE (R92): ENABLED to fn_state. -/
def execEnable (q : HostReq) (fn : BitVec 12) (s : State) : Host.Outcome State Fault Refusal :=
  fromHost s q.host fun t => writesNumber t q (0x3000 + fn.toNat) 0x01 1 1

/-- DISABLE (R92): DISABLED to fn_state. -/
def execDisable (q : HostReq) (fn : BitVec 12) (s : State) : Host.Outcome State Fault Refusal :=
  fromHost s q.host fun t => writesNumber t q (0x3000 + fn.toNat) 0x01 1 0

/-- SHARE_WRITE (R76): share_rate or share_burst. -/
def execShareWrite (q : HostReq) (fn : BitVec 12) (burst : Bool) (value : BitVec 8) (s : State) :
    Host.Outcome State Fault Refusal :=
  fromHost s q.host fun t => writesNumber t q (0x3000 + fn.toNat) (if burst then 0x05 else 0x04) 1 value.toNat

/-- DRAIN_STEP_DONE (R457). -/
def execDrainStepDone (fn : BitVec 12) (s : State) : Host.Outcome State Fault Refusal := conclude (drainStep s fn.toNat)

/-- FLIGHT_WAIT_END (R457). -/
def execFlightWaitEnd (fn : BitVec 12) (s : State) : Host.Outcome State Fault Refusal := conclude (flightEnds s fn.toNat)

/-- SLICE_DRAIN_DONE (R310). -/
def execSliceDrainDone (slice : Nat) (fn : BitVec 12) (s : State) : Host.Outcome State Fault Refusal :=
  conclude (sliceReports s slice fn.toNat)

/-! ## MCTP -/

/-- MCTP_PACKET (R497). -/
def execMctpPacket (bytes : List Byte) (s : State) : Host.Outcome State Fault Refusal := conclude (packetArrives s bytes)

/-- SET_ENDPOINT_ID (R498). -/
def execSetEndpointId (c : MctpCtl) (eid : BitVec 8) (s : State) : Host.Outcome State Fault Refusal :=
  conclude (setsEndpoint s c eid.toNat)

/-- GET_ENDPOINT_ID (R496). -/
def execGetEndpointId (c : MctpCtl) (s : State) : Host.Outcome State Fault Refusal := conclude (givesEndpoint s c)

/-- GET_ENDPOINT_UUID (R498). -/
def execGetEndpointUuid (c : MctpCtl) (s : State) : Host.Outcome State Fault Refusal := conclude (givesUuid s c)

/-- GET_MCTP_VERSION_SUPPORT (R496). -/
def execGetMctpVersionSupport (c : MctpCtl) (messageType : BitVec 8) (s : State) : Host.Outcome State Fault Refusal :=
  conclude (givesVersion s c messageType.toNat)

/-- GET_MESSAGE_TYPE_SUPPORT (R496). -/
def execGetMessageTypeSupport (c : MctpCtl) (s : State) : Host.Outcome State Fault Refusal := conclude (givesTypes s c)

/-- GET_VENDOR_DEFINED_MESSAGE_SUPPORT (R496). -/
def execGetVendorDefinedMessageSupport (c : MctpCtl) (selector : BitVec 8) (s : State) :
    Host.Outcome State Fault Refusal :=
  conclude (givesVendor s c selector.toNat)

/-- MP_PRIVATE_READ (R543). -/
def execMpPrivateRead (lastTaken : Bool) (s : State) : Host.Outcome State Fault Refusal :=
  conclude (privateReadEnds s lastTaken)

/-- IBI_ANSWER (R544). -/
def execIbiAnswer (accepted : Bool) (s : State) : Host.Outcome State Fault Refusal := conclude (ibiAnswered s accepted)

/-- IBI_RETRY (R544). -/
def execIbiRetry (s : State) : Host.Outcome State Fault Refusal := conclude (ibiAgain s)

/-! ## Ownership -/

/-- CLAIM (R502). -/
def execClaim (host : Nat) (priority : BitVec 8) (nonce : BitVec 32) (s : State) : Host.Outcome State Fault Refusal :=
  fromHost s host fun t => claims t host priority.toNat nonce.toNat

/-- CLAIM_WINDOW_END (R502). -/
def execClaimWindowEnd (s : State) : Host.Outcome State Fault Refusal := conclude (electionEnds s)

/-- RENEW (R502). -/
def execRenew (q : HostReq) (s : State) : Host.Outcome State Fault Refusal := fromHost s q.host fun t => renews t q

/-- RELEASE (R502). -/
def execRelease (q : HostReq) (s : State) : Host.Outcome State Fault Refusal := fromHost s q.host fun t => releases t q

/-- HANDOVER (R502). -/
def execHandover (q : HostReq) (target : Nat) (s : State) : Host.Outcome State Fault Refusal :=
  fromHost s q.host fun t => hands t q target

/-- ACCEPT (R502). -/
def execAccept (host offering : Nat) (s : State) : Host.Outcome State Fault Refusal :=
  fromHost s host fun t => accepts t host offering

/-- LEASE_EXPIRY (R502). -/
def execLeaseExpiry (s : State) : Host.Outcome State Fault Refusal := conclude (leaseEnds s)

/-- HANDOVER_DEADLINE (R502). -/
def execHandoverDeadline (s : State) : Host.Outcome State Fault Refusal := conclude (handoverEnds s)

/-! ## Events -/

/-- SUBSCRIBE (R509). -/
def execSubscribe (host : Nat) (mask : BitVec 128) (s : State) : Host.Outcome State Fault Refusal :=
  fromHost s host fun t => subscribes t host mask

/-- EVENT (R500): the register window's host fetches its oldest event. -/
def execEvent (s : State) : Host.Outcome State Fault Refusal := conclude (fetches s)

/-- EVENT_ACK (R512). -/
def execEventAck (host : Nat) (sequence : BitVec 32) (s : State) : Host.Outcome State Fault Refusal :=
  fromHost s host fun t => acknowledges t host sequence.toNat

/-- EVENT_SEND (R511). -/
def execEventSend (host : Nat) (s : State) : Host.Outcome State Fault Refusal := conclude (sendsEvent s host)

/-- EVENT_RETRY (R512). -/
def execEventRetry (host : Nat) (s : State) : Host.Outcome State Fault Refusal := conclude (retriesEvent s host)

/-! ## Debug access -/

/-- UNLOCK (R513): UNLOCK to debug_command. -/
def execUnlock (q : HostReq) (s : State) : Host.Outcome State Fault Refusal :=
  fromHost s q.host fun t => writesNumber t q 0x2008 0x00 1 0

/-- UNLOCK_INSTRUCTION (R513): the test port's lock instrument, which needs no owner. -/
def execUnlockInstruction (s : State) : Host.Outcome State Fault Refusal := conclude (unlocks s 0xFFFF)

/-- LOCK (R516): LOCK to debug_command. -/
def execLock (q : HostReq) (s : State) : Host.Outcome State Fault Refusal :=
  fromHost s q.host fun t => writesNumber t q 0x2008 0x00 1 1

/-- LOCK_INSTRUCTION (R516). -/
def execLockInstruction (s : State) : Host.Outcome State Fault Refusal := conclude (locks s)

/-! ## Recovery requests -/

/-- PARTITION_FREEZE (R612): FROZEN to partition_state. -/
def execPartitionFreeze (q : HostReq) (partition : BitVec 6) (s : State) : Host.Outcome State Fault Refusal :=
  fromHost s q.host fun t => writesNumber t q 0x2E07 partition.toNat 1 1

/-- PARTITION_READY (R612): READY to partition_state. -/
def execPartitionReady (q : HostReq) (partition : BitVec 6) (s : State) : Host.Outcome State Fault Refusal :=
  fromHost s q.host fun t => writesNumber t q 0x2E07 partition.toNat 1 0

/-- A core_command of the owner: kind, a zero byte, and the physical core. -/
def coreRequest (kind : Nat) (q : HostReq) (phys : BitVec 12) (s : State) : Host.Outcome State Fault Refusal :=
  fromHost s q.host fun t => writesNumber t q 0x2E0A 0x04 4 (kind + 2 ^ 16 * phys.toNat)

/-- INTERFACE_RESET (R463). -/
def execInterfaceReset (q : HostReq) (phys : BitVec 12) (s : State) : Host.Outcome State Fault Refusal :=
  coreRequest 1 q phys s

/-- FENCE (R473). -/
def execFence (q : HostReq) (phys : BitVec 12) (s : State) : Host.Outcome State Fault Refusal := coreRequest 2 q phys s

/-- UNFENCE (R474). -/
def execUnfence (q : HostReq) (phys : BitVec 12) (s : State) : Host.Outcome State Fault Refusal := coreRequest 3 q phys s

/-- RESET (R481): engine_command RESET. -/
def execReset (q : HostReq) (s : State) : Host.Outcome State Fault Refusal :=
  fromHost s q.host fun t => writesNumber t q 0x2E08 0x06 1 0

/-- CLEAR_OOS (R477): engine_command CLEAR_OOS. -/
def execClearOos (q : HostReq) (s : State) : Host.Outcome State Fault Refusal :=
  fromHost s q.host fun t => writesNumber t q 0x2E08 0x06 1 1

/-- RESTART (R605): mc_command RESTART. -/
def execRestart (q : HostReq) (s : State) : Host.Outcome State Fault Refusal :=
  fromHost s q.host fun t => writesNumber t q 0x4120 0x00 1 0

/-! ## Online service -/

/-- A service_command of the owner: kind, number, action and a zero byte (R592). -/
def serviceRequest (action : Nat) (q : HostReq) (kind number : BitVec 8) (s : State) : Host.Outcome State Fault Refusal :=
  fromHost s q.host fun t => writesNumber t q 0x4110 0x00 4 (kind.toNat + 2 ^ 8 * number.toNat + 2 ^ 16 * action)

/-- DRAIN (R594). -/
def execDrain (q : HostReq) (kind number : BitVec 8) (s : State) : Host.Outcome State Fault Refusal :=
  serviceRequest 1 q kind number s

/-- TEST (R603). -/
def execTest (q : HostReq) (kind number : BitVec 8) (s : State) : Host.Outcome State Fault Refusal :=
  serviceRequest 2 q kind number s

/-- RETURN (R596). -/
def execReturn (q : HostReq) (kind number : BitVec 8) (s : State) : Host.Outcome State Fault Refusal :=
  serviceRequest 3 q kind number s

/-- POWER_OFF (R598). -/
def execPowerOff (q : HostReq) (kind number : BitVec 8) (s : State) : Host.Outcome State Fault Refusal :=
  serviceRequest 4 q kind number s

/-- POWER_ON (R565). -/
def execPowerOn (q : HostReq) (kind number : BitVec 8) (s : State) : Host.Outcome State Fault Refusal :=
  serviceRequest 5 q kind number s

/-- SERVICE_STEP_DONE (R594); `failing` is a test's result. -/
def execServiceStepDone (failing : BitVec 8) (s : State) : Host.Outcome State Fault Refusal :=
  conclude (stepDone s failing.toNat)

/-- SERVICE_STEP_TIMEOUT (R592). -/
def execServiceStepTimeout (s : State) : Host.Outcome State Fault Refusal := conclude (stepTimesOut s)

/-- CLEAR (R607): telemetry_command CLEAR. -/
def execClear (q : HostReq) (s : State) : Host.Outcome State Fault Refusal :=
  fromHost s q.host fun t => writesNumber t q 0x4140 0x00 1 0

end Sys2Proof.Machine
end

