-- ==== Sys2Proof/Machine/Dispatch.lean ====
section
/-!
DEFINITION. The effect of each command: one arm for each constructor, a direct call of its meaning.
-/

namespace Sys2Proof.Machine

/-- The command's effect on everything but the queue of waiting commands. -/
def exec (i : Instr) (s : State) : Host.Outcome State Fault Refusal :=
  match i with
  -- operations written to an op window (Table 3.4)
  | .nop r => Sys2Proof.Machine.execNop r s
  | .cancel r => Sys2Proof.Machine.execCancel r s
  | .destroy r => Sys2Proof.Machine.execDestroy r s
  | .ctrCreate r => Sys2Proof.Machine.execCtrCreate r s
  | .ctrAdd r => Sys2Proof.Machine.execCtrAdd r s
  | .ctrSub r => Sys2Proof.Machine.execCtrSub r s
  | .ctrSet r => Sys2Proof.Machine.execCtrSet r s
  | .ctrRead r => Sys2Proof.Machine.execCtrRead r s
  | .ctrAcquire r => Sys2Proof.Machine.execCtrAcquire r s
  | .ctrWaitGe r => Sys2Proof.Machine.execCtrWaitGe r s
  | .weirCreate r => Sys2Proof.Machine.execWeirCreate r s
  | .weirArrive r => Sys2Proof.Machine.execWeirArrive r s
  | .weirWait r => Sys2Proof.Machine.execWeirWait r s
  | .weirArriveWait r => Sys2Proof.Machine.execWeirArriveWait r s
  | .weirRead r => Sys2Proof.Machine.execWeirRead r s
  | .weirPolicy r => Sys2Proof.Machine.execWeirPolicy r s
  | .landCreate r => Sys2Proof.Machine.execLandCreate r s
  | .landExpect r => Sys2Proof.Machine.execLandExpect r s
  | .landWait r => Sys2Proof.Machine.execLandWait r s
  | .landRead r => Sys2Proof.Machine.execLandRead r s
  | .landSeal r => Sys2Proof.Machine.execLandSeal r s
  | .landRenew r => Sys2Proof.Machine.execLandRenew r s
  | .qCreate r => Sys2Proof.Machine.execQCreate r s
  | .qPush r => Sys2Proof.Machine.execQPush r s
  | .qPop r => Sys2Proof.Machine.execQPop r s
  | .qMark r => Sys2Proof.Machine.execQMark r s
  | .qRewind r => Sys2Proof.Machine.execQRewind r s
  | .qRelease r => Sys2Proof.Machine.execQRelease r s
  | .qToll r => Sys2Proof.Machine.execQToll r s
  | .qRead r => Sys2Proof.Machine.execQRead r s
  | .qPolicy r => Sys2Proof.Machine.execQPolicy r s
  | .frCreate r => Sys2Proof.Machine.execFrCreate r s
  | .frArm r => Sys2Proof.Machine.execFrArm r s
  | .frDisarm r => Sys2Proof.Machine.execFrDisarm r s
  | .frRead r => Sys2Proof.Machine.execFrRead r s
  | .loadReport r => Sys2Proof.Machine.execLoadReport r s
  | .skCreate r => Sys2Proof.Machine.execSkCreate r s
  | .skReport r => Sys2Proof.Machine.execSkReport r s
  | .skRead r => Sys2Proof.Machine.execSkRead r s
  | .skExport r => Sys2Proof.Machine.execSkExport r s
  | .skImport r => Sys2Proof.Machine.execSkImport r s
  | .skPolicy r => Sys2Proof.Machine.execSkPolicy r s
  | .bcnCreate r => Sys2Proof.Machine.execBcnCreate r s
  | .bcnWrite r => Sys2Proof.Machine.execBcnWrite r s
  | .bcnRead r => Sys2Proof.Machine.execBcnRead r s
  -- other accesses to a station aperture
  | .beaconRead a => Sys2Proof.Machine.execBeaconRead a s
  | .apertureError station aux initId xtag why => Sys2Proof.Machine.execApertureError station aux initId xtag why s
  -- course messages and deadlines of the operation interface
  | .forwardedOperation src dst => Sys2Proof.Machine.execForwardedOperation src dst s
  | .operationResponse src dst => Sys2Proof.Machine.execOperationResponse src dst s
  | .chartCommit src dst => Sys2Proof.Machine.execChartCommit src dst s
  | .wakeRequest src dst => Sys2Proof.Machine.execWakeRequest src dst s
  | .withdrawal src dst => Sys2Proof.Machine.execWithdrawal src dst s
  | .waitTimeout station wait => Sys2Proof.Machine.execWaitTimeout station wait s
  | .pushMessage station => Sys2Proof.Machine.execPushMessage station s
  | .pushCreditReturn station agent beats rsv parityBad => Sys2Proof.Machine.execPushCreditReturn station agent beats rsv parityBad s
  | .beaconUpdate src dst => Sys2Proof.Machine.execBeaconUpdate src dst s
  | .beaconUpdateAck src dst => Sys2Proof.Machine.execBeaconUpdateAck src dst s
  -- weirs
  | .weirSetup src dst => Sys2Proof.Machine.execWeirSetup src dst s
  | .setupAcknowledgement src dst => Sys2Proof.Machine.execSetupAcknowledgement src dst s
  | .combinedArrival src dst => Sys2Proof.Machine.execCombinedArrival src dst s
  | .epochCompletion src dst => Sys2Proof.Machine.execEpochCompletion src dst s
  | .weirSubscribe src dst => Sys2Proof.Machine.execWeirSubscribe src dst s
  | .subscribeReply src dst => Sys2Proof.Machine.execSubscribeReply src dst s
  | .teardown src dst => Sys2Proof.Machine.execTeardown src dst s
  | .teardownAck src dst => Sys2Proof.Machine.execTeardownAck src dst s
  | .hintOverdue station index => Sys2Proof.Machine.execHintOverdue station index s
  | .hintMax station => Sys2Proof.Machine.execHintMax station s
  -- landing counters and seals
  | .landingReport p => Sys2Proof.Machine.execLandingReport p s
  | .reportCredit src dst => Sys2Proof.Machine.execReportCredit src dst s
  | .sealDeposit src dst => Sys2Proof.Machine.execSealDeposit src dst s
  | .sealRelease src dst => Sys2Proof.Machine.execSealRelease src dst s
  | .sealDiscard src dst => Sys2Proof.Machine.execSealDiscard src dst s
  | .sealRegister src dst => Sys2Proof.Machine.execSealRegister src dst s
  | .freeNotice src dst => Sys2Proof.Machine.execFreeNotice src dst s
  -- queues and ferry
  | .idleTimeout station index => Sys2Proof.Machine.execIdleTimeout station index s
  | .spillSegment src dst => Sys2Proof.Machine.execSpillSegment src dst s
  | .spillAccepted src dst => Sys2Proof.Machine.execSpillAccepted src dst s
  | .spillRefused src dst => Sys2Proof.Machine.execSpillRefused src dst s
  | .spillRetry station index => Sys2Proof.Machine.execSpillRetry station index s
  | .refillRequest src dst => Sys2Proof.Machine.execRefillRequest src dst s
  | .refillSegment src dst => Sys2Proof.Machine.execRefillSegment src dst s
  | .reserveExtent src dst => Sys2Proof.Machine.execReserveExtent src dst s
  | .extentReserved src dst => Sys2Proof.Machine.execExtentReserved src dst s
  | .releaseExtent src dst => Sys2Proof.Machine.execReleaseExtent src dst s
  | .ferryIssue slice cls => Sys2Proof.Machine.execFerryIssue slice cls s
  | .xiResponse x => Sys2Proof.Machine.execXiResponse x s
  | .ferrySlow slice tag => Sys2Proof.Machine.execFerrySlow slice tag s
  | .compactionMove slice => Sys2Proof.Machine.execCompactionMove slice s
  | .shadowRecord src dst => Sys2Proof.Machine.execShadowRecord src dst s
  | .shadowRecordWritten src dst => Sys2Proof.Machine.execShadowRecordWritten src dst s
  -- fire rules and placement
  | .register src dst => Sys2Proof.Machine.execRegister src dst s
  | .feedRegister src dst => Sys2Proof.Machine.execFeedRegister src dst s
  | .registered src dst => Sys2Proof.Machine.execRegistered src dst s
  | .activate src dst => Sys2Proof.Machine.execActivate src dst s
  | .deactivate src dst => Sys2Proof.Machine.execDeactivate src dst s
  | .consume src dst => Sys2Proof.Machine.execConsume src dst s
  | .consumeDormant src dst => Sys2Proof.Machine.execConsumeDormant src dst s
  | .releaseWatch src dst => Sys2Proof.Machine.execReleaseWatch src dst s
  | .released src dst => Sys2Proof.Machine.execReleased src dst s
  | .met src dst => Sys2Proof.Machine.execMet src dst s
  | .lapsed src dst => Sys2Proof.Machine.execLapsed src dst s
  | .feedPush src dst => Sys2Proof.Machine.execFeedPush src dst s
  | .pushed src dst => Sys2Proof.Machine.execPushed src dst s
  | .launch src dst => Sys2Proof.Machine.execLaunch src dst s
  | .launchAnswer src dst => Sys2Proof.Machine.execLaunchAnswer src dst s
  | .arriveAction src dst => Sys2Proof.Machine.execArriveAction src dst s
  | .arriveRetry station index => Sys2Proof.Machine.execArriveRetry station index s
  | .loadSubscribe src dst => Sys2Proof.Machine.execLoadSubscribe src dst s
  | .digestPeriod station => Sys2Proof.Machine.execDigestPeriod station s
  | .digest src dst => Sys2Proof.Machine.execDigest src dst s
  | .migrateWindowEnd station => Sys2Proof.Machine.execMigrateWindowEnd station s
  | .migrationCopy src dst => Sys2Proof.Machine.execMigrationCopy src dst s
  | .copyAccepted src dst => Sys2Proof.Machine.execCopyAccepted src dst s
  | .rebind src dst => Sys2Proof.Machine.execRebind src dst s
  | .rebindAck src dst => Sys2Proof.Machine.execRebindAck src dst s
  | .migrationCommit station => Sys2Proof.Machine.execMigrationCommit station s
  | .flush src dst => Sys2Proof.Machine.execFlush src dst s
  | .forwardDone src dst => Sys2Proof.Machine.execForwardDone src dst s
  -- caravans and links
  | .caravanSend port => Sys2Proof.Machine.execCaravanSend port s
  | .ack c => Sys2Proof.Machine.execAck c s
  | .ackDue port => Sys2Proof.Machine.execAckDue port s
  | .retxTimeout port => Sys2Proof.Machine.execRetxTimeout port s
  | .credit c => Sys2Proof.Machine.execCredit c s
  | .resync c => Sys2Proof.Machine.execResync c s
  | .bind u => Sys2Proof.Machine.execBind u s
  | .bindReply u => Sys2Proof.Machine.execBindReply u s
  | .bindRetry station index => Sys2Proof.Machine.execBindRetry station index s
  | .weirUp u => Sys2Proof.Machine.execWeirUp u s
  | .weirDown u => Sys2Proof.Machine.execWeirDown u s
  | .op u payload => Sys2Proof.Machine.execOp u payload s
  | .reply u => Sys2Proof.Machine.execReply u s
  | .tokens u => Sys2Proof.Machine.execTokens u s
  | .tokenAck u => Sys2Proof.Machine.execTokenAck u s
  | .bridgeOpSend bridge => Sys2Proof.Machine.execBridgeOpSend bridge s
  | .bridgeTokensSend bridge => Sys2Proof.Machine.execBridgeTokensSend bridge s
  | .linkReady port => Sys2Proof.Machine.execLinkReady port s
  | .linkNotReady port => Sys2Proof.Machine.execLinkNotReady port s
  | .linkLostTimeout port => Sys2Proof.Machine.execLinkLostTimeout port s
  -- dictionary accesses and functions
  | .read q e => Sys2Proof.Machine.execRead q e s
  | .write q e data => Sys2Proof.Machine.execWrite q e data s
  | .enable q fn => Sys2Proof.Machine.execEnable q fn s
  | .disable q fn => Sys2Proof.Machine.execDisable q fn s
  | .shareWrite q fn burst value => Sys2Proof.Machine.execShareWrite q fn burst value s
  | .drainStepDone fn => Sys2Proof.Machine.execDrainStepDone fn s
  | .flightWaitEnd fn => Sys2Proof.Machine.execFlightWaitEnd fn s
  | .sliceDrainDone slice fn => Sys2Proof.Machine.execSliceDrainDone slice fn s
  -- recovery
  | .heartbeatRead partition => Sys2Proof.Machine.execHeartbeatRead partition s
  | .partitionFreeze q partition => Sys2Proof.Machine.execPartitionFreeze q partition s
  | .partitionReady q partition => Sys2Proof.Machine.execPartitionReady q partition s
  | .partitionFault partition => Sys2Proof.Machine.execPartitionFault partition s
  | .interfaceReset q phys => Sys2Proof.Machine.execInterfaceReset q phys s
  | .interfaceResetAck phys block => Sys2Proof.Machine.execInterfaceResetAck phys block s
  | .interfaceResetTimeout phys => Sys2Proof.Machine.execInterfaceResetTimeout phys s
  | .captureEntry src dst => Sys2Proof.Machine.execCaptureEntry src dst s
  | .captureLimit partition => Sys2Proof.Machine.execCaptureLimit partition s
  | .fence q phys => Sys2Proof.Machine.execFence q phys s
  | .fenceAck phys => Sys2Proof.Machine.execFenceAck phys s
  | .fenceTimeout phys => Sys2Proof.Machine.execFenceTimeout phys s
  | .unfence q phys => Sys2Proof.Machine.execUnfence q phys s
  | .unfenceAck phys => Sys2Proof.Machine.execUnfenceAck phys s
  | .prstAck partition => Sys2Proof.Machine.execPrstAck partition s
  | .partitionResetTimeout partition => Sys2Proof.Machine.execPartitionResetTimeout partition s
  | .reset q => Sys2Proof.Machine.execReset q s
  | .clearOos q => Sys2Proof.Machine.execClearOos q s
  | .engineReset => Sys2Proof.Machine.execEngineReset s
  | .mcWatchdogExpiry => Sys2Proof.Machine.execMcWatchdogExpiry s
  | .restart q => Sys2Proof.Machine.execRestart q s
  | .mcResumed => Sys2Proof.Machine.execMcResumed s
  -- management transports
  | .mctpPacket bytes => Sys2Proof.Machine.execMctpPacket bytes s
  | .setEndpointId c eid => Sys2Proof.Machine.execSetEndpointId c eid s
  | .getEndpointId c => Sys2Proof.Machine.execGetEndpointId c s
  | .getEndpointUuid c => Sys2Proof.Machine.execGetEndpointUuid c s
  | .getMctpVersionSupport c messageType => Sys2Proof.Machine.execGetMctpVersionSupport c messageType s
  | .getMessageTypeSupport c => Sys2Proof.Machine.execGetMessageTypeSupport c s
  | .getVendorDefinedMessageSupport c selector => Sys2Proof.Machine.execGetVendorDefinedMessageSupport c selector s
  | .mpPrivateRead lastTaken => Sys2Proof.Machine.execMpPrivateRead lastTaken s
  | .ibiAnswer accepted => Sys2Proof.Machine.execIbiAnswer accepted s
  | .ibiRetry => Sys2Proof.Machine.execIbiRetry s
  -- ownership and events
  | .claim host priority nonce => Sys2Proof.Machine.execClaim host priority nonce s
  | .claimWindowEnd => Sys2Proof.Machine.execClaimWindowEnd s
  | .renew q => Sys2Proof.Machine.execRenew q s
  | .release q => Sys2Proof.Machine.execRelease q s
  | .handover q target => Sys2Proof.Machine.execHandover q target s
  | .accept host offering => Sys2Proof.Machine.execAccept host offering s
  | .leaseExpiry => Sys2Proof.Machine.execLeaseExpiry s
  | .handoverDeadline => Sys2Proof.Machine.execHandoverDeadline s
  | .subscribe host mask => Sys2Proof.Machine.execSubscribe host mask s
  | .event => Sys2Proof.Machine.execEvent s
  | .eventAck host sequence => Sys2Proof.Machine.execEventAck host sequence s
  | .eventSend host => Sys2Proof.Machine.execEventSend host s
  | .eventRetry host => Sys2Proof.Machine.execEventRetry host s
  -- debug access
  | .unlock q => Sys2Proof.Machine.execUnlock q s
  | .unlockInstruction => Sys2Proof.Machine.execUnlockInstruction s
  | .lock q => Sys2Proof.Machine.execLock q s
  | .lockInstruction => Sys2Proof.Machine.execLockInstruction s
  -- online service
  | .drain q kind number => Sys2Proof.Machine.execDrain q kind number s
  | .test q kind number => Sys2Proof.Machine.execTest q kind number s
  | .return_ q kind number => Sys2Proof.Machine.execReturn q kind number s
  | .powerOff q kind number => Sys2Proof.Machine.execPowerOff q kind number s
  | .powerOn q kind number => Sys2Proof.Machine.execPowerOn q kind number s
  | .serviceStepDone failing => Sys2Proof.Machine.execServiceStepDone failing s
  | .serviceStepTimeout => Sys2Proof.Machine.execServiceStepTimeout s
  | .clear q => Sys2Proof.Machine.execClear q s
  -- power, clock, reset and entropy ports
  | .aonResetRelease => Sys2Proof.Machine.execAonResetRelease s
  | .aonReset => Sys2Proof.Machine.execAonReset s
  | .clamp => Sys2Proof.Machine.execClamp s
  | .fcAckRise => Sys2Proof.Machine.execFcAckRise s
  | .fcClockLost => Sys2Proof.Machine.execFcClockLost s
  | .pdAck domain level => Sys2Proof.Machine.execPdAck domain level s
  | .pdAckTimeout domain => Sys2Proof.Machine.execPdAckTimeout domain s
  | .entropyWord word => Sys2Proof.Machine.execEntropyWord word s
  | .entropyError => Sys2Proof.Machine.execEntropyError s
  | .entropyRetry => Sys2Proof.Machine.execEntropyRetry s
  -- doze, integrity and telemetry
  | .dozeEntry station => Sys2Proof.Machine.execDozeEntry station s
  | .stationWake station => Sys2Proof.Machine.execStationWake station s
  | .towpathHoldExpiry station => Sys2Proof.Machine.execTowpathHoldExpiry station s
  | .scrubBurst unit findings => Sys2Proof.Machine.execScrubBurst unit findings s
  | .courseReplay station link => Sys2Proof.Machine.execCourseReplay station link s
  | .calibrationWindow khz => Sys2Proof.Machine.execCalibrationWindow khz s
  | .extentReleased src dst => Sys2Proof.Machine.execExtentReleased src dst s
  | .mcRestartTimeout => Sys2Proof.Machine.execMcRestartTimeout s
  | .clampRelease => Sys2Proof.Machine.execClampRelease s
  | .channelCreditReturn c => Sys2Proof.Machine.execChannelCreditReturn c s
  | .occupancySample => Sys2Proof.Machine.execOccupancySample s
  | .prstAckFall partition => Sys2Proof.Machine.execPrstAckFall partition s

end Sys2Proof.Machine
end

