-- ==== Sys2Proof/WellFormed.lean ====
section
/-!
DEFINITION. Which commands the ports and the course can deliver: every number is one that its field can carry
(Tables 0.1, 1.2, 13.1, 15.3 and 16.8). A command that is not well formed still has a meaning; it names a unit that
does not exist.
-/

namespace Sys2Proof

/-- A station number: 0 to 63, or 64 and 65 for the spares (Table 1.2). -/
def WellFormed.station (n : Nat) : Bool := n < 66

/-- The two stations of a course message. -/
def WellFormed.pair (src dst : Nat) : Bool := WellFormed.station src && WellFormed.station dst

/-- An operation record: its station exists, and bit 13 of `agent` clear or bits 12:6 clear (Table 3.2). -/
def WellFormed.op (r : OpRec) : Bool :=
  WellFormed.station r.station && (!r.agent.getLsbD 13 || r.agent.extractLsb' 6 7 == 0)

/-- An access to the beacon page: a word of the page, and a wide access aligned to four words (Table 3.1). -/
def WellFormed.aperture (a : ApertureRead) : Bool :=
  WellFormed.station a.station && a.word < 512 && (!a.wide || a.word % 4 == 0)

/-- A caravan: a link port, and as many body flits as its head says, at most 4 (Table 13.1). -/
def WellFormed.caravan (c : CaravanIn) : Bool := c.port < 16 && c.bodies.length ≤ 4

/-- A caravan on a port, or the two stations of its course message. -/
def WellFormed.carried : Carried → Bool
  | .link c => WellFormed.caravan c
  | .course a b => WellFormed.pair a b

/-- An operation caravan with the OP_PAYLOAD presented after it; on the course the message carries both. -/
def WellFormed.opCarried : Carried → Option CaravanIn → Bool
  | .link c, p => WellFormed.caravan c && p.all WellFormed.caravan
  | .course a b, p => WellFormed.pair a b && p.isNone

/-- A report port: landing ports 0 to 31, link ports 0 to 15. -/
def WellFormed.reportPort : ReportPort → Bool
  | .landing n => n < 32
  | .link n => n < 16

/-- A response of a ferry initiator: one of 16 initiators, one of 4,096 tags (Table 16.8). -/
def WellFormed.xi (x : XiRsp) : Bool := x.initiator < 16 && x.tag < 4096

/-- A dictionary access: at most 1,024 bytes, at a 32-bit offset (Table 15.3). -/
def WellFormed.entry (e : EntryRef) : Bool := e.length ≤ 1024 && e.offset < 2 ^ 32

/-- A management host: 0x01ee for endpoint ee from 0x08 to 0xFE, or 0x0200 for the register window (R495). -/
def WellFormed.host (h : Nat) : Bool := (0x108 ≤ h && h ≤ 0x1FE) || h == 0x200

/-- A management request. -/
def WellFormed.req (q : HostReq) : Bool := WellFormed.host q.host && q.epoch < 2 ^ 32

/-- A scrub finding: a unit and a store of Table 18.3. -/
def WellFormed.finding (f : RowFinding) : Bool :=
  (f.unit < 66 || (66 ≤ f.unit && f.unit < 82) || f.unit == 127) && f.store < 16 && (f.source != .course || f.corrected)

/-- A channel whose receiver returns a credit: a station's lane 0 or 1, an initiator, a link port. -/
def WellFormed.channel : Channel → Bool
  | .xpResponse n l => WellFormed.station n && l < 2
  | .xpPush n l => WellFormed.station n && l < 2
  | .xiRequest n => n < 16
  | .xiWrite n => n < 16
  | .kpTransmit n => n < 16

/-- Whether a command's operands are ones that its port or message can carry. -/
def Instr.wellFormed : Instr → Bool
  | .nop r | .cancel r | .destroy r | .ctrCreate r | .ctrAdd r | .ctrSub r | .ctrSet r | .ctrRead r
  | .ctrAcquire r | .ctrWaitGe r | .weirCreate r | .weirArrive r | .weirWait r | .weirArriveWait r
  | .weirRead r | .weirPolicy r | .landCreate r | .landExpect r | .landWait r | .landRead r | .landSeal r
  | .landRenew r | .qCreate r | .qPush r | .qPop r | .qMark r | .qRewind r | .qRelease r | .qToll r
  | .qRead r | .qPolicy r | .frCreate r | .frArm r | .frDisarm r | .frRead r | .loadReport r | .skCreate r
  | .skReport r | .skRead r | .skExport r | .skImport r | .skPolicy r | .bcnCreate r | .bcnWrite r
  | .bcnRead r => WellFormed.op r
  | .beaconRead a => WellFormed.aperture a
  | .apertureError n _ _ _ _ => WellFormed.station n
  | .forwardedOperation a b | .operationResponse a b | .chartCommit a b | .wakeRequest a b
  | .withdrawal a b | .beaconUpdate a b | .beaconUpdateAck a b | .weirSetup a b
  | .setupAcknowledgement a b | .combinedArrival a b | .epochCompletion a b | .weirSubscribe a b
  | .subscribeReply a b | .teardown a b | .teardownAck a b | .reportCredit a b | .sealDeposit a b
  | .sealRelease a b | .sealDiscard a b | .sealRegister a b | .freeNotice a b | .spillSegment a b
  | .spillAccepted a b | .spillRefused a b | .refillRequest a b | .refillSegment a b
  | .reserveExtent a b | .extentReserved a b | .releaseExtent a b | .shadowRecord a b
  | .shadowRecordWritten a b | .register a b | .feedRegister a b | .registered a b | .activate a b
  | .deactivate a b | .consume a b | .consumeDormant a b | .releaseWatch a b | .released a b | .met a b
  | .lapsed a b | .feedPush a b | .pushed a b | .launch a b | .launchAnswer a b | .arriveAction a b
  | .loadSubscribe a b | .digest a b | .migrationCopy a b | .copyAccepted a b | .rebind a b
  | .rebindAck a b | .flush a b | .forwardDone a b | .captureEntry a b | .extentReleased a b =>
    WellFormed.pair a b
  | .waitTimeout n _ | .pushMessage n | .pushCreditReturn n _ _ _ _ | .hintOverdue n _ | .hintMax n
  | .idleTimeout n _ | .spillRetry n _ | .arriveRetry n _ | .digestPeriod n | .migrateWindowEnd n
  | .migrationCommit n | .bindRetry n _ | .dozeEntry n | .stationWake n | .towpathHoldExpiry n =>
    WellFormed.station n
  | .landingReport p => WellFormed.reportPort p.port
  | .ferryIssue n _ | .ferrySlow n _ | .compactionMove n | .sliceDrainDone n _ => n < 16
  | .xiResponse x => WellFormed.xi x
  | .caravanSend k | .ackDue k | .retxTimeout k | .linkReady k | .linkNotReady k | .linkLostTimeout k => k < 16
  | .ack c | .credit c | .resync c => WellFormed.caravan c
  | .bind u | .bindReply u | .weirUp u | .weirDown u | .reply u | .tokens u | .tokenAck u => WellFormed.carried u
  | .op u p => WellFormed.opCarried u p
  | .bridgeOpSend b | .bridgeTokensSend b => b < 64
  | .read q (.entry e) => WellFormed.req q && WellFormed.entry e
  | .read q (.register _) => q.host == 0x200
  | .write q (.entry e) d => WellFormed.req q && WellFormed.entry e && d.length == e.length
  | .write q (.register _) d => q.host == 0x200 && d.length == 4
  | .enable q _ | .disable q _ | .shareWrite q _ _ _ | .partitionFreeze q _ | .partitionReady q _
  | .interfaceReset q _ | .fence q _ | .unfence q _ | .reset q | .clearOos q | .restart q | .renew q
  | .release q | .handover q _ | .unlock q | .lock q | .drain q _ _ | .test q _ _ | .return_ q _ _
  | .powerOff q _ _ | .powerOn q _ _ | .clear q => WellFormed.req q
  | .drainStepDone _ | .flightWaitEnd _ | .heartbeatRead _ | .partitionFault _ | .interfaceResetAck _ _
  | .interfaceResetTimeout _ | .captureLimit _ | .fenceAck _ | .fenceTimeout _ | .unfenceAck _ | .prstAck _
  | .partitionResetTimeout _ | .engineReset | .mcWatchdogExpiry | .mcResumed | .setEndpointId _ _
  | .getEndpointId _ | .getEndpointUuid _ | .getMctpVersionSupport _ _ | .getMessageTypeSupport _
  | .getVendorDefinedMessageSupport _ _ | .mpPrivateRead _ | .ibiAnswer _ | .ibiRetry | .claimWindowEnd
  | .leaseExpiry | .handoverDeadline | .event | .unlockInstruction | .lockInstruction | .serviceStepDone _
  | .serviceStepTimeout | .aonResetRelease | .aonReset | .clamp | .fcAckRise | .fcClockLost | .entropyWord _
  | .entropyError | .entropyRetry | .calibrationWindow _ | .mcRestartTimeout | .clampRelease
  | .occupancySample | .prstAckFall _ => true
  | .mctpPacket bytes => bytes.length ≤ 69
  | .claim h _ _ | .subscribe h _ | .eventAck h _ | .eventSend h | .eventRetry h => WellFormed.host h
  | .accept h o => WellFormed.host h && WellFormed.host o
  | .pdAck d _ | .pdAckTimeout d => d < 66
  | .scrubBurst u fs => (u < 66 || (66 ≤ u && u < 82) || u == 127) && fs.all WellFormed.finding && fs.length ≤ 64
  | .courseReplay n l => WellFormed.station n && l < 4
  | .channelCreditReturn c => WellFormed.channel c

end Sys2Proof
end

