-- ==== Sys2Proof/Safety.lean ====
section
/-!
DEFINITION. What counts as a safe step, and the words in which the statements about commands are made: a record that meets
every check of its entry station, an operation at its home, a message that its station takes, and the invariant that
every step keeps.
-/

namespace Sys2Proof.Machine

/-! ## Steps -/

/-- A command is safe in a state: it is followed by a next state, and by no fault or refusal. -/
def SafeStep (i : Instr) (s : State) : Prop := ∃ t, exec i s = .next t

/-- The command that presents a record with an opcode (Table 3.4). -/
def recordCommand : Opcode → OpRec → Instr
  | .nop, r => .nop r
  | .cancel, r => .cancel r
  | .destroy, r => .destroy r
  | .ctrCreate, r => .ctrCreate r
  | .ctrAdd, r => .ctrAdd r
  | .ctrSub, r => .ctrSub r
  | .ctrSet, r => .ctrSet r
  | .ctrRead, r => .ctrRead r
  | .ctrAcquire, r => .ctrAcquire r
  | .ctrWaitGe, r => .ctrWaitGe r
  | .weirCreate, r => .weirCreate r
  | .weirArrive, r => .weirArrive r
  | .weirWait, r => .weirWait r
  | .weirArriveWait, r => .weirArriveWait r
  | .weirRead, r => .weirRead r
  | .weirPolicy, r => .weirPolicy r
  | .landCreate, r => .landCreate r
  | .landExpect, r => .landExpect r
  | .landWait, r => .landWait r
  | .landRead, r => .landRead r
  | .landSeal, r => .landSeal r
  | .landRenew, r => .landRenew r
  | .qCreate, r => .qCreate r
  | .qPush, r => .qPush r
  | .qPop, r => .qPop r
  | .qMark, r => .qMark r
  | .qRewind, r => .qRewind r
  | .qRelease, r => .qRelease r
  | .qToll, r => .qToll r
  | .qRead, r => .qRead r
  | .qPolicy, r => .qPolicy r
  | .frCreate, r => .frCreate r
  | .frArm, r => .frArm r
  | .frDisarm, r => .frDisarm r
  | .frRead, r => .frRead r
  | .loadReport, r => .loadReport r
  | .skCreate, r => .skCreate r
  | .skReport, r => .skReport r
  | .skRead, r => .skRead r
  | .skExport, r => .skExport r
  | .skImport, r => .skImport r
  | .skPolicy, r => .skPolicy r
  | .bcnCreate, r => .bcnCreate r
  | .bcnWrite, r => .bcnWrite r
  | .bcnRead, r => .bcnRead r

/-! ## Records at their entry station (R68, Table 2.4, Table 3.3) -/

/-- Whether a record reaches its station: the fast-clock ports answer, and the station is ACTIVE, not behind its
towpath, not closed to entry and not left by the agent. -/
abbrev Reaches (r : OpRec) (s : State) : Prop :=
  portsLive s = true ∧ (station s r.station).state = .active ∧ towpathActs s r.station = false ∧
  entryClosed s r.station = false ∧ entryLeaving s r.station r.agent.toNat = false

/-- Whether the record is the station's to check: its initiator is not fenced (R472), and check 5.1 holds. -/
abbrev IsMine (r : OpRec) (s : State) : Prop :=
  (!r.aux && s.fenced.contains r.initId.toNat) = false ∧ entryIsMine s r.station r.agent.toNat = true

/-- The state in which a record is checked: it has left the receive buffer, the station has work, and records_taken counts
one. -/
def noticed (r : OpRec) (s : State) : State := bump (touch (recordReceived s r) r.station) 0x230501

/-- A record that meets checks 1 to 7. -/
abbrev Passes (op : Opcode) (r : OpRec) (s : State) : Prop :=
  Reaches r s ∧ IsMine r s ∧ checkRefusal (noticed r s) op r = none

/-- A record that meets checks 1 to 7, with a whole operation in its function's bucket, which its station takes onward in the
fc of its acceptance (R45, R77). -/
abbrev Ready (op : Opcode) (r : OpRec) (s : State) : Prop :=
  Reaches r s ∧ IsMine r s ∧ checkRefusal (noticed r s) op r = none ∧
  256 ≤ bucketNow (noticed r s) r.station r.fnStamp.toNat ∧ waitsTurn (noticed r s) (admOf op r) r.busy = false

/-- The state once a record that is ready has taken its operation from the bucket. -/
def admitted (r : OpRec) (s : State) : State := takeBucket (noticed r s) r.station r.fnStamp.toNat

/-- Where a record's response goes: to the port and the transaction that wrote it. -/
def viaOf (r : OpRec) : ReplyTo := .port r.aux r.initId r.xtag

/-- The station's answer to a record: its response is queued at the record's port (R110). -/
def answered (s : State) (r : OpRec) (i : EndInfo) : State :=
  respond s r.station (viaOf r) (mkRsp r.acquire.toNat r.scope.toNat r.opTag i)

/-- The least course tag that the entry station does not use. -/
def nextTag (r : OpRec) (s : State) : Nat := leastUnused ((station s r.station).openOps.map (·.tag))

/-- A record admitted at its entry station keeps its transaction open until its answer returns. `wait` is the
waiter record that a waiting opcode took. -/
def opened (op : Opcode) (r : OpRec) (s : State) (wait : Option Nat) : State :=
  onStation s r.station fun st => { st with openOps := st.openOps ++
    [⟨nextTag r s, op, r.agent.toNat, viaOf r, r.opTag, r.acquire.toNat, r.scope.toNat, r.fnStamp.toNat, wait,
      r.handle, r.operandA⟩] }

/-- The operation as it travels to its home (R26). -/
def travelling (op : Opcode) (r : OpRec) (s : State) (wait : Nat) : FwdOp :=
  ⟨op, r.agent.toNat, r.station, nextTag r s, wait, r.handle, r.operandA, r.operandB,
    if r.payload then some r.data else none, r.release.toNat, r.acquire.toNat, r.scope.toNat, r.hold, 0⟩

/-- The state in which a home's step on an object begins: no shadow record is due yet. -/
def atStep (s : State) : State := { s with shadowDue := [] }

/-- A creation that is ready is made at its own entry station, in the state in which the home's step begins. -/
abbrev CreatesHere (op : Opcode) (r : OpRec) (s : State) (t : State) : Prop :=
  Ready op r s ∧ creationHome (admitted r s) (admOf op r) = .inr r.station ∧
  t = atStep (opened op r (admitted r s) none) ∧ (fnOf t (Handle.fn r.handle)).state = .enabled

/-- The state once a creation made at its own entry station has had an effect. -/
def createdHere (op : Opcode) (r : OpRec) (s : State) (effect : State) : State :=
  homeStep (opened op r (admitted r s) none) r.station (Handle.hi r.handle) fun _ => effect

/-! ## Operations at their home -/

/-- An operation meets its object at a home that holds it: check 9 and 10 pass, the object is not moving (nor, where a keeper is
destroyed, its weir), and no push on it is unfinished. -/
abbrev Meets (f : FwdOp) (s : State) (n : Nat) (o : Obj) : Prop :=
  (fnOf s (Handle.fn f.handle)).state = .enabled ∧ liveObj s n f.handle = some o ∧ o.failed = false ∧
  pushWaits o = false ∧ leaving s n (Handle.index f.handle) = false ∧ coming s n (Handle.index f.handle) = false ∧
  weirLeaves s n f = false

/-- The effect of a step of a home on an object that an operation meets, its tracker noted first (R342). -/
def atObjectHome (f : FwdOp) (s : State) (n : Nat) (o : Obj) (effect : State → Obj → State) : State :=
  homeStep s n (Handle.hi f.handle) fun t =>
    effect (setObj t n (hiIndex o.hi) (track t o f)) (track t o f)

/-- A record's station is the home of its object, which holds it, and the operation meets it there. -/
abbrev MeetsHere (op : Opcode) (r : OpRec) (s : State) (o : Obj) : Prop :=
  Ready op r s ∧ homeOf (admitted r s) r.station (Handle.index r.handle) = r.station ∧
  Meets (travelling op r (admitted r s) 0) (opened op r (admitted r s) none) r.station o

/-- The state once an operation that meets its object at its own station has had an effect there. -/
def doneHere (op : Opcode) (r : OpRec) (s : State) (o : Obj) (effect : State → Obj → FwdOp → State) : State :=
  atObjectHome (travelling op r (admitted r s) 0) (opened op r (admitted r s) none) r.station o
    fun t o' => effect t o' (travelling op r (admitted r s) 0)

/-- The number of the waiter record that a record takes. -/
def waitId (r : OpRec) (s : State) : Nat := (station (admitted r s) r.station).nextWait

/-- A waiter record is taken for a record that waits at a home (R68, R147). -/
def withWaiter (op : Opcode) (r : OpRec) (s : State) (home : Nat) : State :=
  (takeWaiter (admitted r s) (admOf op r) 0 .pending (.eddy home 0)).1

/-- Its transaction is opened, and the waiter record knows its tag. -/
def waiting (op : Opcode) (r : OpRec) (s : State) (home : Nat) : State :=
  onWaiters (opened op r (withWaiter op r s home) (some (waitId r s))) r.station fun l =>
    l.map fun w => if w.id = waitId r s then { w with tag := nextTag r (withWaiter op r s home) } else w

/-- The operation that it sends to its home. -/
def waitingOp (op : Opcode) (r : OpRec) (s : State) (home : Nat) : FwdOp :=
  travelling op r (withWaiter op r s home) (waitId r s)

/-- A station and the function's quota have room for a waiter record. -/
abbrev WaitRoom (r : OpRec) (s : State) : Prop :=
  recordsFree (admitted r s) r.station r.fnStamp.toNat 1 = true

/-- The same for an operation that waits. -/
abbrev WaitsHere (op : Opcode) (r : OpRec) (s : State) (o : Obj) : Prop :=
  Ready op r s ∧ WaitRoom r s ∧ homeOf (admitted r s) r.station (Handle.index r.handle) = r.station ∧
  Meets (waitingOp op r s r.station) (waiting op r s r.station) r.station o

/-- The state once an operation that waits has had an effect on the object that it meets at its own station. -/
def waitedHere (op : Opcode) (r : OpRec) (s : State) (o : Obj) (effect : State → Obj → FwdOp → State) : State :=
  atObjectHome (waitingOp op r s r.station) (waiting op r s r.station) r.station o
    fun t o' => effect t o' (waitingOp op r s r.station)

/-- The eddies of an object once a wait has joined one of them. -/
def joined (es : List Eddy) (ref : Nat) (m : Nat × Nat) : List Eddy :=
  es.map fun x => if x.ref = ref then { x with members := x.members ++ [m] } else x

/-! ## Arrivals and waits on weirs -/

/-- A node's answer to a record: at once, or from the home's own node of an observed function by the course to itself, where a
shadow record may hold it (R408). -/
def answeredAtNode (op : Opcode) (r : OpRec) (s : State) (index : Nat) (i : EndInfo) : State :=
  if nodeHeld s r.station index r.fnStamp.toNat then
    send (opened op r s none) r.station r.station (.response (nextTag r s) i.status i.a i.b i.data)
  else answered s r i

/-- Whether an agent is a participant of a node's weir that enters at the node's station, where the node is a member. -/
def agentHere (s : State) (n : Nat) (x : Node) (agent : Nat) : Bool :=
  x.role != 0 && (x.params.parts.indexOf agent).isSome && entryOf s agent == n

/-- How a node refuses an arrival (Table 5.6): INTEGRITY at a failed node; BROKEN or LINKLOST with the open epoch at a broken one;
PRIVILEGE to an agent that is no participant of its station, and where the payload is missing or has no use; STALE for an epoch
that has passed, or that the agent has arrived in; AHEAD for one beyond the next. -/
inductive ArrivalRefused (s : State) (n : Nat) (x : Node) (agent : Nat) (e : BitVec 32) (data : Option Payload) :
    EndInfo → Prop where
  | failed : x.failed = true → ArrivalRefused s n x agent e data ⟨.integrity, 0, 0, none, none⟩
  | broken : x.failed = false → x.broken = true → ArrivalRefused s n x agent e data
      ⟨if x.lost then .linklost else .broken, BitVec.ofNat 64 x.open_.toNat, 0, none, none⟩
  | stranger : x.failed = false → x.broken = false → agentHere s n x agent = false →
      ArrivalRefused s n x agent e data ⟨.privilege, 0, 0, none, none⟩
  | payload : x.failed = false → x.broken = false → agentHere s n x agent = true → data.isSome ≠ (x.params.redOp != 0) →
      ArrivalRefused s n x agent e data ⟨.privilege, 0, 0, none, none⟩
  | again : x.failed = false → x.broken = false → agentHere s n x agent = true → data.isSome = (x.params.redOp != 0) →
      (e - x.open_).toNat ≤ 1 → (x.bank (odd32 e)).arrived.contains agent = true →
      ArrivalRefused s n x agent e data ⟨.stale, BitVec.ofNat 64 x.open_.toNat, 0, none, none⟩
  | ahead : x.failed = false → x.broken = false → agentHere s n x agent = true → data.isSome = (x.params.redOp != 0) →
      2 ≤ (e - x.open_).toNat → (e - x.open_).toNat < 2 ^ 31 →
      ArrivalRefused s n x agent e data ⟨.ahead, BitVec.ofNat 64 x.open_.toNat, 0, none, none⟩
  | past : x.failed = false → x.broken = false → agentHere s n x agent = true → data.isSome = (x.params.redOp != 0) →
      2 ^ 31 ≤ (e - x.open_).toNat →
      ArrivalRefused s n x agent e data ⟨.stale, BitVec.ofNat 64 x.open_.toNat, 0, none, none⟩

/-- A bank's accumulator once an agent's contribution has merged (R168, R192). -/
def mergedWith (s : State) (x : Node) (b : Bank) (data : Option Payload) (agent : Nat) : Partial :=
  match data with
  | some p => mergePartial x.params.redOp x.params.inFormat b.acc
      (contribution x.params.redOp x.params.inFormat p (redIndex s x.params ((x.params.parts.indexOf agent).getD 0)))
  | none => b.acc

/-- A node once an agent has arrived in a bank, at a fast count (R168, R187). -/
def arrivedAt (x : Node) (fc : Nat) (odd : Bool) (agent : Nat) (acc : Partial) : Node :=
  let y := x.setBank odd { x.bank odd with arrived := (x.bank odd).arrived ++ [agent], acc := acc }
  { y with lastArrival := tput y.lastArrival (flag odd) fc }

/-- The node of a listener that waits for its subscription's reply (R173). -/
def listenerNode (s : State) (hi : BitVec 40) (home n : Nat) : Node :=
  { newNode s hi ⟨.list [], 0, none, 0, 0, 0, false, 0, none⟩ home n 0 with
    role := 0, parent := 127, children := 0, local_ := 0, pendingReply := true }

/-- A weir's throttle-hint policy at every node of it (R175). -/
def hintPolicy (s : State) (hi : BitVec 40) (on : Bool) (overdue : Nat) : State :=
  s.stations.foldl (fun t q => match nodeAt t q.1 (hiIndex hi) with
    | some x => if x.hi = hi then putNode t q.1 (hiIndex hi) { x with hintEnable := on, overdueFc := overdue } else t
    | none => t) s

/-- A resolved policy applied to a keeper's groups from one number on (R369). -/
def appliedTo (q : Policy) (first count : Nat) (gs : List Group) : List Group :=
  gs.mapIdx fun i g => if first ≤ i ∧ i < first + count then g.apply q else g

/-- A transfer is driven onto a port. -/
def driven (s : State) (o : Output) : State := drive s [o]

/-! ## Messages -/

/-- A station takes a message: it is awake, and the message is the oldest of its class on the course from its sender;
`rest` is the course without it. -/
abbrev TakesMsg (s : State) (src dst : Nat) (b : MsgBody) (rest : List Msg) : Prop :=
  takesNow s dst false = true ∧ nextMsg s src dst b.cls = some (⟨src, dst, b⟩, rest)

/-- A message reaches a station that is awake or dozes: only a chart commit and a beacon update are taken by a dozing one,
which dozes on (R568, R571). -/
abbrev ReachesMsg (s : State) (src dst : Nat) (b : MsgBody) (rest : List Msg) : Prop :=
  takesNow s dst true = true ∧ nextMsg s src dst b.cls = some (⟨src, dst, b⟩, rest)

/-- The state once a station has taken a message off the course, and is at work. -/
def taken (s : State) (dst : Nat) (rest : List Msg) : State := touch { s with course := rest } dst

/-- An object's home, as a station knows it, is the station itself, and the object is not moving. -/
abbrev HomeHere (s : State) (n : Nat) (h : Word) : Prop :=
  homeOf s n (Handle.index h) = n ∧ leaving s n (Handle.index h) = false ∧ coming s n (Handle.index h) = false

/-- A home's step with an effect that does not depend on what the step is given: on the state in which the step begins. -/
def stepOn (s : State) (n : Nat) (h : Word) (effect : State) : State := homeStep s n (Handle.hi h) fun _ => effect

/-! ## Landing reports (R220 to R225, R538) -/

/-- A report reaches its port, present, with credit, and passes its code. -/
abbrev ReportComes (p : ReportIn) (s : State) : Prop :=
  portsLive s = true ∧ reportPortHere s p.port = true ∧ p.noCredit = false ∧ p.codeBad = false

/-- The state once the report has been received, and its port's attach station is at work. -/
def reportTaken (p : ReportIn) (s : State) : State :=
  foreground (if p.corrected then countCorrected s 3 else s) (reportStation s p.port)

/-- A report's landing counter is at a station: its home, not on the move, live and not failed, and of the report's extra
generation. -/
abbrev LandsAt (s : State) (n : Nat) (h : Word) (o : Obj) (l : Landing) : Prop :=
  chartAt s n (Handle.index h) = some ⟨0, n⟩ ∧ movingHere (station s n) (Handle.index h) = false ∧
  liveObj s n h = some o ∧ o.body = .landing l ∧ o.failed = false ∧ Handle.sel h = l.xgen.toNat

/-! ## Blocks of queues (R290 to R297) -/

/-- A queue that keeps the copy of a block whose tokens it still holds (R294). -/
def keepsCopy (q : Queue) (b : Nat) : Queue := if q.rel < 16 * (b + 1) then { q with bwBlocks := q.bwBlocks ++ [b] } else q

/-- The spills of a queue that were refused go again (R297). -/
def spillsAgain (q : Queue) : Queue :=
  { q with spillTail := if q.spillTail = 2 then 1 else q.spillTail, spillHead := if q.spillHead = 2 then 1 else q.spillHead }

/-- The work of every slice on an index goes as its extent is released: what waits goes, the results of what is outstanding
are dropped (R311). -/
def indexLeaves (s : State) (i : Nat) : State :=
  s.slices.foldl (fun t p => onSlice t p.1 fun l => { l with
    waiting := l.waiting.filter fun x => !(x.purpose.index == some i)
    tags := l.tags.map fun u => if u.xact.purpose.index == some i then { u with discard := true } else u
    spillIn := l.spillIn.filter fun x => Handle.index x.handle != i
    spillBufs := l.spillBufs.filter fun b => Handle.index b.1 != i ||
      l.tags.any fun t => t.xact.purpose == .spill b.1 b.2 }) s

/-! ## Watches (R326) -/

/-- A watch's threshold once the rule has consumed it: a counter's and a weir's advance by the step (R324). -/
def advanced (b : Body) (w : Watch) : Word :=
  match b with
  | .counter _ => w.threshold + BitVec.ofNat 64 w.step
  | .weir _ => BitVec.ofNat 64 ((w.threshold.toNat + w.step) % 2 ^ 32)
  | _ => w.threshold

/-- The watches of an object once those of a rule's slot have changed. -/
def watchesWith (o : Obj) (rule : Word) (slot : Nat) (f : Watch → Watch) : List Watch :=
  o.watches.map fun w => if !w.feed && w.ruleHi == Handle.hi rule && w.slot == slot then f w else w

/-- An object has room for one more watch or feed record, and its function's quota at its home (R322). -/
abbrev RecordRoom (s : State) (n : Nat) (o : Obj) : Prop := o.watches.length < 16 ∧ recordsFree s n (hiFn o.hi) 1 = true

/-! ## Caravans (R421 to R428) -/

/-- A caravan of a kind is taken by a port: the fast-clock ports answer, and the port accepts it (R424, R541). -/
abbrev ComesIn (c : CaravanIn) (kind : Nat) (s : State) : Prop :=
  portsLive s = true ∧ (linkAt s c.port).state = .up ∧ headKind c.head = kind ∧
  (linkAt (caravanCounted s c) c.port).state = .up ∧ acceptable (caravanCounted s c) c.port c = true

/-- The state once a port has accepted a caravan (R424, R425). -/
def cameIn (s : State) (c : CaravanIn) : State := acceptCaravan (caravanCounted s c) c

/-- A weir or op caravan is for this chip and an ENABLED function; `t` is the state once its place has returned its credit. -/
abbrev ServedHere (c : CaravanIn) (kind : Nat) (s t : State) : Prop :=
  ComesIn c kind s ∧ arrivalRoute (cameIn s c) c.port c.head = .here ∧
  t = returnUnit (cameIn s c) c.port ⟨[(c.head, c.bodies)], false, none⟩ ∧ (fnOf t (headFn c.head)).state = .enabled

/-- The name of the object that a caravan is for. -/
def caravanName (s : State) (h : Flit) : Word := nameOf (handleHi (headFn h) 0 0 (caravanIndex s h))

/-- A caravan reaches the home of its object over the course; `t` is the state once the home has taken the message. -/
abbrev ReachesHome (src dst kind : Nat) (h : Flit) (bodies : List Flit) (s t : State) : Prop :=
  ∃ isSeal rest, TakesMsg s src dst (.caravan false isSeal [(h, bodies)]) rest ∧ t = taken s dst rest ∧ headKind h = kind ∧
    HomeHere t dst (caravanName t h) ∧ (fnOf t (headFn h)).state = .enabled

/-- A port has no held caravan to send again, and no unit half sent. -/
abbrev NothingHeld (l : Link) : Prop := l.state = .up ∧ l.resend = [] ∧ l.midUnit = none

/-- The record of an operation that an OP caravan carries, with the payload that follows it (R444). -/
def linkOpOf (s : State) (c : CaravanIn) (data : Option Payload) : OpRec :=
  linkRecordOf s c.port (headFn c.head) ((c.bodies.headD 0).extractLsb' 64 64) ((c.bodies.headD 0).extractLsb' 0 64)
    (((c.bodies.drop 1).headD 0).extractLsb' 64 64) data (headRelease c.head) (headScope c.head) false
    (BitVec.ofNat 16 (headField c.head 48 33))

/-- The record of the Q_TOLL that a TOKENS caravan is served as (R445). -/
def linkTollOf (s : State) (c : CaravanIn) : OpRec :=
  linkRecordOf s c.port (headFn c.head) ((c.bodies.headD 0).extractLsb' 64 64) (BitVec.ofNat 64 (headField c.head 57 55)) 0
    none (headRelease c.head) (headScope c.head) true 0

/-- A record that a link brings meets the checks of its port's attach station, with an operation in the bucket. -/
abbrev LinkReadyOp (s : State) (op : Opcode) (r : OpRec) : Prop :=
  checkRefusal s op r = none ∧ 256 ≤ bucketNow s r.station r.fnStamp.toNat ∧ waitsTurn s (admOf op r) false = false

/-! ## Requests of hosts (R491, R499 to R504) -/

/-- The state once an OP that a link brought, whole and for this chip, has gone on at its port's attach station (R422, R444). -/
def opServed (t : State) (c : CaravanIn) (op : Opcode) (data : Option Payload) : State :=
  proceed (takeBucket (wakeStation t (linkAttach t c.port)) (linkAttach t c.port) (headFn c.head))
    { admOf op (linkOpOf t c data) with
      via := .link c.port (headSrc c.head) (headFn c.head) (BitVec.ofNat 16 (headField c.head 48 33))
        (headField c.head 32 27) }

/-- A host's request is taken: the host may speak, the engine has power, no restart runs, and once an ownership deadline that
has come has taken effect no request of the host is open and the window, where the request is the window's, runs no command. -/
abbrev Admits (host : Nat) (s : State) : Prop :=
  hostSpeaks s host = true ∧ s.power.phase ≠ 1 ∧ s.restarting = none ∧ requestOpen (ownerDue s) host = false ∧
  (host = 0x200 → (ownerDue s).window.go = false)

/-- The state in which a taken request is acted on: the window, where it is the window's, holds its command. -/
def asked (s : State) (host command : Nat) (regs : Window → Window) : State :=
  if host = 0x200 then windowStart (ownerDue s) command regs else ownerDue s

/-- A write of a number to an entry, as it is acted on. -/
def writing (s : State) (q : HostReq) (index sub n v : Nat) : State :=
  asked s q.host 0x02 (Window.access ⟨BitVec.ofNat 16 index, BitVec.ofNat 8 sub, 0, n⟩ q.epoch (bytesLE n v))

/-- The owner writes a number to an entry; `t` is the state in which the write is acted on. -/
abbrev OwnerWrites (q : HostReq) (index sub n v : Nat) (s t : State) : Prop :=
  Admits q.host s ∧ t = writing s q index sub n v ∧ ownerRefusal t q = none

/-- No enable keeps a request on functions waiting (R93). -/
abbrev FnTurn (t : State) (index : Nat) : Prop := (entryFn index).isSome = true → fnBusy t = false

/-- A write that returns OK restarts the lease (R503) and is answered. -/
def wrote (q : HostReq) (u : State) : State :=
  answerHost (if u.owner.state = .owned then startLease u else u) q.host 0x02 .ok []

/-- A host's own command with two arguments is taken; `t` is the state in which it is acted on. -/
abbrev HostAsks (host command epoch a b : Nat) (s t : State) : Prop :=
  Admits host s ∧ t = asked s host command (Window.args epoch a b)

/-- A queue's cursors are in order, and what it holds and has promised fits its capacity (R251, R252). -/
abbrev CursorsOrdered (q : Queue) : Prop := q.rel ≤ q.read ∧ q.read ≤ q.push ∧ (q.push - q.rel) + q.tollOut ≤ q.capacity

/-! ## Recovery (R456, R473, R481) -/

/-- An agent is an engine of a logical core. -/
def ofCore (core a : Nat) : Bool := !agentAux a && agentCore a == core

/-- A core counts as fenced as its fence handshake ends (R473 step 2). -/
def fencedNow (s : State) (phys : Nat) : State :=
  let t := dropCmd s 2 phys
  { t with fenced := if t.fenced.contains phys then t.fenced else t.fenced ++ [phys] }

/-- Nothing of the functions' work is left: no object, wait, operation, message or migration, no function and no key, at no
station and on no link of the course (R481, R514). -/
structure Cleared (t : State) : Prop where
  stations : ∀ n, (station t n).objects = [] ∧ (station t n).nodes = [] ∧ (station t n).chart = [] ∧
    (station t n).waiters = [] ∧ (station t n).openOps = [] ∧ (station t n).jobs = [] ∧ (station t n).budget = [] ∧
    (station t n).excess = [] ∧ (station t n).rx = [] ∧ (station t n).blocked = [] ∧ (station t n).ready = [] ∧
    (station t n).beacon = [] ∧ (station t n).loads = [] ∧ (station t n).heldReports = [] ∧
    (station t n).outgoing = none ∧ (station t n).incoming = none ∧ (station t n).shadowHolds = []
  messages : t.course = [] ∧ t.linkWork = [] ∧ t.shadowDue = []
  functions : t.fns = [] ∧ t.fnQueue = []
  names : t.keepers = [] ∧ t.indexGen = [] ∧ t.words = [] ∧ t.journal = []
  seals : t.seals = []
  key : t.tagKey = 0

/-! ## Orders of merging (R198, R202) -/

/-- An order in which the contributions of a bank merge: one contribution with its participant's index, or two merged
partials. -/
inductive MergeTree where
  | leaf (p : Payload) (i : Nat)
  | node (a b : MergeTree)
  deriving DecidableEq, Repr

/-- The contributions of an order, each with its participant's index. -/
def MergeTree.leaves : MergeTree → List (Payload × Nat)
  | .leaf p i => [(p, i)]
  | .node a b => a.leaves ++ b.leaves

/-- The partial that an order leaves in the bank. -/
def MergeTree.partial_ (op code : Nat) : MergeTree → Partial
  | .leaf p i => contribution op code p i
  | .node a b => mergePartial op code (a.partial_ op code) (b.partial_ op code)

/-! ## What every step leaves (R440, R482, R508) -/

/-- Nothing can take the place of a log entry while a loss has not been reported. -/
abbrev LossMarked (s : State) : Prop := s.lossOpen = true → logRoom s = none

/-- A bridge that is not off has a live queue and a function that is ENABLED. -/
abbrev BridgesLive (s : State) : Prop :=
  ∀ b, b < 64 → bridgeMode s b ≠ 0 →
    (queueOf s (bridgeQueue s b)).isSome = true ∧ (fnOf s (Handle.fn (bridgeQueue s b))).state = .enabled

/-- An engine reset that lasts waits for the tag key, for the power sequence, for the clamp, for the fast clock or for a
domain. -/
abbrev ResetWaits (s : State) : Prop :=
  s.power.resetting = true → s.power.phase ≠ 0 ∨ s.power.clamp = true ∨ s.power.fcAck = false ∨ s.entropy.needs.contains .tagKey = true ∨
    ∃ n ∈ s.power.pdReq, n ∉ s.power.pdAck

/-- What holds between any two steps. -/
abbrev StepInv (s : State) : Prop := LossMarked s ∧ BridgesLive s ∧ ResetWaits s

/-- Nothing is left for the engine to do of itself: no service runs, no message is its sender's own, nothing waits behind an
unfinished push, no creation or destruction waits for a commit that has arrived, no link is owed an answer, no function is
destroying its objects, no migration has a station that has stopped, no partition is frozen, no engine reset runs, no loss is
unreported, no bridge is on or owed a release, no spare is there to be switched off, no drain is owed, and the outputs are not
clamped. -/
abbrev Quiet (s : State) : Prop :=
  s.service = none ∧ s.linkWork = [] ∧ (∀ m ∈ s.course, m.src ≠ m.dst) ∧
  (∀ p ∈ s.stations, p.2.blocked = [] ∧ ∀ j ∈ p.2.jobs, jobDue s p.1 j = false) ∧
  (∀ p ∈ s.fns, ∀ d, p.2.drain = some d → d.step ≠ 4) ∧
  (∀ p ∈ s.journal, serving (station s p.2.2.2.1) = true ∧ serving (station s p.2.2.2.2.1) = true) ∧
  (∀ p ∈ s.partitions, p.2.state ≠ .frozen) ∧
  s.power.resetting = false ∧ s.lossOpen = false ∧ (∀ b, b < 64 → bridgeMode s b = 0) ∧ owedBridges s = [] ∧
  spareIdle s 64 = false ∧ spareIdle s 65 = false ∧ s.drainsOwed = [] ∧ s.power.clamp = false

end Sys2Proof.Machine
end

