-- ==== Sys2Proof/Certificates/Slice0/Obligations.lean ====
section
/-!
DEFINITION. The statements about the model. Each says, over every state that meets its hypotheses, what a command of the
opcode table does. `settled` closes every step: it delivers what a station sends to itself, and what the engine does
of itself; `QuietStatesSettle` says when it adds nothing.
-/

open Sys2Proof Sys2Proof.Machine

/-! ## Records at their entry station -/

/-- NOP, LOAD_REPORT and CANCEL (R105, R331, R152) complete at their entry station. A record of any opcode that passes checks 1
to 7 and finds a whole operation in its function's bucket, but must wait its turn (R45, R77), joins the budget queue behind what
its engine has in the excess buffer for the same object; with less in the bucket it joins the excess buffer where anything of its
path waits, goes on at once where nothing does, and returns RETRY where 64 operations are held (R77, R78; when an operation waits
its turn is the model's choice, log entries 4 and 58). -/
def Obligations.EntryStationServes : Prop :=
  (∀ (op : Opcode) (r : OpRec) (s t : State), Passes op r s → t = noticed r s →
    (256 ≤ bucketNow t r.station r.fnStamp.toNat → waitsTurn t (admOf op r) r.busy = true →
      exec (recordCommand op r) s = .next (settled (onStation (admitted r s) r.station fun st => { st with
        budget := st.budget ++ [(((station t r.station).excess.filter (sameTrain (admOf op r))).length, admOf op r)] }))) ∧
    (bucketNow t r.station r.fnStamp.toNat < 256 → 64 ≤ (station t r.station).excess.length →
      exec (recordCommand op r) s = .next (settled
        (answered (bumpFn t r.fnStamp.toNat 0x15) r (plain .retry)))) ∧
    (bucketNow t r.station r.fnStamp.toNat < 256 → (station t r.station).excess.length < 64 →
      (waitsTurn t (admOf op r) r.busy = true ∨
        ∃ e ∈ (station t r.station).excess, remotePath t e = remotePath t (admOf op r)) →
      exec (recordCommand op r) s = .next (settled (onStation t r.station fun st => { st with
        excess := st.excess ++ [admOf op r] }))) ∧
    (bucketNow t r.station r.fnStamp.toNat < 256 → (station t r.station).excess.length < 64 →
      waitsTurn t (admOf op r) r.busy = false →
      (∀ e ∈ (station t r.station).excess, remotePath t e ≠ remotePath t (admOf op r)) →
      exec (recordCommand op r) s = .next (settled (proceed t (admOf op r))))) ∧
  ∀ (r : OpRec) (s : State),
    (Ready .nop r s →
      exec (.nop r) s = .next (settled (answered (admitted r s) r ⟨.ok, 0, 0, none, none⟩))) ∧
    (Ready .loadReport r s → agentAux r.agent.toNat = false →
      exec (.loadReport r) s = .next (settled
        (answered (setLoad (admitted r s) r.station r.agent.toNat (r.operandA.toNat % 16)) r ⟨.ok, 0, 0, none, none⟩))) ∧
    (Ready .cancel r s → cancelled (admitted r s) (admOf .cancel r) = none →
      exec (.cancel r) s = .next (settled (answered (admitted r s) r (plain .stale)))) ∧
    (∀ w, Ready .cancel r s → cancelled (admitted r s) (admOf .cancel r) = some w →
      (∀ home ref, w.place ≠ .eddy home ref) → w.phase ≠ .pending →
      exec (.cancel r) s = .next (settled
        (answered (dropWaiter (admitted r s) r.station w.id) r ⟨.ok, 0, 0, none, none⟩))) ∧
    (∀ w home ref, Ready .cancel r s → cancelled (admitted r s) (admOf .cancel r) = some w →
      w.place = .eddy home ref → w.phase = .joined →
      exec (.cancel r) s = .next (settled
        (send (setWaiter (admitted r s) r.station
            { w with cancel := some (cancelOp (admOf .cancel r)), phase := .withdrawing })
          r.station (homeOf (admitted r s) r.station (Handle.index w.handle))
          (withdrawMsg r.station { w with cancel := some (cancelOp (admOf .cancel r)), phase := .withdrawing } ref))))

/-- A record that fails a check of Tables 2.4 and 3.3 is answered with that check's status, whatever its opcode, and
nothing else of it takes effect. -/
def Obligations.RecordsRefused : Prop :=
  ∀ (op : Opcode) (r : OpRec) (s : State) (st : Status),
    Reaches r s → IsMine r s → checkRefusal (noticed r s) op r = some st →
    exec (recordCommand op r) s =
      .next (settled (answered (countRefusal (noticed r s) r.fnStamp.toNat st) r (plain st)))

/-- An operation on an object whose home is another station leaves for it as FORWARDED_OPERATION, its transaction open
(R26). -/
def Obligations.OperationsLeave : Prop :=
  ∀ (op : Opcode) (r : OpRec) (s : State) (home : Nat),
    op ∈ ([.destroy, .ctrAdd, .ctrSub, .ctrSet, .ctrRead, .weirRead, .weirPolicy, .landExpect, .landRead, .landSeal,
      .landRenew, .qPush, .qMark, .qRewind, .qRelease, .qRead, .qPolicy, .frArm, .frDisarm, .frRead, .skRead, .skExport,
      .skImport, .skPolicy, .bcnWrite, .bcnRead] : List Opcode) →
    Ready op r s → homeOf (admitted r s) r.station (Handle.index r.handle) = home → home ≠ r.station →
    exec (recordCommand op r) s = .next (settled
      (send (opened op r (admitted r s) none) r.station home (.fwdOp (travelling op r (admitted r s) 0))))

/-- A waiting operation whose home is another station takes a waiter record before it leaves; with no room for one it is
refused with QUOTA (R68, R147; that one that waits its turn takes none before is the model's choice, log entry 87). -/
def Obligations.WaitsLeave : Prop :=
  ∀ (op : Opcode) (r : OpRec) (s : State) (home : Nat),
    op ∈ ([.ctrAcquire, .ctrWaitGe, .landWait, .qPop, .qToll] : List Opcode) → Ready op r s →
    homeOf (admitted r s) r.station (Handle.index r.handle) = home →
    (WaitRoom r s → home ≠ r.station →
      exec (recordCommand op r) s = .next (settled
        (send (waiting op r s home) r.station home (.fwdOp (waitingOp op r s home))))) ∧
    (¬ WaitRoom r s →
      exec (recordCommand op r) s =
        .next (settled (answered (countRefusal (admitted r s) r.fnStamp.toNat .quota) r (plain .quota))))

/-! ## Counters -/

/-- CTR_ADD and CTR_SUB (R140, Table 4.2). -/
def Obligations.CounterAddSub : Prop :=
  ∀ (r : OpRec) (s : State) (o : Obj) (c : Counter), o.body = .counter c →
    (MeetsHere .ctrAdd r s o →
      exec (.ctrAdd r) s = .next (settled (doneHere .ctrAdd r s o fun t o' f =>
        if 2 ^ 64 ≤ c.value.toNat + r.operandA.toNat then
          reply (counterWrite (bumpFn t (hiFn o.hi) 0x17) r.station o' { c with wraps := min 0xFFFF (c.wraps + 1) } f
            (c.value.toNat + r.operandA.toNat - 2 ^ 64)) r.station f c.value 1
        else
          reply (counterWrite t r.station o' c f (c.value.toNat + r.operandA.toNat)) r.station f c.value 0))) ∧
    (MeetsHere .ctrSub r s o →
      exec (.ctrSub r) s = .next (settled (doneHere .ctrSub r s o fun t o' f =>
        if c.value.toNat < r.operandA.toNat then
          reply (counterWrite (bumpFn t (hiFn o.hi) 0x17) r.station o' { c with wraps := min 0xFFFF (c.wraps + 1) } f
            (c.value.toNat + 2 ^ 64 - r.operandA.toNat)) r.station f c.value 1
        else
          reply (counterWrite t r.station o' c f (c.value.toNat - r.operandA.toNat)) r.station f c.value 0)))

/-- CTR_SET and CTR_READ (R141, Table 4.2). -/
def Obligations.CounterSetRead : Prop :=
  ∀ (r : OpRec) (s : State) (o : Obj) (c : Counter), o.body = .counter c →
    (MeetsHere .ctrSet r s o →
      exec (.ctrSet r) s = .next (settled (doneHere .ctrSet r s o fun t o' f =>
        reply (counterWrite t r.station o' c f r.operandA.toNat) r.station f c.value 0))) ∧
    (MeetsHere .ctrRead r s o →
      exec (.ctrRead r) s = .next (settled (doneHere .ctrRead r s o fun t _ f => reply t r.station f c.value 0)))

/-- CTR_ACQUIRE and CTR_WAIT_GE (R141, R147): where the condition holds, at once, the acquire taking its amount; else the wait
joins the oldest eddy of its kind and amount. The first wait of its kind and amount forms an eddy with a reference that the
home does not use (the least, which is the model's choice, log entry 56); a ninth eddy is refused with QUOTA and counted
(R144), and so is one for which the function has not four waiter records free at the home (R145). -/
def Obligations.CounterWaits : Prop :=
  ∀ (r : OpRec) (s : State) (o : Obj) (c : Counter), o.body = .counter c →
    (WaitsHere .ctrAcquire r s o → r.operandA.toNat ≤ c.value.toNat →
      exec (.ctrAcquire r) s = .next (settled (waitedHere .ctrAcquire r s o fun t o' f =>
        reply (noteShadow (setObj t r.station (hiIndex o.hi)
            { o' with body := .counter { c with value := c.value - r.operandA } })
          { o' with body := .counter { c with value := c.value - r.operandA } } 2 .ok r.agent.toNat) r.station f 0 0))) ∧
    (WaitsHere .ctrWaitGe r s o → r.operandA.toNat ≤ c.value.toNat →
      exec (.ctrWaitGe r) s = .next (settled (waitedHere .ctrWaitGe r s o fun t _ f => reply t r.station f 0 0))) ∧
    (∀ op acquire, (op = .ctrAcquire ∧ acquire = true) ∨ (op = .ctrWaitGe ∧ acquire = false) →
      WaitsHere op r s o → c.value.toNat < r.operandA.toNat →
      (∀ e, (c.eddies.find? fun x => x.acquire == acquire && x.threshold == r.operandA) = some e →
        exec (recordCommand op r) s = .next (settled (waitedHere op r s o fun t o' f =>
          send (setObj t r.station (hiIndex o.hi) { o' with
            body := .counter { c with eddies := joined c.eddies e.ref (r.station, waitId r s) } })
            r.station r.station (.registeredWait f.tag e.ref)))) ∧
      ((c.eddies.find? fun x => x.acquire == acquire && x.threshold == r.operandA) = none →
        (8 ≤ c.eddies.length → exec (recordCommand op r) s = .next (settled (waitedHere op r s o fun t _ f =>
          refuse (bump t 0x240303) r.station f .quota))) ∧
        (c.eddies.length < 8 → exec (recordCommand op r) s = .next (settled (waitedHere op r s o fun t o' f =>
          let ref := leastUnused (eddyRefs (station t r.station))
          if recordsFree t r.station (hiFn o.hi) 4 = true then
            send (setObj t r.station (hiIndex o.hi) { o' with body := .counter { c with
              eddies := c.eddies ++ [⟨ref, r.operandA, acquire, 0, [(r.station, waitId r s)]⟩] } })
              r.station r.station (.registeredWait f.tag ref)
          else refuse t r.station f .quota)))))

/-! ## Weirs -/

/-- An arrival that a node accepts (R165 to R168, Table 5.6): it is counted in the bank of its epoch, its contribution merged,
and answered with the epoch and whether it filled the bank (that value_b says so is the model's reading, log entry 33); then
the bank is evaluated. WEIR_ARRIVE_WAIT links its wait first (R172), and is refused with QUOTA where its station has no waiter
record for it. An arrival that the node does not accept is answered with the status of Table 5.6, and has no other effect than
that a stale or early one is counted. -/
def Obligations.WeirArrivals : Prop :=
  ∀ (r : OpRec) (s : State) (x : Node) (b : Bank),
    nodeFor (admitted r s) r.station r.handle = some x → x.params.keeper = none →
    b = x.bank (odd32 (r.operandA.setWidth 32)) →
    (∀ i, ArrivalRefused (admitted r s) r.station x r.agent.toNat (r.operandA.setWidth 32)
        (if r.payload then some r.data else none) i →
      (Ready .weirArrive r s →
        exec (.weirArrive r) s = .next (settled (homeStep (admitted r s) r.station (Handle.hi r.handle) fun t =>
          answeredAtNode .weirArrive r (countStale t r.fnStamp.toNat i.status) (hiIndex x.hi) i))) ∧
      (Ready .weirArriveWait r s → recordsFree (atStep (admitted r s)) r.station r.fnStamp.toNat 1 = true →
        exec (.weirArriveWait r) s = .next (settled (homeStep (admitted r s) r.station (Handle.hi r.handle) fun t =>
          answeredAtNode .weirArriveWait r (countStale t r.fnStamp.toNat i.status) (hiIndex x.hi) i)))) ∧
    (Ready .weirArriveWait r s → recordsFree (atStep (admitted r s)) r.station r.fnStamp.toNat 1 = false →
      exec (.weirArriveWait r) s = .next (settled (homeStep (admitted r s) r.station (Handle.hi r.handle) fun t =>
        answered (countRefusal t r.fnStamp.toNat .quota) r (plain .quota)))) ∧
    (arrivalRefusal (atStep (admitted r s)) r.station x r.agent.toNat (r.operandA.setWidth 32)
      (if r.payload then some r.data else none) = none →
    (Ready .weirArrive r s →
      exec (.weirArrive r) s = .next (settled (homeStep (admitted r s) r.station (Handle.hi r.handle) fun t =>
        let u := weirTest t r.fnStamp.toNat x.params (r.release.toNat != 0) r.scope.toNat
        let y := arrivedAt x u.clock.fc (odd32 (r.operandA.setWidth 32)) r.agent.toNat
          (mergedWith u x b (if r.payload then some r.data else none) r.agent.toNat)
        checkNode (answeredAtNode .weirArrive r (putNode u r.station (hiIndex x.hi) y) (hiIndex x.hi)
          ⟨.ok, BitVec.ofNat 64 (r.operandA.toNat % 2 ^ 32),
            if y.full (odd32 (r.operandA.setWidth 32)) then 1 else 0, none, none⟩)
          r.station (hiIndex x.hi) (odd32 (r.operandA.setWidth 32))))) ∧
    (Ready .weirArriveWait r s →
      recordsFree (atStep (admitted r s)) r.station r.fnStamp.toNat 1 = true →
      exec (.weirArriveWait r) s = .next (settled (homeStep (admitted r s) r.station (Handle.hi r.handle) fun t =>
        let u := linkWait (weirTest t r.fnStamp.toNat x.params (r.release.toNat != 0 || r.acquire.toNat != 0) r.scope.toNat)
          (admOf .weirArriveWait r) (hiIndex x.hi) (r.operandA.setWidth 32)
        checkNode (putNode u r.station (hiIndex x.hi)
            (arrivedAt x u.clock.fc (odd32 (r.operandA.setWidth 32)) r.agent.toNat
              (mergedWith u x b (if r.payload then some r.data else none) r.agent.toNat)))
          r.station (hiIndex x.hi) (odd32 (r.operandA.setWidth 32))))))

/-- WEIR_WAIT (R172, R173): at a node, on an epoch that has completed it ends at once with its result, and on the open epoch
or the next it is linked; on one beyond the next it returns AHEAD with the open epoch, at a broken node BROKEN or LINKLOST, at
a failed one INTEGRITY; a wait that needs a waiter record and finds none is refused with QUOTA. At a station without a node it
makes a listener and subscribes at the home, beside the node of another weir that has the index there. -/
def Obligations.WeirWaits : Prop :=
  ∀ (r : OpRec) (s : State), Ready .weirWait r s →
    (∀ x i, nodeFor (admitted r s) r.station r.handle = some x → x.pendingReply = false →
      (x.failed = true ∧ i = plain .integrity) ∨
      (x.failed = false ∧ x.broken = true ∧ i = plain (if x.lost then .linklost else .broken)) ∨
      (x.failed = false ∧ x.broken = false ∧ 2 ≤ ((r.operandA.setWidth 32) - x.open_).toNat ∧
        ((r.operandA.setWidth 32) - x.open_).toNat < 2 ^ 31 ∧ i = ⟨.ahead, BitVec.ofNat 64 x.open_.toNat, 0, none, none⟩) →
      exec (.weirWait r) s = .next (settled (homeStep (admitted r s) r.station (Handle.hi r.handle) fun t =>
        answeredAtNode .weirWait r (countStale t r.fnStamp.toNat i.status) (hiIndex x.hi) i))) ∧
    (∀ x, nodeFor (admitted r s) r.station r.handle = some x → x.pendingReply = false → x.failed = false →
      x.broken = false →
      (2 ^ 31 ≤ ((r.operandA.setWidth 32) - x.open_).toNat →
        exec (.weirWait r) s = .next (settled (homeStep (admitted r s) r.station (Handle.hi r.handle) fun t =>
          answeredAtNode .weirWait r t (hiIndex x.hi) (weirEnd x.params true (x.open_ - 1) x.lastResult)))) ∧
      (((r.operandA.setWidth 32) - x.open_).toNat < 2 → recordsFree (admitted r s) r.station r.fnStamp.toNat 1 = false →
        exec (.weirWait r) s = .next (settled (homeStep (admitted r s) r.station (Handle.hi r.handle) fun t =>
          answered (countRefusal t r.fnStamp.toNat .quota) r (plain .quota)))) ∧
      (((r.operandA.setWidth 32) - x.open_).toNat < 2 → recordsFree (admitted r s) r.station r.fnStamp.toNat 1 = true →
        exec (.weirWait r) s = .next (settled (homeStep (admitted r s) r.station (Handle.hi r.handle) fun t =>
          linkWait (weirTest t r.fnStamp.toNat x.params (r.acquire.toNat != 0) r.scope.toNat)
            (admOf .weirWait r) (hiIndex x.hi) (r.operandA.setWidth 32))))) ∧
    (∀ e, nodeFor (admitted r s) r.station r.handle = none → chartAt (admitted r s) r.station (Handle.index r.handle) = some e →
      nodeAt (admitted r s) r.station (Handle.index r.handle) = none →
      recordsFree (admitted r s) r.station r.fnStamp.toNat 2 = true →
      exec (.weirWait r) s = .next (settled
        (send (takeWaiter (putNode (admitted r s) r.station (Handle.index r.handle)
              (listenerNode (admitted r s) (Handle.hi r.handle) e.home r.station))
            (admOf .weirWait r) 0 .pending (.listener (Handle.index r.handle) (r.operandA.setWidth 32))).1
          r.station e.home (.subscribe r.handle)))) ∧
    (∀ e, nodeFor (admitted r s) r.station r.handle = none → chartAt (admitted r s) r.station (Handle.index r.handle) = some e →
      (nodeAt (admitted r s) r.station (Handle.index r.handle)).isSome = true →
      recordsFree (admitted r s) r.station r.fnStamp.toNat 2 = true →
      exec (.weirWait r) s = .next (settled
        (send (takeWaiter (onStation (admitted r s) r.station fun st => { st with
              nodes := tput st.nodes (strayKey (Handle.hi r.handle))
                (listenerNode (admitted r s) (Handle.hi r.handle) e.home r.station) })
            (admOf .weirWait r) 0 .pending (.listener (Handle.index r.handle) (r.operandA.setWidth 32))).1
          r.station e.home (.subscribe r.handle)))) ∧
    (∀ e, nodeFor (admitted r s) r.station r.handle = none → chartAt (admitted r s) r.station (Handle.index r.handle) = some e →
      recordsFree (admitted r s) r.station r.fnStamp.toNat 2 = false →
      exec (.weirWait r) s = .next (settled (answered (countRefusal (admitted r s) r.fnStamp.toNat .quota) r (plain .quota))))

/-- WEIR_READ and WEIR_POLICY at the weir's home (R174, R175). -/
def Obligations.WeirReadPolicy : Prop :=
  ∀ (r : OpRec) (s : State) (o : Obj) (w : Weir), o.body = .weir w →
    (MeetsHere .weirRead r s o →
      exec (.weirRead r) s = .next (settled (doneHere .weirRead r s o fun t _ f =>
        answer t r.station f ⟨.ok, BitVec.ofNat 64 w.openEpoch.toNat,
          BitVec.ofNat 64 (w.resultCount * 2 ^ 32 + w.state), some w.result, none⟩))) ∧
    (MeetsHere .weirPolicy r s o → r.payload = true → payloadNat r.data 8 56 = 0 →
      payloadNat r.data 0 8 = payloadNat r.data 0 8 % 2 + payloadNat r.data 0 8 / 2 ^ 16 % 2 ^ 16 * 2 ^ 16 →
      exec (.weirPolicy r) s = .next (settled (doneHere .weirPolicy r s o fun t _ f =>
        reply (hintPolicy t o.hi (payloadNat r.data 0 8 % 2 == 1) (payloadNat r.data 0 8 / 2 ^ 16 % 2 ^ 16))
          r.station f 0 0)))

/-! ## Landing counters and seals -/

/-- LAND_EXPECT, LAND_WAIT, LAND_READ and LAND_RENEW on the counter's present generation (R219, R226 to R228, R240); a
LAND_EXPECT of 0, or beyond the largest number, is refused with PRIVILEGE and has no effect (its object's tracker counts it,
the model's choice, log entry 85). The waits that a LAND_RENEW ends are told by the wake's message (the model's choice, log
entry 83). A LAND_WAIT whose condition does not hold registers in an eddy, of which a landing counter has at most four (R228).
-/
def Obligations.LandingOperations : Prop :=
  ∀ (r : OpRec) (s : State) (o : Obj) (l : Landing), o.body = .landing l → Handle.sel r.handle = l.xgen.toNat →
    (MeetsHere .landExpect r s o → r.operandA ≠ 0 → l.expect.toNat + r.operandA.toNat < 2 ^ 64 →
      exec (.landExpect r) s = .next (settled (doneHere .landExpect r s o fun t o' f =>
        reply (noteShadow (setObj t r.station (hiIndex o.hi)
            { o' with body := .landing { l with expect := l.expect + r.operandA } })
          { o' with body := .landing { l with expect := l.expect + r.operandA } } 2 .ok r.agent.toNat)
          r.station f l.expect 0))) ∧
    (MeetsHere .landExpect r s o → r.operandA = 0 ∨ 2 ^ 64 ≤ l.expect.toNat + r.operandA.toNat →
      exec (.landExpect r) s = .next (settled (doneHere .landExpect r s o fun t _ f => refuse t r.station f .privilege))) ∧
    (MeetsHere .landRead r s o →
      exec (.landRead r) s = .next (settled (doneHere .landRead r s o fun t _ f =>
        reply t r.station f l.landed l.expect))) ∧
    (WaitsHere .landWait r s o → (if r.operandA = 0 then l.expect else r.operandA).toNat ≤ l.landed.toNat →
      exec (.landWait r) s = .next (settled (waitedHere .landWait r s o fun t _ f => reply t r.station f 0 0))) ∧
    (∀ n, WaitsHere .landWait r s o → n = (if r.operandA = 0 then l.expect else r.operandA) → l.landed.toNat < n.toNat →
      exec (.landWait r) s = .next (settled (waitedHere .landWait r s o fun t o' f =>
        registerWait t r.station o' l.eddies 4 false n f false fun es => .landing { l with eddies := es }))) ∧
    (MeetsHere .landRenew r s o →
      exec (.landRenew r) s = .next (settled (doneHere .landRenew r s o fun t o' f =>
        let fresh : Obj := { o' with body := .landing ⟨0, 0, l.xgen + 1, [], [], 0⟩ }
        let t1 := setObj t r.station (hiIndex o.hi) fresh
        let t2 := sendAll (releaseTests t1 (hiFn o.hi) f l.eddies) r.station
          (endEddies t1 r.station (landHandle t1 o' l) l.eddies (plain .stale))
        let t3 := sendAll t2 r.station (sealMsgs t2 o.hi l.seals .sealDiscard)
        reply (noteShadow t3 fresh 2 .ok r.agent.toNat) r.station f
          (landHandle t3 fresh ⟨0, 0, l.xgen + 1, [], [], 0⟩) l.landed)))

/-- The landing opcodes return STALE where the selector is not the counter's extra generation (R219); LAND_READ's answer gives
the present handle. -/
def Obligations.LandingStale : Prop :=
  ∀ (r : OpRec) (s : State) (o : Obj) (l : Landing), o.body = .landing l → Handle.sel r.handle ≠ l.xgen.toNat →
    (∀ op, op ∈ ([.landExpect, .landRead, .landSeal, .landRenew] : List Opcode) → MeetsHere op r s o →
      exec (recordCommand op r) s = .next (settled (doneHere op r s o fun t o' f =>
        answer t r.station f ⟨.stale, if op = .landRead then landHandle t o' l else 0, 0, none, none⟩))) ∧
    (WaitsHere .landWait r s o →
      exec (.landWait r) s = .next (settled (waitedHere .landWait r s o fun t _ f =>
        answer t r.station f ⟨.stale, 0, 0, none, none⟩)))

/-- LAND_SEAL (R234, R236): a seal that finds an entry in a group buffer is deposited there (in the lowest free entry of the
allotment, the model's choice, log entry 81), and released at once where the counter has landed what it expects; else it is
held. One whose mask is zero, whose address is not aligned or that has no payload is refused with PRIVILEGE, where QUOTA does
not come first (the order is the model's, log entry 63). -/
def Obligations.LandSeal : Prop :=
  ∀ (r : OpRec) (s : State) (o : Obj) (l : Landing), o.body = .landing l → Handle.sel r.handle = l.xgen.toNat →
    MeetsHere .landSeal r s o →
    exec (.landSeal r) s = .next (settled (doneHere .landSeal r s o fun t o' f =>
      match chooseSeal t r.station with
      | none => refuse t r.station f .quota
      | some (b, e) =>
        if l.landed.toNat < l.expect.toNat ∧ holdRefused t r.station o' l = true then refuse t r.station f .quota
        else if r.operandB = 0 ∨ r.operandA.toNat % 64 ≠ 0 ∨ r.payload = false then refuse t r.station f .privilege
        else
          let t1 := onStation t r.station fun st => { st with sealsUsed := st.sealsUsed ++ [256 * b + e] }
          let t2 := send t1 r.station (bufferStation t1 b)
            (.sealDeposit ⟨o.hi, l.xgen, b, e⟩ r.operandA r.operandB r.data)
          if l.expect.toNat ≤ l.landed.toNat then
            reply (send t2 r.station (bufferStation t2 b) (.sealRelease ⟨o.hi, l.xgen, b, e⟩)) r.station f 0 1
          else reply (setObj t2 r.station (hiIndex o.hi)
            { o' with body := .landing { l with seals := l.seals ++ [⟨l.xgen, b, e⟩] } }) r.station f 0 0))

/-! ## Queues -/

/-- Q_PUSH (R262, R266, R267): with enough tolled tokens it takes them from the toll and goes on into the tail window; with
fewer it is refused with QUOTA and counted (its object's tracker counts it too, the model's choice, log entry 85). -/
def Obligations.QueuePush : Prop :=
  ∀ (r : OpRec) (s : State) (o : Obj) (q : Queue) (toks : List Token), o.body = .queue q → q.faultAt = none →
    MeetsHere .qPush r s o → pushTokens (travelling .qPush r (admitted r s) 0) = some toks →
    (toks.length ≤ q.tollOut →
      exec (.qPush r) s = .next (settled (doneHere .qPush r s o fun t o' f =>
        let p : Pushing := ⟨r.agent.toNat, r.station, f.tag, r.release.toNat, r.scope.toNat, q.push, endCount toks, toks⟩
        continuePush t r.station o' { q with
          tollOut := q.tollOut - toks.length, pushing := some p
          quals := (q.quals.filter fun x => q.rel < x.2.1) ++
            [(q.push, q.push + toks.length, r.scope.toNat, r.release.toNat)] } p))) ∧
    (q.tollOut < toks.length →
      exec (.qPush r) s = .next (settled (doneHere .qPush r s o fun t _ f =>
        refuse (bumpFn t (hiFn o.hi) 0x20) r.station f .quota)))

/-- Tokens that leave room in the tail window enter it in order, and no other part of the queue changes (R266). -/
def Obligations.TailTakesTokens : Prop :=
  ∀ (s : State) (home : Nat) (hi : BitVec 40) (q : Queue) (l : List Token) (fuel : Nat),
    q.spillTail = 0 → q.tail.length + l.length < 16 →
    writeTail home hi (fuel + 1) s q l =
      (s, { q with tail := q.tail ++ l, push := q.push + l.length }, [])

/-- Q_POP (R263, R268 to R270, R275): where its condition holds on tokens that a window holds, they are popped in order and
returned; where it does not, and the idle time has passed, a pop with k of 1 or more takes its tokens with IDLE_TAIL; else, and
where the next token lies in no window, the wait joins its eddy. Tokens that a grant brought back go first (the model's choice,
log entry 71). -/
def Obligations.QueuePop : Prop :=
  ∀ (r : OpRec) (s : State) (o : Obj) (q : Queue) (k m : Nat) (stop now : Bool), o.body = .queue q → q.faultAt = none →
    WaitsHere .qPop r s o → m = r.operandA.toNat % 16 → 1 ≤ m → m ≤ 8 → stop = bit r.operandA 8 →
    k = r.operandB.toNat % 2 ^ 29 → k ≤ q.capacity → now = (decide (q.read < q.push) && q.present) →
    (q.returned = [] → now = true → q.holds k = true →
      exec (.qPop r) s = .next (settled (waitedHere .qPop r s o fun t o' f =>
        let toks := q.takeTokens stop m q.read
        let (u, o1) := settleQueue (bumpBy t 0x280103 toks.length) r.station o' ((q.popped toks).rearm t) none
        answer (noteShadow u o1 2 .ok r.agent.toNat) r.station f (popInfo .ok q.read toks none)))) ∧
    (q.returned = [] → now = true → q.holds k = false → q.idleDue = true → 1 ≤ k →
      exec (.qPop r) s = .next (settled (waitedHere .qPop r s o fun t o' f =>
        let toks := q.takeTokens stop m q.read
        let (u, o1) := settleQueue (bumpBy (bump t 0x280404) 0x280103 toks.length) r.station o'
          (({ q.popped toks with idleDue := false } : Queue).rearm t) none
        answer (noteShadow u o1 2 .ok r.agent.toNat) r.station f (popInfo .idleTail q.read toks none)))) ∧
    (q.returned = [] → (now = false ∨ (q.holds k = false ∧ (q.idleDue = false ∨ k = 0))) →
      exec (.qPop r) s = .next (settled (waitedHere .qPop r s o fun t o' f =>
        registerWait t r.station o' q.popEddies 4 true (popKey k m stop) f false
          fun es => .queue { q with popEddies := es }))) ∧
    (∀ p tok rest, q.returned = (p, tok) :: rest →
      exec (.qPop r) s = .next (settled (waitedHere .qPop r s o fun t o' f =>
        let toks := takeRun stop m p q.returned
        let (u, o1) := settleQueue (bumpBy t 0x280103 toks.length) r.station o'
          (({ q with returned := q.returned.drop toks.length } : Queue).rearm t) none
        answer (noteShadow u o1 2 .ok r.agent.toNat) r.station f (popInfo .ok p toks none))))

/-- Q_MARK, Q_REWIND, Q_RELEASE and Q_READ (R271 to R273, Table 8.4). A rewind gives back the tokens that were returned from
the mark on, with the rest (the model's choice, log entry 71). -/
def Obligations.QueueCursors : Prop :=
  ∀ (r : OpRec) (s : State) (o : Obj) (q : Queue), o.body = .queue q → q.faultAt = none →
    (MeetsHere .qMark r s o →
      exec (.qMark r) s = .next (settled (doneHere .qMark r s o fun t o' f =>
        reply (setObj t r.station (hiIndex o.hi)
          { o' with body := .queue { q with mark := q.read, marksSince := 0, markValid := true } })
          r.station f (BitVec.ofNat 64 q.read) 0))) ∧
    (MeetsHere .qRewind r s o → q.markValid = false →
      exec (.qRewind r) s = .next (settled (doneHere .qRewind r s o fun t _ f => refuse t r.station f .stale))) ∧
    (MeetsHere .qRewind r s o → q.markValid = true →
      exec (.qRewind r) s = .next (settled (doneHere .qRewind r s o fun t o' f =>
        let back := { q with
          packets := q.packets + q.marksSince, marksSince := 0, read := q.mark
          returned := q.returned.filter fun x => x.1 < q.mark || q.read ≤ x.1 }
        let (u, o1) := settleQueue (bumpFn t (hiFn o.hi) 0x22) r.station o'
          (if q.read = q.push ∧ q.mark ≠ q.push then back.arm t else back) none
        reply (noteShadow u o1 2 .ok r.agent.toNat) r.station f (BitVec.ofNat 64 (q.read - q.mark)) 0))) ∧
    (∀ n, n = (if r.operandA = 0 then q.read - q.rel else r.operandA.toNat) → MeetsHere .qRelease r s o →
      (q.read < q.rel + n →
        exec (.qRelease r) s = .next (settled (doneHere .qRelease r s o fun t _ f => refuse t r.station f .privilege))) ∧
      (q.rel + n ≤ q.read →
        exec (.qRelease r) s = .next (settled (doneHere .qRelease r s o fun t o' f =>
          let (u, o1) := releaseTokens t r.station o' q n (some f)
          reply (noteShadow u o1 2 .ok r.agent.toNat) r.station f (BitVec.ofNat 64 (q.rel + n))
            (BitVec.ofNat 64 (match o1.body with | .queue x => x.free | _ => 0)))))) ∧
    (MeetsHere .qRead r s o →
      exec (.qRead r) s = .next (settled (doneHere .qRead r s o fun t _ f =>
        reply t r.station f (BitVec.ofNat 64 (q.push - q.read))
          (BitVec.ofNat 64 (q.packets + q.tollOut * 2 ^ 29 + q.state * 2 ^ 58)))))

/-- Q_TOLL and Q_POLICY (R263, R274): toll is granted from the free space, or waited for in one of two eddies; an amount of 0 or
beyond the capacity is refused with PRIVILEGE. A policy word's idle timeout of 0 stands for q_idle_default_ac, and bit 32 turns
the idle timeout off. -/
def Obligations.QueueTollPolicy : Prop :=
  ∀ (r : OpRec) (s : State) (o : Obj) (q : Queue), o.body = .queue q → q.faultAt = none →
    (WaitsHere .qToll r s o → r.operandA ≠ 0 → r.operandA.toNat ≤ q.free → r.operandA.toNat ≤ q.capacity →
      exec (.qToll r) s = .next (settled (waitedHere .qToll r s o fun t o' f =>
        reply (setObj t r.station (hiIndex o.hi)
          { o' with body := .queue { q with tollOut := q.tollOut + r.operandA.toNat } }) r.station f 0 0))) ∧
    (WaitsHere .qToll r s o → q.free < r.operandA.toNat → r.operandA.toNat ≤ q.capacity →
      exec (.qToll r) s = .next (settled (waitedHere .qToll r s o fun t o' f =>
        registerWait t r.station o' q.tollEddies 2 true r.operandA f true fun es => .queue { q with tollEddies := es }))) ∧
    (WaitsHere .qToll r s o → r.operandA = 0 ∨ q.capacity < r.operandA.toNat →
      exec (.qToll r) s = .next (settled (waitedHere .qToll r s o fun t _ f => refuse t r.station f .privilege))) ∧
    (∀ v, MeetsHere .qPolicy r s o → r.payload = true → payloadNat r.data 8 56 = 0 →
      payloadNat r.data 0 8 = v → v < 2 ^ 33 →
      exec (.qPolicy r) s = .next (settled (doneHere .qPolicy r s o fun t o' f =>
        reply (setObj t r.station (hiIndex o.hi) { o' with body := .queue { q with
          idleAc := if 2 ^ 32 ≤ v then 0 else if v = 0 then setting t 0x280200 else v } }) r.station f 0 0)))

/-- A block of 16 tokens that a spill writes as a frame is the block that its refill reads (R291). -/
def Obligations.SpillFrameRoundTrip : Prop :=
  ∀ (b : Nat) (toks : List Token), toks.length = 16 →
    frameTokens ((frameSegments (frameOf b toks)).flatMap payloadBytes) = toks

/-! ## Fire rules, keepers and beacon slots -/

/-- FR_ARM, FR_DISARM and FR_READ (R326, R333). -/
def Obligations.RuleOperations : Prop :=
  ∀ (r : OpRec) (s : State) (o : Obj) (x : Rule), o.body = .rule x →
    (∀ y : Rule, MeetsHere .frArm r s o → x.state = 0 ∨ x.state = 3 →
      (bit r.operandA 8 = true → localityOk (bits r.operandA 7 0) = true) →
      y = { x with
        argument := r.operandB, locality := if bit r.operandA 8 then bits r.operandA 7 0 else x.locality
        scope := r.scope.toNat, met := [], armSeq := (x.armSeq + 1) % 256, state := 1 } →
      exec (.frArm r) s = .next (settled (doneHere .frArm r s o fun t o' f =>
        reply (toInputs (putRule t r.station o' y r.agent.toNat) r.station y fun i h => .activate h (nameOf o.hi) i y.armSeq)
          r.station f (BitVec.ofNat 64 x.fireSeq) 0))) ∧
    (∀ y : Rule, MeetsHere .frDisarm r s o → x.state = 1 →
      y = { x with state := 0, armSeq := (x.armSeq + 1) % 256, met := [] } →
      exec (.frDisarm r) s = .next (settled (doneHere .frDisarm r s o fun t o' f =>
        reply (toInputs (putRule t r.station o' y r.agent.toNat) r.station y fun i h => .deactivate h (nameOf o.hi) i)
          r.station f (BitVec.ofNat 64 x.fireSeq) 0))) ∧
    (MeetsHere .frDisarm r s o → x.state = 2 →
      exec (.frDisarm r) s = .next (settled (doneHere .frDisarm r s o fun t o' f =>
        reply (setObj t r.station (hiIndex o.hi) { o' with body := .rule { x with disarmPending := true } })
          r.station f (BitVec.ofNat 64 x.fireSeq) 0))) ∧
    (MeetsHere .frRead r s o →
      exec (.frRead r) s = .next (settled (doneHere .frRead r s o fun t _ f =>
        answer t r.station f ⟨.ok, BitVec.ofNat 64 x.fireSeq, BitVec.ofNat 64 (ruleWord x),
          some (descriptor x (x.fireSeq + 1) 0 0 0), none⟩)))

/-- SK_READ, SK_POLICY, SK_EXPORT and SK_IMPORT at the keeper's home (R368 to R372). -/
def Obligations.KeeperOperations : Prop :=
  ∀ (r : OpRec) (s : State) (o : Obj) (k : Keeper), o.body = .keeper k →
    (∀ d, MeetsHere .skRead r s o → k.view (bits r.operandA 1 0) (Handle.sel r.handle) = some d →
      exec (.skRead r) s = .next (settled (doneHere .skRead r s o fun t _ f =>
        answer t r.station f ⟨.ok, k.steps,
          BitVec.ofNat 64 (flag k.lastSkipped + 2 * flag k.episode + 2 ^ 32 * (k.groups.filter fun g => !g.anchored).length),
          some d, none⟩))) ∧
    (MeetsHere .skPolicy r s o → r.payload = true → policyOk r.data = true → (policyOf r.data).count ≠ 0 →
      (policyOf r.data).first + (policyOf r.data).count ≤ k.groups.length →
      exec (.skPolicy r) s = .next (settled (doneHere .skPolicy r s o fun t o' f =>
        reply (setObj t r.station (hiIndex o.hi) { o' with body := .keeper { k with
            groups := appliedTo ((policyOf r.data).resolve t) (policyOf r.data).first (policyOf r.data).count k.groups } })
          r.station f 0 0))) ∧
    (MeetsHere .skExport r s o → k.transfer = 0 →
      exec (.skExport r) s = .next (settled (doneHere .skExport r s o fun t o' f =>
        if betweenSteps k then
          let image := k.image (fnSetting t (hiFn o.hi) 0x1A % 2 ^ 32)
          imageXacts (addJob (setObj t r.station (hiIndex o.hi) { o' with body := .keeper { k with transfer := 1 } }) r.station
              ⟨o.hi, .keeperExport ((k.length + 255) / 256) image, r.station, f.tag, r.agent.toNat⟩)
            r.station o' r.operandA.toNat k.length (some image)
        else refuse t r.station f .stale))) ∧
    (MeetsHere .skImport r s o → k.transfer = 0 → r.payload = true → payloadNat r.data 4 4 = k.length →
      payloadNat r.data 8 56 = 0 →
      exec (.skImport r) s = .next (settled (doneHere .skImport r s o fun t o' f =>
        if betweenSteps k then
          imageXacts (addJob (setObj t r.station (hiIndex o.hi) { o' with body := .keeper { k with transfer := 2 } }) r.station
              ⟨o.hi, .keeperImport ((k.length + 255) / 256) ((k.length + 255) / 256) [] (BitVec.ofNat 32 (payloadNat r.data 0 4))
                false, r.station, f.tag, r.agent.toNat⟩)
            r.station o' r.operandA.toNat k.length none
        else refuse t r.station f .stale)))

/-- SK_REPORT (R352, R357, R358): at a station with the keeper weir's node a report in range is an arrival at that weir, answered
with the weir's epoch and whether it filled the bank (that value_b says so is the model's reading, log entry 33). -/
def Obligations.KeeperReport : Prop :=
  ∀ (r : OpRec) (s : State) (x : Node) (k : BitVec 40) (g : Nat), Ready .skReport r s →
    keeperNode (admitted r s) r.station (Handle.hi r.handle) = some x → x.params.keeper = some (k, g) → x.keeperLost = false →
    (reportBad (admOf .skReport r) g = true →
      exec (.skReport r) s =
        .next (settled (answered (countRefusal (admitted r s) r.fnStamp.toNat .privilege) r (plain .privilege)))) ∧
    (∀ e : BitVec 32, reportBad (admOf .skReport r) g = false →
      e = BitVec.ofNat 32 (r.operandA.toNat % 2 ^ 32 * ((g + 3) / 4) + Handle.sel r.handle) →
      arrivalRefusal (atStep (admitted r s)) r.station x r.agent.toNat e (if r.payload then some r.data else none) = none →
      exec (.skReport r) s = .next (settled (homeStep (admitted r s) r.station x.hi fun t =>
        let u := weirTest t r.fnStamp.toNat x.params (r.release.toNat != 0) r.scope.toNat
        let y := arrivedAt x u.clock.fc (odd32 e) r.agent.toNat
          (mergedWith u x (x.bank (odd32 e)) (if r.payload then some r.data else none) r.agent.toNat)
        checkNode (answeredAtNode .skReport r (putNode u r.station (hiIndex x.hi) y) (hiIndex x.hi)
          ⟨.ok, BitVec.ofNat 64 e.toNat, if y.full (odd32 e) then 1 else 0, none, none⟩)
          r.station (hiIndex x.hi) (odd32 e))))

/-- BCN_WRITE and BCN_READ at the slot's home (R134, R135): the word is written in the home's page, and every other station
is sent its update. -/
def Obligations.BeaconOperations : Prop :=
  ∀ (r : OpRec) (s : State) (o : Obj) (b : Beacon), o.body = .beacon b →
    (MeetsHere .bcnWrite r s o →
      exec (.bcnWrite r) s = .next (settled (doneHere .bcnWrite r s o fun t o' f =>
        let u := broadcast (setBeacon (setObj t r.station (hiIndex o.hi)
          { o' with body := .beacon { b with value := r.operandA } }) r.station b.word r.operandA) r.station
          (.beaconUpdate b.word r.operandA false false (issue t o.hi 0))
        reply (noteShadow u { o' with body := .beacon { b with value := r.operandA } } 2 .ok r.agent.toNat) r.station f
          b.value (BitVec.ofNat 64 b.word)))) ∧
    (MeetsHere .bcnRead r s o →
      exec (.bcnRead r) s = .next (settled (doneHere .bcnRead r s o fun t _ f =>
        reply t r.station f (beaconAt t r.station b.word) (BitVec.ofNat 64 b.word))))

/-- Reads of the beacon page and accesses that a station cannot parse, at a station whose port is present (R96, R124, R520,
R521, R524, R531, R532, Table 16.1): their credits return as they are taken, a fault is counted, and an error response goes back,
on the received lane where the header failed its parity; at a dozing station they wait, and the towpath answers errors. -/
def Obligations.ApertureAccesses : Prop :=
  (∀ (a : ApertureRead) (s t : State), portHere s a.station = true →
    t = creditsBack s (.xpRequest a.station (a.initId.toNat % 2)) 1 →
    (towpathActs s a.station = false → (station s a.station).state ≠ .dozing →
      (beaconFits a = true →
        exec (.beaconRead a) s = .next (settled (putRsp (touch t a.station) a.station (.access a.aux a.initId a.xtag none false
          (wordsBeat ((List.range (if a.wide then 4 else 1)).map fun i =>
            beaconSeen t a.station a.fnStamp.toNat (a.word + i))))))) ∧
      (beaconFits a = false →
        exec (.beaconRead a) s =
          .next (settled (bump (errorRsp t a.station a.aux a.initId a.xtag none) 0x230505)))) ∧
    (towpathActs s a.station = false → (station s a.station).state = .dozing →
      exec (.beaconRead a) s = .next (settled (onStation s a.station fun st => { st with
          rx := st.rx ++ [.beacon a]
          holdUntil :=
            let limit := s.clock.fc + setting s 0x2F0200
            if st.rx.isEmpty then limit else min st.holdUntil limit }))) ∧
    (towpathActs s a.station = true →
      exec (.beaconRead a) s =
        .next (settled (bump (errorRsp t a.station a.aux a.initId a.xtag none) 0x2F0301)))) ∧
  (∀ (n k j : Nat) (aux wide both : Bool) (initId xtag : BitVec 12) (lane : BitVec 1) (s : State), portHere s n = true →
    k = (if wide then 2 else 1) → j = (if wide && both then 2 else 1) →
    (towpathActs s n = false → (station s n).state ≠ .dozing →
      exec (.apertureError n aux initId xtag ⟨.headerParity, lane, wide, both⟩) s = .next (settled (errorRsp
        (creditsBack (portFailsBy s 1 n 1 j) (.xpRequest n lane.toNat) k) n aux initId xtag (some lane.toNat))) ∧
      exec (.apertureError n aux initId xtag ⟨.uncorrectable, lane, wide, both⟩) s = .next (settled (errorRsp
        (creditsBack (portFailsBy s 1 n 2 j) (.xpRequest n lane.toNat) k) n aux initId xtag none)) ∧
      exec (.apertureError n aux initId xtag ⟨.unaccepted, lane, wide, both⟩) s = .next (settled (bump (errorRsp
        (creditsBack s (.xpRequest n lane.toNat) k) n aux initId xtag none) 0x230505))) ∧
    (towpathActs s n = true →
      exec (.apertureError n aux initId xtag ⟨.unaccepted, lane, wide, both⟩) s = .next (settled (bump (errorRsp
        (creditsBack s (.xpRequest n lane.toNat) k) n aux initId xtag none) 0x2F0301))) ∧
    exec (.apertureError n aux initId xtag ⟨.withoutCredit, lane, wide, both⟩) s = .next (settled
      (creditsBack (portFailsBy s 1 n 3 j) (.xpRequest n lane.toNat) (k - j))))

/-! ## Creation and destruction -/

/-- The creations at their own entry station (R28, R153, R163, R226, R134, R287, R321, R351, R611): the commit of a simple
object is broadcast, and its handle announced once every station has taken it (the model's reading, log entry 52); a beacon
slot takes the lowest free word of the page (the model's choice, log entry 7); a queue waits for its extent (one without a
policy word has the default idle timeout, the model's choice, log entry 63), a weir for its members, a rule for its inputs and
its target, a keeper for its weir's members. -/
def Obligations.CreationsHere : Prop :=
  ∀ (r : OpRec) (s t : State) (f : FwdOp),
    (f = travelling .ctrCreate r (admitted r s) 0 → CreatesHere .ctrCreate r s t → objectQuota t (Handle.fn r.handle) = true →
      ∀ o u, newObj t r.station (Handle.fn r.handle) 1 (.counter ⟨r.operandA, [], 0⟩) = some (o, u) →
      exec (.ctrCreate r) s = .next (settled (createdHere .ctrCreate r s
        (announce (publish u r.station o r.agent.toNat) r.station o.hi r.station f.tag r.agent.toNat (issue u o.hi 0) 0)))) ∧
    (f = travelling .landCreate r (admitted r s) 0 → CreatesHere .landCreate r s t → objectQuota t (Handle.fn r.handle) = true →
      ∀ o u, newObj t r.station (Handle.fn r.handle) 3 (.landing ⟨0, 0, 0, [], [], 0⟩) = some (o, u) →
      exec (.landCreate r) s = .next (settled (createdHere .landCreate r s
        (announce (publish u r.station o r.agent.toNat) r.station o.hi r.station f.tag r.agent.toNat (issue u o.hi 0) 0)))) ∧
    (f = travelling .bcnCreate r (admitted r s) 0 → CreatesHere .bcnCreate r s t → objectQuota t (Handle.fn r.handle) = true →
      ∀ w v o u, takeWord t (Handle.fn r.handle) = some (w, v) →
      newObj v r.station (Handle.fn r.handle) 7 (.beacon ⟨w, 0⟩) = some (o, u) →
      exec (.bcnCreate r) s = .next (settled (createdHere .bcnCreate r s
        (announce (publish u r.station o r.agent.toNat) r.station o.hi r.station f.tag r.agent.toNat (issue u o.hi 0)
          (BitVec.ofNat 64 w))))) ∧
    (f = travelling .qCreate r (admitted r s) 0 → CreatesHere .qCreate r s t → queueFieldsOk t f = true →
      objectQuota t (Handle.fn r.handle) = true → windowQuota t (Handle.fn r.handle) = true →
      ∀ o u, newObj t r.station (Handle.fn r.handle) 4 (.queue (newQueue t f)) = some (o, u) →
      exec (.qCreate r) s = .next (settled (createdHere .qCreate r s
        (addJob (send u r.station (ferryStation u (hiIndex o.hi)) (.reserveExtent (nameOf o.hi) (newQueue t f).bwReserved))
          r.station ⟨o.hi, .queueCreate, r.station, f.tag, r.agent.toNat⟩)))) ∧
    (f = travelling .weirCreate r (admitted r s) 0 → CreatesHere .weirCreate r s t → objectQuota t (Handle.fn r.handle) = true →
      nodeQuota t (Handle.fn r.handle) (newNode t 0 (weirParams r.operandA r.operandB f.data) r.station r.station 0)
        r.station 0 = true → bit r.operandB 3 = false →
      ∀ u o, startWeir t r.station (Handle.fn r.handle) { weirParams r.operandA r.operandB f.data with publish := none }
        r.station f.tag r.agent.toNat = some (u, o) →
      exec (.weirCreate r) s = .next (settled (createdHere .weirCreate r s (weirSettled u r.station o)))) ∧
    (f = travelling .frCreate r (admitted r s) 0 → CreatesHere .frCreate r s t → objectQuota t (Handle.fn r.handle) = true →
      recordsFree t r.station (Handle.fn r.handle) 1 = true →
      ∀ x o u, x = newRule (Handle.fn r.handle) r.operandA r.operandB (f.data.getD 0) → x.action = 0 →
      ruleHandlesOk t (Handle.fn r.handle) x = true →
      newObj t r.station (Handle.fn r.handle) 5 (.rule x) = some (o, u) →
      exec (.frCreate r) s = .next (settled (createdHere .frCreate r s
        (addJob (subscribeRule (toInputs u r.station x fun i h =>
            .register h i (x.inputs.getD i ⟨0, 0, 0⟩).threshold (x.inputs.getD i ⟨0, 0, 0⟩).step (nameOf o.hi)) r.station x true)
          r.station ⟨o.hi, .ruleCreate x.inputs.length none [], r.station, f.tag, r.agent.toNat⟩)))) ∧
    (f = travelling .skCreate r (admitted r s) 0 → CreatesHere .skCreate r s t → objectQuota t (Handle.fn r.handle) 2 = true →
      nodeQuota t (Handle.fn r.handle) (newNode t 0 (keeperParams r.operandA r.operandB) r.station r.station 0) r.station
        (2 * bits r.operandB 8 0) = true →
      ∀ k ko u v wo, k = newKeeper t r.operandB (policyOf (f.data.getD 0)) →
      newObj t r.station (Handle.fn r.handle) 6 (.keeper k) = some (ko, u) →
      startWeir u r.station (Handle.fn r.handle)
        { keeperParams r.operandA r.operandB with keeper := some (ko.hi, bits r.operandB 8 0) } r.station f.tag
        r.agent.toNat = some (v, wo) →
      exec (.skCreate r) s = .next (settled (createdHere .skCreate r s
        (weirSettled (setObj v r.station (hiIndex ko.hi) { ko with body := .keeper { k with weirHi := wo.hi } }) r.station wo))))

/-- A creation whose home is another station leaves for it, and one that no home can hold is refused (R341). -/
def Obligations.CreationsLeave : Prop :=
  ∀ (op : Opcode) (r : OpRec) (s : State), op.creates = true → Ready op r s →
    (∀ home, creationHome (admitted r s) (admOf op r) = .inr home → home ≠ r.station →
      exec (recordCommand op r) s = .next (settled
        (send (opened op r (admitted r s) none) r.station home (.fwdOp (travelling op r (admitted r s) 0))))) ∧
    (∀ st, creationHome (admitted r s) (admOf op r) = .inl st →
      exec (recordCommand op r) s =
        .next (settled (answered (countRefusal (admitted r s) r.fnStamp.toNat st) r (plain st))))

/-- DESTROY at the object's home (R105, R154, R219, R243, R280, R330, R136, R180, R374): every wait and watch of a counter or
landing counter ends, its seals are discarded (the endings travel as wakes, the model's choice, log entry 83), and OK is
answered; its index returns once the commit that clears it has reached every replica (the model's reading, log entry 52); a
handle with another extra generation than the landing counter's is STALE; a queue's extent is released first; a weir, a rule,
a keeper and a beacon slot end as their chapters say. -/
def Obligations.DestroyHere : Prop :=
  ∀ (r : OpRec) (s : State) (o : Obj), r.station < 66 → MeetsHere .destroy r s o →
    (∀ c, o.body = .counter c →
      exec (.destroy r) s = .next (settled (doneHere .destroy r s o fun t o' f =>
        let v := releaseTests t (hiFn o.hi) f c.eddies
        send (retire (lapseAll (sendAll v r.station (endEddies v r.station (issue v o.hi 0) c.eddies (plain .badhandle)))
            r.station o' .badhandle).1 r.station o' r.agent.toNat)
          r.station r.station (.response f.tag .ok 0 0 none)))) ∧
    (∀ l, o.body = .landing l → Handle.sel r.handle ≠ l.xgen.toNat →
      exec (.destroy r) s = .next (settled (doneHere .destroy r s o fun t _ f => refuse t r.station f .stale))) ∧
    (∀ l, o.body = .landing l → Handle.sel r.handle = l.xgen.toNat →
      exec (.destroy r) s = .next (settled (doneHere .destroy r s o fun t o' f =>
        let v := releaseTests t (hiFn o.hi) f l.eddies
        let u := sendAll v r.station (endEddies v r.station (landHandle v o' l) l.eddies (plain .badhandle))
        send (retire (lapseAll (sendAll u r.station (sealMsgs u o.hi l.seals .sealDiscard)) r.station o' .badhandle).1
            r.station o' r.agent.toNat)
          r.station r.station (.response f.tag .ok 0 0 none)))) ∧
    (∀ q, o.body = .queue q → q.pushing = none →
      exec (.destroy r) s = .next (settled (doneHere .destroy r s o fun t o' f =>
        let v := releaseTests t (hiFn o.hi) f q.tollEddies
        let u := (lapseAll (endQueueWaits v r.station o' q .badhandle) r.station o' .badhandle).1
        addJob (dropObj (send u r.station (ferryStation u (hiIndex o.hi)) (.releaseExtent (nameOf o.hi))) r.station
          (hiIndex o.hi)) r.station ⟨o.hi, .queueDestroy, r.station, f.tag, r.agent.toNat⟩))) ∧
    (∀ w, o.body = .weir w → w.params.keeper = none →
      exec (.destroy r) s = .next (settled (doneHere .destroy r s o fun t o' f =>
        teardownAcked (startTeardown t r.station o' w r.station f.tag r.agent.toNat none .badhandle) r.station r.station
          o.hi))) ∧
    (∀ w k, o.body = .weir w → w.params.keeper = some k →
      exec (.destroy r) s = .next (settled (doneHere .destroy r s o fun t _ f => refuse t r.station f .privilege))) ∧
    (∀ x, o.body = .rule x →
      exec (.destroy r) s = .next (settled (doneHere .destroy r s o fun t o' f =>
        destroyRule t r.station o' x r.station f.tag r.agent.toNat))) ∧
    (∀ k, o.body = .keeper k →
      exec (.destroy r) s = .next (settled (doneHere .destroy r s o fun t o' f =>
        destroyKeeper t r.station o' k r.station f.tag r.agent.toNat))) ∧
    (∀ b, o.body = .beacon b →
      exec (.destroy r) s = .next (settled (doneHere .destroy r s o fun t o' f =>
        destroyBeacon t r.station o' b r.station f.tag r.agent.toNat)))

/-! ## Messages of the operation interface -/

/-- FORWARDED_OPERATION (R26, R29, R345): at the home of the object that it meets the operation runs as it does at the entry
station; at a station that is not the home it is forwarded, and refused with RETRY the third time. -/
def Obligations.ForwardedOperations : Prop :=
  ∀ (s : State) (src dst : Nat) (f : FwdOp) (rest : List Msg), TakesMsg s src dst (.fwdOp f) rest →
    (station (taken s dst rest) dst).incoming = none →
    (∀ o, f.op.creates = false → f.op ≠ .cancel → homeOf (taken s dst rest) dst (Handle.index f.handle) = dst →
      Meets f (taken s dst rest) dst o →
      exec (.forwardedOperation src dst) s = .next (settled
        (atObjectHome f (taken s dst rest) dst o fun t o' => runOn t dst o' f))) ∧
    (f.op.creates = true → (fnOf (taken s dst rest) (Handle.fn f.handle)).state = .enabled →
      exec (.forwardedOperation src dst) s = .next (settled
        (stepOn (taken s dst rest) dst f.handle (createAt (atStep (taken s dst rest)) dst f)))) ∧
    (∀ home, f.op.creates = false → leaving (taken s dst rest) dst (Handle.index f.handle) = false →
      homeOf (taken s dst rest) dst (Handle.index f.handle) = home → home ≠ dst →
      (f.hops < 2 → exec (.forwardedOperation src dst) s = .next (settled
        (send (taken s dst rest) dst home (.fwdOp { f with hops := f.hops + 1 })))) ∧
      (2 ≤ f.hops → exec (.forwardedOperation src dst) s = .next (settled
        (send (bump (taken s dst rest) 0x210501) dst f.entry (.response f.tag .retry 0 0 none)))))

/-- OPERATION_RESPONSE (R110, R147, R152): an answer closes its transaction and is driven as the record's response; a
registration joins the wait, and PARKED answers a posted wait's record. What is given to a wait that was purged meanwhile goes
back (the model's reading, log entry 40). -/
def Obligations.OperationResponses : Prop :=
  (∀ (s : State) (src dst tag : Nat) (st : Status) (a b : Word) (d : Option Payload) (rest : List Msg) (o : OpenOp),
    TakesMsg s src dst (.response tag st a b d) rest →
    ((station (taken s dst rest) dst).openOps.find? fun x => x.tag == tag) = some o → o.wait = none → o.reply ≠ .closed →
    exec (.operationResponse src dst) s = .next (settled
      (respond (countRefusal (onStation (taken s dst rest) dst fun x =>
          { x with openOps := x.openOps.filter fun y => y.tag != tag }) o.fn st) dst o.reply
        (mkRsp o.acquire o.scope o.opTag ⟨st, a, b, d, none⟩)))) ∧
  (∀ (s t : State) (src dst tag ref id : Nat) (rest : List Msg) (o : OpenOp) (w : Waiter),
    TakesMsg s src dst (.registeredWait tag ref) rest →
    ((station (taken s dst rest) dst).openOps.find? fun x => x.tag == tag) = some o → o.wait = some id →
    t = onStation (taken s dst rest) dst (fun x => { x with openOps := x.openOps.filter fun y => y.tag != tag }) →
    waiterAt t dst id = some w → w.ended = none → w.cancel = none → w.failed = false → w.hold = false →
    exec (.operationResponse src dst) s = .next (settled
      (setWaiter (respond t dst w.reply (parkedRsp w.scope w.opTag)) dst
        { w with phase := .joined, place := .eddy src ref })))

/-- CHART_COMMIT (R28, R224, R344), at a station that is awake or dozes (R571): the replica takes the entry, or loses it where an
object has ended, and the reports kept for the index go on their way; the journaled commit of a migration is answered with FLUSH
first. The old home lets a migrated object go once the entry no longer says that it moves, and a rule of action 0 gives back the
load subscriptions it held there (R349). -/
def Obligations.ChartCommits : Prop :=
  (∀ (s t : State) (src dst index move home : Nat) (j : Bool) (rest : List Msg),
    ReachesMsg s src dst (.chartCommit index move home j) rest →
    t = chartSet { s with course := rest } dst index (some ⟨move, home⟩) →
    (move = 1 → exec (.chartCommit src dst) s = .next (settled (releaseReports t dst index))) ∧
    (move = 0 → leaving t dst index = false → exec (.chartCommit src dst) s =
      .next (settled (releaseReports t dst index))) ∧
    (move = 0 → leaving t dst index = true → home ≠ dst → exec (.chartCommit src dst) s = .next (settled
      (releaseReports (onStation (dropObj (unsubscribed t dst index) dst index) dst fun st => { st with outgoing := none })
        dst index))) ∧
    (move = 2 → (station s dst).incoming = none → exec (.chartCommit src dst) s = .next (settled
      (releaseReports (send t dst src (.flush (nameOf (handleHi 0 0 0 index)))) dst index)))) ∧
  (∀ (s : State) (src dst index : Nat) (rest : List Msg), ReachesMsg s src dst (.chartClear index) rest →
    exec (.chartCommit src dst) s =
      .next (settled (releaseReports (chartSet { s with course := rest } dst index none) dst index)))

/-- WAKE_REQUEST, WITHDRAWAL and WAIT_TIMEOUT (R115, R151, R152): a wake ends the joined waits that it names; a withdrawal
takes the wait out of its eddy and answers; a joined wait on an eddy that times out is withdrawn first, and one on a weir
ends with TIMEOUT. -/
def Obligations.WaitsEnd : Prop :=
  (∀ (s : State) (src dst id : Nat) (h : Word) (ref : Nat) (all : Bool) (i : EndInfo) (rest : List Msg) (w : Waiter),
    TakesMsg s src dst (.wake h ref none all [id] i) rest → waiterAt (taken s dst rest) dst id = some w → w.phase = .joined →
    exec (.wakeRequest src dst) s = .next (settled (endWait (taken s dst rest) dst w i))) ∧
  (∀ (s : State) (src dst entry id : Nat) (h : Word) (ref : Nat) (rest : List Msg) (o : Obj) (c : Counter),
    TakesMsg s src dst (.withdraw entry id h ref) rest → HomeHere (taken s dst rest) dst h →
    objAt (atStep (taken s dst rest)) dst (Handle.index h) = some o → o.body = .counter c →
    exec (.withdrawal src dst) s = .next (settled (stepOn (taken s dst rest) dst h
      (send (setObj (atStep (taken s dst rest)) dst (Handle.index h)
          { o with body := .counter { c with eddies := (leaveEddies c.eddies (entry, id)).1 } }) dst entry
        (.withdrawn id (leaveEddies c.eddies (entry, id)).2))))) ∧
  (∀ (s : State) (n id d home ref : Nat) (w : Waiter), takesNow s n true = true → waiterAt s n id = some w →
    waiterAt (foreground s n) n id = some w → w.deadline = some d → w.failed = false → w.phase = .joined →
    (w.place = .eddy home ref →
      exec (.waitTimeout n id) s = .next (settled
        (sendWithdrawal (setWaiter (passDeadline (foreground s n) d) n { w with phase := .withdrawing }) n
          { w with phase := .withdrawing }))) ∧
    (∀ index e, w.place = .weir index e →
      exec (.waitTimeout n id) s = .next (settled (endWait (passDeadline (foreground s n) d) n w (plain .timeout)))))

/-- PUSH_MESSAGE and PUSH_CREDIT_RETURN (R118 to R121, R526 to R528): the first ready message that its engine's mailbox and a
lane have credit for is pushed, and a return in form gives beats back to the mailbox. Which lane a push takes is the model's
choice (log entry 6). -/
def Obligations.PushChannel : Prop :=
  (∀ (s : State) (n lane : Nat) (m : PushMsg) (rest : List PushMsg), portsLive s = true → awake (station s n) = true →
    towpathActs s n = false → entryClosed s n = false → nextPush s n [] (station s n).ready = some m →
    laneFor (station s n).pushCredit m.cost = some lane → takeFirst (· == m) (station s n).ready = some (m, rest) →
    exec (.pushMessage n) s = .next (settled (bump (pushed (driven (onStation s n fun st => { st with
        ready := rest, pushCredit := laneUse st.pushCredit lane m.cost
        pushUsed := tput st.pushUsed m.agent (tgetD st.pushUsed m.agent 0 + m.cost)
        pushSeq := tput st.pushSeq m.agent ((tgetD st.pushSeq m.agent 0 + 1) % 65536)
        idleSince := s.clock.fc })
      (.push n lane m (tgetD (station s n).pushSeq m.agent 0))) n m) 0x230503))) ∧
  (∀ (s : State) (n : Nat) (agent : BitVec 14) (beats : BitVec 4), portHere s n = true → towpathActs s n = false →
    beats ≠ 0 → agentFieldOk agent.toNat = true →
    beats.toNat ≤ tgetD (station s n).pushUsed agent.toNat 0 →
    exec (.pushCreditReturn n agent beats 0 false) s = .next (settled
      (onStation (foreground s n) n fun st => { st with
        pushUsed := nput st.pushUsed agent.toNat (tgetD (station s n).pushUsed agent.toNat 0 - beats.toNat) }))) ∧
  (∀ (s : State) (n : Nat) (agent : BitVec 14) (beats : BitVec 4) (rsv : BitVec 6), portHere s n = true →
    exec (.pushCreditReturn n agent beats rsv true) s = .next (settled (portFails s 1 n 1)))

/-- BEACON_UPDATE, at a station that is awake or dozes (R571), and BEACON_UPDATE_ACK (R135, R136, R170): a slot's update writes
the word in the station's page; one that frees it zeroes the word and is acknowledged, and the last acknowledgement frees it.
The update of a publishing weir's word is written at a station without a node of the weir; a station with one, which writes the
word itself as it advances, ignores it. -/
def Obligations.BeaconMessages : Prop :=
  (∀ (s : State) (src dst word : Nat) (v h : Word) (weir : Bool) (rest : List Msg),
    ReachesMsg s src dst (.beaconUpdate word v true weir h) rest →
    exec (.beaconUpdate src dst) s = .next (settled
      (send (setBeacon { s with course := rest } dst word 0) dst src (.beaconAck word h)))) ∧
  (∀ (s : State) (src dst word : Nat) (v h : Word) (rest : List Msg),
    ReachesMsg s src dst (.beaconUpdate word v false false h) rest →
    exec (.beaconUpdate src dst) s = .next (settled (setBeacon { s with course := rest } dst word v))) ∧
  (∀ (s : State) (src dst word : Nat) (v h : Word) (rest : List Msg),
    ReachesMsg s src dst (.beaconUpdate word v false true h) rest →
    (nodeFor s dst h = none →
      exec (.beaconUpdate src dst) s = .next (settled (setBeacon { s with course := rest } dst word v))) ∧
    (∀ x, nodeFor s dst h = some x → exec (.beaconUpdate src dst) s = .next (settled { s with course := rest }))) ∧
  (∀ (s t : State) (src dst word w : Nat) (h : Word) (rest : List Msg) (j : Job) (left : List Nat),
    TakesMsg s src dst (.beaconAck word h) rest → HomeHere (taken s dst rest) dst h → t = atStep (taken s dst rest) →
    jobOf t dst (Handle.hi h) = some j → j.kind = .beaconDestroy w left →
    (left.filter (· != src) = [] →
      exec (.beaconUpdateAck src dst) s = .next (settled (stepOn (taken s dst rest) dst h
        (jobAnswer (retireHi (freeWord (dropJob t dst j.hi) w) dst j.hi j.agent) dst j ⟨.ok, 0, 0, none, none⟩)))) ∧
    (left.filter (· != src) ≠ [] →
      exec (.beaconUpdateAck src dst) s = .next (settled (stepOn (taken s dst rest) dst h
        (setJob t dst { j with kind := .beaconDestroy w (left.filter (· != src)) })))))

/-! ## Messages of weirs -/

/-- WEIR_SETUP and SETUP_ACKNOWLEDGEMENT (R163, R182): a member with room takes a node and acknowledges; the home waits for
every member, and the last acknowledgement forms the weir. A move's setup places the node again in the tree of the new home. -/
def Obligations.WeirSetups : Prop :=
  (∀ (s : State) (src dst home : Nat) (h : Word) (p : WeirParams) (rest : List Msg) (x : Node),
    TakesMsg s src dst (.setup h p home false) rest → (membersOf (taken s dst rest) p.parts home).contains dst = true →
    dst ≠ home → x = newNode (taken s dst rest) (Handle.hi h) p home dst 0 →
    (nodeQuota (taken s dst rest) (Handle.fn h) x dst 0 = true →
      exec (.weirSetup src dst) s = .next (settled
        (send (putNode (taken s dst rest) dst (Handle.index h) x) dst src (.setupAck h false)))) ∧
    (nodeQuota (taken s dst rest) (Handle.fn h) x dst 0 = false →
      exec (.weirSetup src dst) s = .next (settled
        (send (countSlotRefusal (taken s dst rest) dst (Handle.fn h) x 0) dst src (.setupAck h true))))) ∧
  (∀ (s t : State) (src dst home : Nat) (h : Word) (p : WeirParams) (rest : List Msg) (x : Node),
    TakesMsg s src dst (.setup h p home true) rest → t = taken s dst rest → nodeFor t dst h = some x → dst ≠ home →
    (x.role = 0 → exec (.weirSetup src dst) s = .next (settled (putNode t dst (Handle.index h) { x with home := home }))) ∧
    (x.role ≠ 0 → exec (.weirSetup src dst) s = .next (settled (putNode t dst (Handle.index h) { x with
      home := home, role := 1, parent := parentOf t p.parts home dst
      children := (childrenOf t p.parts home dst).length, local_ := localCount t p.parts dst })))) ∧
  (∀ (s t : State) (src dst : Nat) (h : Word) (refused r : Bool) (rest : List Msg) (j : Job) (members : List Nat),
    TakesMsg s src dst (.setupAck h refused) rest → t = atStep (taken s dst rest) →
    jobOf t dst (Handle.hi h) = some j → j.kind = .weirCreate members r →
    (members.filter (· != src) = [] →
      exec (.setupAcknowledgement src dst) s = .next (settled (stepOn (taken s dst rest) dst h
        (weirFormed t dst j (r || refused))))) ∧
    (members.filter (· != src) ≠ [] →
      exec (.setupAcknowledgement src dst) s = .next (settled (stepOn (taken s dst rest) dst h
        (setJob t dst { j with kind := .weirCreate (members.filter (· != src)) (r || refused) })))))

/-- COMBINED_ARRIVAL and EPOCH_COMPLETION (R168, R170, R177): a child's report counts in its bank, and the bank is evaluated;
a break breaks the node; a completion advances the node, or breaks it. HINT_OVERDUE and HINT_MAX (R187): the output rises once
a bank has been nearly full for its overdue time, and falls after hint_max_fc, staying low as long. -/
def Obligations.WeirTree : Prop :=
  (∀ (s : State) (src dst segment last : Nat) (h : Word) (odd break_ lost : Bool) (d : Option Payload) (rest : List Msg)
      (x : Node), TakesMsg s src dst (.combined h odd break_ lost segment last d) rest →
    nodeFor (atStep (taken s dst rest)) dst h = some x →
    (break_ = false → x.broken = false → x.role ≠ 0 →
      exec (.combinedArrival src dst) s = .next (settled (stepOn (taken s dst rest) dst h
        (checkNode (putNode (atStep (taken s dst rest)) dst (Handle.index h) (countReport x src odd segment last d false))
          dst (Handle.index h) odd)))) ∧
    (break_ = true → x.role ≠ 0 →
      exec (.combinedArrival src dst) s = .next (settled (stepOn (taken s dst rest) dst h
        (breakNode (atStep (taken s dst rest)) dst (Handle.index h) lost))))) ∧
  (∀ (s : State) (src dst : Nat) (h : Word) (st : Status) (odd : Bool) (result : Payload) (rest : List Msg) (x : Node),
    TakesMsg s src dst (.completion h st odd result) rest → nodeFor (taken s dst rest) dst h = some x →
    (st = .ok → exec (.epochCompletion src dst) s = .next (settled
      (nodeCompletes (taken s dst rest) dst (Handle.index h) x odd result false))) ∧
    (st ≠ .ok → exec (.epochCompletion src dst) s = .next (settled
      (nodeBreaks (taken s dst rest) dst (Handle.index h) x odd (st == .linklost) false)))) ∧
  (∀ (s : State) (n index since : Nat) (x : Node), takesNow s n true = true → nodeAt s n index = some x →
    x.hintSince = some since →
    x.late (passToFc s (since + x.overdue s)) = true →
    (station (passToFc s (since + x.overdue s)) n).hint.level = false →
    (station (passToFc s (since + x.overdue s)) n).hint.blockedTill ≤ (passToFc s (since + x.overdue s)).clock.fc →
    exec (.hintOverdue n index) s = .next (settled (bump (onStation (passToFc s (since + x.overdue s)) n fun st =>
      { st with hint := { st.hint with
        level := true, since := (passToFc s (since + x.overdue s)).clock.fc
        longest := x.longest (passToFc s (since + x.overdue s)) } }) 0x250303))) ∧
  (∀ (s t : State) (n : Nat), takesNow s n true = true → (station s n).hint.level = true →
    t = passToFc s ((station s n).hint.since + (station s n).hint.longest) →
    exec (.hintMax n) s = .next (settled (onStation t n fun x =>
      { x with hint := ⟨false, x.hint.since, t.clock.fc + (station s n).hint.longest, (station s n).hint.longest⟩ })))

/-- WEIR_SUBSCRIBE, SUBSCRIBE_REPLY, TEARDOWN and TEARDOWN_ACK (R173, R180): the home notes a listener and tells it where the
weir stands, or that it has failed (R588); a listener without waits takes the reply; a teardown ends a station's waits with
BADHANDLE, frees its node and is acknowledged, and the last acknowledgement returns the index. -/
def Obligations.WeirListeners : Prop :=
  (∀ (s : State) (src dst : Nat) (h : Word) (rest : List Msg) (o : Obj) (w : Weir),
    TakesMsg s src dst (.subscribe h) rest → liveObj (atStep (taken s dst rest)) dst h = some o → o.body = .weir w →
    w.listeners.contains src = false →
    exec (.weirSubscribe src dst) s = .next (settled (stepOn (taken s dst rest) dst h
      (send (setObj (atStep (taken s dst rest)) dst (Handle.index h)
          { o with body := .weir { w with listeners := w.listeners ++ [src] } }) dst src
        (.subscribeReply h w.params w.openEpoch (if o.failed then failedState else w.state) w.result))))) ∧
  (∀ (s : State) (src dst st : Nat) (h : Word) (p : WeirParams) (e : BitVec 32) (result : Payload) (rest : List Msg)
      (x : Node), TakesMsg s src dst (.subscribeReply h p e st result) rest → nodeFor (taken s dst rest) dst h = some x →
    p.publish = none → (weirWaits (taken s dst rest) dst (Handle.index h) x.hi).filter (fun w => w.phase == .pending) = [] →
    exec (.subscribeReply src dst) s = .next (settled (putNode (taken s dst rest) dst (Handle.index h)
      { x with params := p, open_ := e, broken := st == 2 || st == 3, lost := st == 3,
               lastResult := result, pendingReply := false, failed := x.failed || st == failedState }))) ∧
  (∀ (s : State) (src dst : Nat) (h : Word) (all : Bool) (rest : List Msg) (x : Node), TakesMsg s src dst (.teardown h all) rest →
    nodeFor (taken s dst rest) dst h = some x →
    exec (.teardown src dst) s = .next (settled
      (send (dropNodeOf (endWaits (taken s dst rest) dst (weirWaits (taken s dst rest) dst (Handle.index h) x.hi)
          fun _ => plain .badhandle) dst x) dst src (.teardownAck h)))) ∧
  (∀ (s t : State) (src dst : Nat) (h : Word) (rest : List Msg) (j : Job) (l : List Nat) (word : Option Nat)
      (keeper : Option (BitVec 40)), TakesMsg s src dst (.teardownAck h) rest → t = atStep (taken s dst rest) →
    jobOf t dst (Handle.hi h) = some j → j.kind = .weirDestroy l word keeper →
    (l.filter (· != src) = [] →
      exec (.teardownAck src dst) s = .next (settled (stepOn (taken s dst rest) dst h (weirGone t dst j word keeper)))) ∧
    (l.filter (· != src) ≠ [] →
      exec (.teardownAck src dst) s = .next (settled (stepOn (taken s dst rest) dst h
        (setJob t dst { j with kind := .weirDestroy (l.filter (· != src)) word keeper })))))

/-! ## Messages of landing counters, queues and the ferry -/

/-- LANDING_REPORT and REPORT_CREDIT (R220 to R225, R233, R538): a report in form whose counter is at home at its attach station,
or at the station that it was forwarded to, completes: its credit returns to its port, and it adds its bytes to the counter.
With no watch, wait or seal on the counter it counts an overrun where they pass what is expected (R223), no other object
changes and nothing is sent. A report that fails a check is discarded and counted; one for another home is forwarded, its
credit returned, and one that has been forwarded twice is kept until the chart names its home (R224), as one for an object on
the move is. -/
def Obligations.LandingReports : Prop :=
  (∀ (s t : State) (p : ReportIn) (n : Nat), ReportComes p s → n = reportStation s p.port → t = atStep (reportTaken p s) →
    (∀ o l, reportRefusal t p = none → LandsAt t n p.handle o l →
      exec (.landingReport p) s = .next (settled (stepOn (reportTaken p s) n p.handle
        (creditLanding (returnReportCredit t p.port) n o l p.bytes.toNat)))) ∧
    (∀ k, reportRefusal t p = some k →
      exec (.landingReport p) s = .next (settled (stepOn (reportTaken p s) n p.handle
        (returnReportCredit (discardReport t k p.fnStamp.toNat) p.port)))) ∧
    (∀ e, reportRefusal t p = none → chartAt t n (Handle.index p.handle) = some e → e.home ≠ n →
      exec (.landingReport p) s = .next (settled (stepOn (reportTaken p s) n p.handle
        (send (returnReportCredit t p.port) n e.home (.report ⟨p.handle, p.fnStamp.toNat, p.bytes.toNat, 0, none⟩))))) ∧
    (reportRefusal t p = none → chartAt t n (Handle.index p.handle) = some ⟨0, n⟩ →
      movingHere (station t n) (Handle.index p.handle) = true →
      exec (.landingReport p) s = .next (settled (stepOn (reportTaken p s) n p.handle
        (onStation t n fun st => { st with heldReports := st.heldReports ++
          [⟨p.handle, p.fnStamp.toNat, p.bytes.toNat, 0, some p.port⟩] }))))) ∧
  (∀ (s t : State) (src dst : Nat) (r : Report) (rest : List Msg),
    TakesMsg s src dst (.report r) rest → t = atStep (taken s dst rest) → r.port = none →
    (∀ o l, (fnOf t r.fnStamp).state = .enabled → LandsAt t dst r.handle o l →
      exec (.reportCredit src dst) s = .next (settled (stepOn (taken s dst rest) dst r.handle
        (creditLanding t dst o l r.bytes)))) ∧
    (∀ o l, (fnOf t r.fnStamp).state = .enabled → chartAt t dst (Handle.index r.handle) = some ⟨0, dst⟩ →
      movingHere (station t dst) (Handle.index r.handle) = false → liveObj t dst r.handle = some o → o.body = .landing l →
      o.failed = false → Handle.sel r.handle ≠ l.xgen.toNat →
      exec (.reportCredit src dst) s = .next (settled (stepOn (taken s dst rest) dst r.handle
        (discardReport t 0x270205 r.fnStamp)))) ∧
    (∀ e, chartAt t dst (Handle.index r.handle) = some e → e.home ≠ dst →
      (r.hops < 2 → exec (.reportCredit src dst) s = .next (settled (stepOn (taken s dst rest) dst r.handle
        (send t dst e.home (.report { r with hops := r.hops + 1 }))))) ∧
      (2 ≤ r.hops → exec (.reportCredit src dst) s = .next (settled (stepOn (taken s dst rest) dst r.handle
        (onStation t dst fun st => { st with heldReports := st.heldReports ++ [r] })))))) ∧
  (∀ (s : State) (home bytes : Nat) (o : Obj) (l : Landing), o.body = .landing l → l.eddies = [] → l.seals = [] →
    o.watches = [] → hostObserved s (hiFn o.hi) = false →
    let past := l.expect ≠ 0 ∧ l.expect.toNat < (l.landed + BitVec.ofNat 64 bytes).toNat
    ∃ t, creditLanding s home o l bytes = t ∧
      objAt t home (hiIndex o.hi) = some { o with body := .landing { l with
        landed := l.landed + BitVec.ofNat 64 bytes
        overruns := if past then min 0xFFFF (l.overruns + 1) else l.overruns } } ∧
      (∀ n i, (n, i) ≠ (home, hiIndex o.hi) → objAt t n i = objAt s n i) ∧ t.course = s.course)

/-- The seal messages (Table 7.9, R231, R236, R238): a deposit makes an entry HELD, a release makes it WRITING and issues its
write, a discard of a HELD entry frees and counts it, and a free notice returns it to its owner; SEAL_REGISTER registers a
seal held in a link port's buffer with its counter. -/
def Obligations.SealMessages : Prop :=
  (∀ (s : State) (src dst : Nat) (r : SealRef) (rest : List Msg),
    (∀ address mask data, TakesMsg s src dst (.sealDeposit r address mask data) rest →
      exec (.sealDeposit src dst) s = .next (settled { taken s dst rest with
        seals := tput (taken s dst rest).seals (sealKey r) ⟨data, mask, address, r.hi, r.xgen, 1, r.buffer⟩ })) ∧
    (∀ e t, TakesMsg s src dst (.sealRelease r) rest → tget (taken s dst rest).seals (sealKey r) = some e → e.state = 1 →
      t = { taken s dst rest with seals := tput (taken s dst rest).seals (sealKey r) { e with state := 2 } } →
      exec (.sealRelease src dst) s = .next (settled
        (driveSeals ((xiAt t (bufferInitiator t r.buffer)).sealsWait.length + 1)
          (setXi t (bufferInitiator t r.buffer) { xiAt t (bufferInitiator t r.buffer) with
            sealsWait := (xiAt t (bufferInitiator t r.buffer)).sealsWait ++ [sealKey r] }) (bufferInitiator t r.buffer)))) ∧
    (∀ e, TakesMsg s src dst (.sealDiscard r) rest → tget (taken s dst rest).seals (sealKey r) = some e →
      (e.state = 1 → exec (.sealDiscard src dst) s = .next (settled
        (countSealDiscard (freeSeal (taken s dst rest) (sealKey r) e) (hiFn e.hi)))) ∧
      (e.state ≠ 1 → exec (.sealDiscard src dst) s = .next (settled (taken s dst rest)))) ∧
    (∀ buffer entry, TakesMsg s src dst (.freeNotice buffer entry) rest →
      exec (.freeNotice src dst) s = .next (settled (onStation (taken s dst rest) dst fun st =>
        { st with sealsUsed := st.sealsUsed.filter (· != 256 * buffer + entry) })))) ∧
  (∀ (s t : State) (src dst : Nat) (r : SealRef) (f : FwdOp) (rest : List Msg) (o : Obj) (l : Landing),
    TakesMsg s src dst (.sealRegister r f) rest → HomeHere (taken s dst rest) dst f.handle →
    (fnOf (taken s dst rest) (Handle.fn f.handle)).state = .enabled → liveObj (taken s dst rest) dst f.handle = some o →
    o.body = .landing l → o.failed = false → Handle.sel f.handle = l.xgen.toNat → sealOk f = true →
    t = atStep (taken s dst rest) →
    exec (.sealRegister src dst) s = .next (settled (homeStep (taken s dst rest) dst o.hi fun _ =>
      registerLinkSeal (setObj t dst (hiIndex o.hi) (track t o f)) dst (track t o f) l r f)))

/-- IDLE_TIMEOUT (R263): a queue whose idle time has passed grants its idle pops. SPILL_SEGMENT, REFILL_REQUEST (R294, R296,
R297): the slice takes or refuses a spill as its first segment arrives, encrypts it once whole, and queues a read for a
refill. SPILL_ACCEPTED, SPILL_REFUSED, SPILL_RETRY, REFILL_SEGMENT (R294, R296 to R298): the home frees the block, sends it
again, or takes the tokens back; a refill that fails stops the queue. -/
def Obligations.QueueBlocks : Prop :=
  (∀ (s t : State) (n index d : Nat) (o : Obj) (q : Queue), takesNow s n true = true →
    dueAt s n index Body.idleArmed = true → t = atStep (foreground s n) → objAt t n index = some o → o.body = .queue q →
    q.idleDeadline = some d → movingHere (station t n) index = false →
    exec (.idleTimeout n index) s = .next (settled (homeStep (foreground s n) n o.hi fun _ =>
      passFc (settleQueue (passDeadline t d) n o { q with idleDeadline := none, idleDue := true } none).1 1))) ∧
  (∀ (s t : State) (src dst j b seg : Nat) (h : Word) (d : Payload) (rest : List Msg) (l : Slice),
    TakesMsg s src dst (.spillSegment h b seg d) rest → t = taken s dst rest → j = servingSlice t (Handle.index h) →
    l = sliceAt t j →
    ((fnOf t (Handle.fn h)).state ≠ .enabled → exec (.spillSegment src dst) s = .next (settled t)) ∧
    ((fnOf t (Handle.fn h)).state = .enabled → seg = 0 → exec (.spillSegment src dst) s = .next (settled (setSlice t j { l with
      spillIn := l.spillIn ++ [⟨h, b, src, acceptsSpill t j h b, [d]⟩]
      spillBufs := if acceptsSpill t j h b then l.spillBufs ++ [(h, b)] else l.spillBufs }))) ∧
    (∀ x left, (fnOf t (Handle.fn h)).state = .enabled →
      takeFirst (fun y : SpillIn => y.handle == h && y.block == b) l.spillIn = some (x, left) →
      (seg = 1 ∨ seg = 2 → exec (.spillSegment src dst) s = .next (settled (setSlice t j { l with
        spillIn := l.spillIn.map fun y => if y.handle == h && y.block == b then { y with segs := y.segs ++ [d] } else y }))) ∧
      (seg = 3 → x.accepted = true → exec (.spillSegment src dst) s = .next (settled
        (send (spillWhole (setSlice t j { l with spillIn := left }) j h b (x.segs ++ [d])) dst src (.spillAccepted h b)))) ∧
      (seg = 3 → x.accepted = false → exec (.spillSegment src dst) s = .next (settled
        (send (bump (setSlice t j { l with spillIn := left }) 0x290505) dst src (.spillRefused h b)))))) ∧
  (∀ (s t : State) (src dst j b : Nat) (h : Word) (rest : List Msg),
    TakesMsg s src dst (.refillRequest h b) rest → t = taken s dst rest → j = servingSlice t (Handle.index h) →
    ((fnOf t (Handle.fn h)).state ≠ .enabled → exec (.refillRequest src dst) s = .next (settled t)) ∧
    (∀ e, (fnOf t (Handle.fn h)).state = .enabled → extentAt t j (Handle.index h) = some e → e.releasing = none →
      exec (.refillRequest src dst) s = .next (settled (onSlice t j fun l => { l with
        waiting := l.waiting ++ [⟨.refill, Handle.fn h, 0, 8, [], 0, .refill h b src false⟩] })))) ∧
  (∀ (s t : State) (src dst b : Nat) (h : Word) (rest : List Msg) (o : Obj) (q : Queue), t = atStep (taken s dst rest) →
    HomeHere (taken s dst rest) dst h → liveObj t dst h = some o → o.body = .queue q →
    (TakesMsg s src dst (.spillAccepted h b) rest → q.spillTail ≠ 0 → b = q.tailBlock →
      exec (.spillAccepted src dst) s = .next (settled (stepOn (taken s dst rest) dst h
        (tailFree t dst o (keepsCopy { q with spillTail := 0, tail := [], tailBlock := b + 1 } b))))) ∧
    (∀ toks, TakesMsg s src dst (.spillAccepted h b) rest → q.spillTail = 0 → q.spillHead ≠ 0 → q.head = some (b, toks) →
      exec (.spillAccepted src dst) s = .next (settled (stepOn (taken s dst rest) dst h
        (settleQueue t dst o (keepsCopy { q with spillHead := 0, head := none } b) none).1))) ∧
    (TakesMsg s src dst (.spillRefused h b) rest → q.spillTail = 1 → b = q.tailBlock →
      exec (.spillRefused src dst) s = .next (settled (stepOn (taken s dst rest) dst h
        (setObj t dst (hiIndex o.hi) { o with body := .queue { q with spillTail := 2 } })))) ∧
    (TakesMsg s src dst (.spillRefused h b) rest → q.spillTail ≠ 1 ∨ b ≠ q.tailBlock → q.spillHead = 1 →
      exec (.spillRefused src dst) s = .next (settled (stepOn (taken s dst rest) dst h
        (setObj t dst (hiIndex o.hi) { o with body := .queue { q with spillHead := 2 } })))) ∧
    (∀ seg d segs, TakesMsg s src dst (.refillSegment h b seg false d) rest →
      q.refills.find? (fun r => r.1 == b) = some (b, segs) → segs.length < 3 →
      exec (.refillSegment src dst) s = .next (settled (stepOn (taken s dst rest) dst h
        (setObj t dst (hiIndex o.hi) { o with body := .queue { q with
          refills := q.refills.map fun r => if r.1 = b then (b, segs ++ [d]) else r } })))) ∧
    (∀ seg d segs q1, TakesMsg s src dst (.refillSegment h b seg false d) rest →
      q.refills.find? (fun r => r.1 == b) = some (b, segs) → segs.length = 3 →
      q1 = { q with refills := q.refills.filter fun r => r.1 != b } →
      (q.bwBlocks.contains b = true → q.refilled = none → q1.hasBlock b = false →
        exec (.refillSegment src dst) s = .next (settled (stepOn (taken s dst rest) dst h (settleQueue (bump t 0x280403) dst o
          { q1 with refilled := some (b, frameTokens ((segs ++ [d]).flatMap payloadBytes)) } none).1))) ∧
      (q.bwBlocks.contains b = false →
        exec (.refillSegment src dst) s = .next (settled (stepOn (taken s dst rest) dst h
          (settleQueue (bump t 0x280403) dst o q1 none).1)))) ∧
    (∀ seg d segs, TakesMsg s src dst (.refillSegment h b seg true d) rest →
      q.refills.find? (fun r => r.1 == b) = some (b, segs) → q.faultAt = none →
      exec (.refillSegment src dst) s = .next (settled (stepOn (taken s dst rest) dst h (queueFault t dst o q b))))) ∧
  (∀ (s t : State) (n index : Nat) (o : Obj) (q : Queue), takesNow s n true = true →
    dueAt s n index Body.spillRefused = true → t = passFc (foreground s n) (setting (foreground s n) 0x290301) →
    objAt (foreground s n) n index = some o → o.body = .queue q → movingHere (station (foreground s n) n) index = false →
    (q.spillTail = 2 → q.spillHead ≠ 2 →
      exec (.spillRetry n index) s = .next (settled (setObj (sendSpill t n o.hi q.tailBlock q.tail) n index
        { o with body := .queue (spillsAgain q) }))) ∧
    (∀ k toks, q.spillTail ≠ 2 → q.spillHead = 2 → q.head = some (k, toks) →
      exec (.spillRetry n index) s = .next (settled (setObj (sendSpill t n o.hi k toks) n index
        { o with body := .queue (spillsAgain q) }))))

/-- FERRY_ISSUE, XI_RESPONSE, FERRY_SLOW, COMPACTION_MOVE (R299 to R309, R536), the shadow record's messages (R405 to R409)
and extents (R286, R287, R311): a slice issues the oldest ready transaction of a class that the rotation lets issue, takes a
response for its tag, reports a tag that is slow, and starts to move the lowest extent with a free block below it (the lowest
base offset of all functions' sub-regions, the model's choice, log entry 72); a shadow record takes its function's next seq
and waits to be written, and its answer lets what waits for it go; a part of a keeper's image is written or read like a
record, and the answer of an export's last part ends it (R372, log entry 36); RESERVE_EXTENT takes the first run of blocks
that fits or refuses, EXTENT_RESERVED ends the queue's creation, RELEASE_EXTENT answers for an extent that is gone,
EXTENT_RELEASED ends the destruction. -/
def Obligations.FerryWork : Prop :=
  (∀ (s : State) (j : Nat) (c : FerryClass) (x : Xact), sliceWorks s j = true → readyOf s j c = some x →
    classOpen s j c = true → exec (.ferryIssue j c) s = .next (settled (issueXact s j x))) ∧
  (∀ (s t v : State) (x : XiRsp) (j : Nat), portsLive s = true → j = x.initiator → j < s.gelari.initiators →
    t = foreground s (sliceStation s j) →
    v = (if x.headerBad then portFails t 2 j 1 else if x.bad then portFails t 2 j 2
      else if x.corrected then countCorrected t 3 else t) →
    (∀ u w, (sliceAt v j).tags.find? (fun g => g.tag == x.tag) = some u → x.read = (!u.xact.purpose.writes) →
      w = { u with
        beats := if x.read then u.beats ++ [x.data] else u.beats, bad := u.bad || x.err || (x.bad || x.headerBad) } →
      (x.last = false → exec (.xiResponse x) s = .next (settled (onSlice v j fun l => { l with
        tags := l.tags.map fun g => if g.tag = x.tag then w else g }))) ∧
      (x.last = true → exec (.xiResponse x) s = .next (settled (xactDone
        (onSlice v j fun l => { l with tags := l.tags.filter fun g => g.tag != x.tag }) j w))) ∧
      (∀ h home n out, x.last = true → u.discard = false → u.xact.purpose = .keeper h home n out →
        exec (.xiResponse x) s = .next (settled (send
          (onSlice v j fun l => { l with tags := l.tags.filter fun g => g.tag != x.tag })
          (sliceStation (onSlice v j fun l => { l with tags := l.tags.filter fun g => g.tag != x.tag }) j) home
          (.imagePart h n w.bad (w.beats.flatMap fun d => bytesBE 32 d.toNat)))))) ∧
    (∀ k, (sliceAt v j).tags.find? (fun g => g.tag == x.tag) = none →
      tget (xiAt v j).sealsOut x.tag = some k → x.read = false →
      exec (.xiResponse x) s = .next (settled (sealWritten (setXi v j { xiAt v j with
        sealsOut := tdel (xiAt v j).sealsOut x.tag }) k)))) ∧
  (∀ (s t : State) (j tag : Nat) (u : TagUse), (sliceAt s j).tags.find? (fun g => g.tag == tag && !g.slow) = some u →
    t = passAc s (u.due - s.now) →
    exec (.ferrySlow j tag) s = .next (settled (raise (onSlice t j fun l => { l with
        tags := l.tags.map fun x => if x.tag = tag then { x with slow := true } else x }) 0x30
      (generic (bankOf t u.xact.address).1 (bankOf t u.xact.address).2 0 0 j)))) ∧
  (∀ (s : State) (j i hole : Nat) (e : Extent), sliceWorks s j = true → setting s 0x290400 ≠ 0 →
    leastBy (fun p : Nat × Extent × Nat => p.2.1.base) (movable s (sliceAt s j)) = some (i, e, hole) →
    exec (.compactionMove j) s = .next (settled (queueXact (setSlice s j { sliceAt s j with
      extents := tput (sliceAt s j).extents i { e with moving := true, newBase := hole, cursor := 0 } }) j
      ⟨.compaction, e.fn, 0, 8, [], 0, .moveRead i 0⟩))) ∧
  (∀ (s t : State) (src dst fn : Nat) (r : Shadow) (rest : List Msg), TakesMsg s src dst (.shadowRecord r) rest →
    t = taken s dst rest → fn = Handle.fn r.handle →
    ((fnOf t fn).state ≠ .enabled → exec (.shadowRecord src dst) s = .next (settled t)) ∧
    ((fnOf t fn).state = .enabled → exec (.shadowRecord src dst) s = .next (settled
      (queueXact (setFn t fn { fnOf t fn with shadowNext := (fnOf t fn).shadowNext + 1 }) (servingSlice t fn)
        ⟨.shadow, fn, fnSetting t fn 0x2F + 64 * Handle.index r.handle, 2, shadowBytes t r (fnOf t fn).shadowNext, fn,
          .shadow src r.handle fn (fnOf t fn).shadowNext⟩)))) ∧
  (∀ (s t : State) (src dst seq : Nat) (h : Word) (rest : List Msg), TakesMsg s src dst (.shadowWritten h seq) rest →
    t = taken s dst rest →
    exec (.shadowRecordWritten src dst) s = .next (settled
      (releaseHolds (onStation t dst fun st => { st with shadowHolds := markWritten (Handle.hi h) st.shadowHolds }) dst))) ∧
  (∀ (s t : State) (src dst address length part : Nat) (h : Word) (data : Option (List Byte)) (rest : List Msg),
    TakesMsg s src dst (.imageRequest h address length part data) rest → t = taken s dst rest →
    ((fnOf t (Handle.fn h)).state ≠ .enabled → exec (.shadowRecord src dst) s = .next (settled t)) ∧
    ((fnOf t (Handle.fn h)).state = .enabled → exec (.shadowRecord src dst) s = .next (settled
      (queueXact t (servingSlice t (Handle.index h)) ⟨.shadow, Handle.fn h, address, length / 32, data.getD [], Handle.fn h,
        .keeper h src part data.isSome⟩)))) ∧
  (∀ (s t : State) (src dst part left : Nat) (h : Word) (bad : Bool) (data image : List Byte) (rest : List Msg) (j : Job)
      (o : Obj) (k : Keeper), TakesMsg s src dst (.imagePart h part bad data) rest → HomeHere (taken s dst rest) dst h →
    t = atStep (taken s dst rest) → jobOf t dst (Handle.hi h) = some j → objAt t dst (Handle.index h) = some o →
    o.body = .keeper k → j.kind = .keeperExport left image →
    (left ≠ 1 → exec (.shadowRecordWritten src dst) s = .next (settled (stepOn (taken s dst rest) dst h
      (setJob t dst { j with kind := .keeperExport (left - 1) image })))) ∧
    (left = 1 → exec (.shadowRecordWritten src dst) s = .next (settled (stepOn (taken s dst rest) dst h
      (jobAnswer (transferEnds (dropJob t dst j.hi) dst o k) dst j
        ⟨.ok, BitVec.ofNat 64 k.length, BitVec.ofNat 64 (ofBytesLE (image.take 4)), none, none⟩))))) ∧
  (∀ (s t : State) (src dst j length : Nat) (h : Word) (rest : List Msg), TakesMsg s src dst (.reserveExtent h length) rest →
    t = taken s dst rest → j = servingSlice t (Handle.index h) →
    (∀ b, firstFit (occupied (sliceAt t j) (Handle.fn h) (Handle.index h % max 1 t.gelari.initiators)
          (max 1 t.gelari.initiators)) (subBlocks t (Handle.fn h)) length = some b →
      exec (.reserveExtent src dst) s = .next (settled (send (onSlice t j fun l => { l with
        extents := tput l.extents (Handle.index h) ⟨Handle.fn h, Handle.gen h, length, b, false, 0, 0, none⟩ })
        dst src (.extentReserved h)))) ∧
    (firstFit (occupied (sliceAt t j) (Handle.fn h) (Handle.index h % max 1 t.gelari.initiators)
          (max 1 t.gelari.initiators)) (subBlocks t (Handle.fn h)) length = none →
      exec (.reserveExtent src dst) s = .next (settled (send t dst src (.extentRefused h))))) ∧
  (∀ (s t : State) (src dst : Nat) (h : Word) (rest : List Msg), TakesMsg s src dst (.releaseExtent h) rest →
    t = taken s dst rest → extentAt t (servingSlice t (Handle.index h)) (Handle.index h) = none →
    exec (.releaseExtent src dst) s = .next (settled (send t dst src (.extentReleased h)))) ∧
  (∀ (s t u : State) (src dst i j : Nat) (h : Word) (rest : List Msg) (e : Extent), TakesMsg s src dst (.releaseExtent h) rest →
    t = taken s dst rest → i = Handle.index h → j = servingSlice t i → extentAt t j i = some e →
    u = onSlice (indexLeaves t i) j (fun l => { l with extents := tput l.extents i { e with releasing := some src } }) →
    servingSlice u i = j → extentAt u j i = some { e with releasing := some src } →
    (u.slices.any (fun p => outstanding p.2 i) = true → exec (.releaseExtent src dst) s = .next (settled u)) ∧
    (u.slices.any (fun p => outstanding p.2 i) = false → exec (.releaseExtent src dst) s = .next (settled (send
      (onSlice u j fun l => { l with
        extents := tdel l.extents i, spillBufs := l.spillBufs.filter fun b => Handle.index b.1 != i })
      (sliceStation (onSlice u j fun l => { l with
        extents := tdel l.extents i, spillBufs := l.spillBufs.filter fun b => Handle.index b.1 != i }) j) src
      (.extentReleased (nameOf (handleHi e.fn e.gen 4 i))))))) ∧
  (∀ (s t : State) (src dst : Nat) (h : Word) (rest : List Msg) (j : Job), t = atStep (taken s dst rest) →
    HomeHere (taken s dst rest) dst h → jobOf t dst (Handle.hi h) = some j →
    (∀ o, TakesMsg s src dst (.extentReserved h) rest → liveObj t dst h = some o → j.kind = .queueCreate →
      exec (.extentReserved src dst) s = .next (settled (stepOn (taken s dst rest) dst h
        (announce (publish (dropJob t dst j.hi) dst o j.agent) dst o.hi j.entry j.tag j.agent (issue t o.hi 0) 0)))) ∧
    (∀ o, TakesMsg s src dst (.extentRefused h) rest → liveObj t dst h = some o → j.kind = .queueCreate →
      exec (.extentReserved src dst) s = .next (settled (stepOn (taken s dst rest) dst h
        (jobAnswer (abandon (dropJob t dst j.hi) dst o) dst j (plain .quota))))) ∧
    (TakesMsg s src dst (.extentReleased h) rest → j.kind = .queueDestroy →
      exec (.extentReleased src dst) s = .next (settled (stepOn (taken s dst rest) dst h
        (jobAnswer (retireHi (dropJob t dst j.hi) dst j.hi j.agent) dst j ⟨.ok, 0, 0, none, none⟩)))))

/-! ## Messages of fire rules -/

/-- The messages that a rule's home sends to its inputs and its target (R315, R317, R321, R324, R326, R330): REGISTER and
FEED_REGISTER take a record on an object that has room and answer, ACTIVATE, DEACTIVATE, CONSUME and CONSUME_DORMANT change the
rule's watch and evaluate the object's watches again, RELEASE frees the record, FEED_PUSH holds the token in the feed record,
or in one of its own where a bridge's reply comes (R443), and writes what fits. -/
def Obligations.WatchMessages : Prop :=
  ∀ (s t : State) (src dst : Nat) (h rule : Word) (rest : List Msg) (o : Obj), t = atStep (taken s dst rest) →
    HomeHere (taken s dst rest) dst h → liveObj t dst h = some o →
    (∀ slot threshold step (q : Queue), TakesMsg s src dst (.register h slot threshold step rule) rest → o.body = .queue q →
      threshold ≤ q.capacity → RecordRoom t dst o → lapseStatus o = none →
      exec (.register src dst) s = .next (settled (stepOn (taken s dst rest) dst h
        (setObj (send t dst (ruleHome t dst (Handle.hi rule)) (.registered rule none slot dst false)) dst (hiIndex o.hi)
          { o with watches := o.watches ++
            [⟨false, Handle.hi rule, slot, 0, BitVec.ofNat 64 threshold, step, q.packets, 0, false⟩] })))) ∧
    (∀ slot threshold step, TakesMsg s src dst (.register h slot threshold step rule) rest →
      o.body.isQueue = false → RecordRoom t dst o → lapseStatus o = none →
      exec (.register src dst) s = .next (settled (stepOn (taken s dst rest) dst h
        (setObj (send t dst (ruleHome t dst (Handle.hi rule)) (.registered rule none slot dst false)) dst (hiIndex o.hi)
          { o with watches := o.watches ++
            [⟨false, Handle.hi rule, slot, 0, BitVec.ofNat 64 threshold, step, 0, 0, false⟩] })))) ∧
    (∀ q : Queue, TakesMsg s src dst (.feedRegister h rule) rest → o.body = .queue q → RecordRoom t dst o →
      lapseStatus o = none →
      exec (.feedRegister src dst) s = .next (settled (stepOn (taken s dst rest) dst h
        (setObj (send t dst (ruleHome t dst (Handle.hi rule)) (.registered rule none 0 dst true)) dst (hiIndex o.hi)
          { o with watches := o.watches ++ [⟨true, Handle.hi rule, 0, 0, 0, 0, 0, 0, false⟩] })))) ∧
    (∀ slot seq, TakesMsg s src dst (.activate h rule slot seq) rest →
      exec (.activate src dst) s = .next (settled (stepOn (taken s dst rest) dst h
        (putObserved t dst { o with watches := watchesWith o rule slot fun w => { w with phase := 1, armSeq := seq } })))) ∧
    (∀ slot, TakesMsg s src dst (.deactivate h rule slot) rest →
      exec (.deactivate src dst) s = .next (settled (stepOn (taken s dst rest) dst h
        (putObserved t dst { o with watches := watchesWith o rule slot fun w => { w with
          phase := 0, credit := if o.body.isQueue && w.phase == 2 then w.credit + w.threshold.toNat else w.credit } })))) ∧
    (∀ slot seq,
      (TakesMsg s src dst (.consume h rule slot seq) rest →
        exec (.consume src dst) s = .next (settled (stepOn (taken s dst rest) dst h
          (putObserved t dst { o with watches := watchesWith o rule slot fun w => { w with
            threshold := advanced o.body w, phase := 1, armSeq := seq } })))) ∧
      (TakesMsg s src dst (.consumeDormant h rule slot seq) rest →
        exec (.consumeDormant src dst) s = .next (settled (stepOn (taken s dst rest) dst h
          (putObserved t dst { o with watches := watchesWith o rule slot fun w => { w with
            threshold := advanced o.body w, phase := 0, armSeq := seq } }))))) ∧
    (∀ slot feed, TakesMsg s src dst (.releaseWatch h rule slot feed) rest →
      exec (.releaseWatch src dst) s = .next (settled (stepOn (taken s dst rest) dst h
        (send (setObj t dst (hiIndex o.hi) { o with watches := o.watches.filter fun w =>
            !(w.feed == feed && w.ruleHi == Handle.hi rule && (feed || w.slot == slot)) }) dst
          (ruleHome (setObj t dst (hiIndex o.hi) { o with watches := o.watches.filter fun w =>
            !(w.feed == feed && w.ruleHi == Handle.hi rule && (feed || w.slot == slot)) }) dst (Handle.hi rule)) (.released rule))))) ∧
    (∀ (tok : Token) (q : Queue), TakesMsg s src dst (.feedPush h 0 tok) rest → o.body = .queue q → lapseStatus o = none →
      exec (.feedPush src dst) s = .next (settled (stepOn (taken s dst rest) dst h
        (feedAndSettle t dst { o with watches := o.watches ++ [⟨true, 0, 0, 1, tok.word, 0, 0, 0, tok.endMark⟩] } q).1))) ∧
    (∀ (tok : Token) (q : Queue), TakesMsg s src dst (.feedPush h rule tok) rest → o.body = .queue q → rule ≠ 0 →
      lapseStatus o = none →
      exec (.feedPush src dst) s = .next (settled (stepOn (taken s dst rest) dst h
        (feedAndSettle t dst { o with watches := o.watches.map fun w => if w.feed && w.ruleHi == Handle.hi rule
          then { w with phase := 1, threshold := tok.word, endMark := tok.endMark } else w } q).1)))

/-- What comes back to a rule's home (R321, R324 to R330): registrations and releases are counted, and the last ends the
creation or the destruction; a MET notice for the rule's arm sequence is noted, and the last fires the rule; a LAPSED notice
lapses an armed rule; a written token, an accepted launch and an arrival end the firing, a fenced engine is passed over, and
an arrival ahead is sent again after its time. -/
def Obligations.RuleMessages : Prop :=
  (∀ (s t : State) (src dst : Nat) (h : Word) (rest : List Msg) (o : Obj) (r : Rule), t = atStep (taken s dst rest) →
    HomeHere (taken s dst rest) dst h → liveObj t dst h = some o → o.body = .rule r →
    (∀ slot seq, TakesMsg s src dst (.met h slot seq) rest →
      (r.state ≠ 1 ∨ seq ≠ r.armSeq → exec (.met src dst) s = .next (settled (stepOn (taken s dst rest) dst h t))) ∧
      (∀ m, r.state = 1 → seq = r.armSeq → m = (if r.met.contains slot then r.met else r.met ++ [slot]) →
        (m.length ≠ r.inputs.length → exec (.met src dst) s = .next (settled (stepOn (taken s dst rest) dst h
          (setObj t dst (hiIndex o.hi) { o with body := .rule { r with met := m } })))) ∧
        (m.length = r.inputs.length → exec (.met src dst) s = .next (settled (stepOn (taken s dst rest) dst h
          (fireRule t dst o { r with met := m })))))) ∧
    (∀ slot feed st, TakesMsg s src dst (.lapsed h slot feed st) rest → r.state ≠ 2 → r.state ≠ 4 →
      exec (.lapsed src dst) s = .next (settled (stepOn (taken s dst rest) dst h (lapseRule t dst o
        (if feed then r else { r with lapsedInputs := r.lapsedInputs ++ [slot] }) st)))) ∧
    (∀ slot st, TakesMsg s src dst (.lapsed h slot false st) rest → r.state = 2 →
      exec (.lapsed src dst) s = .next (settled (stepOn (taken s dst rest) dst h (setObj t dst (hiIndex o.hi)
        { o with body := .rule { r with
          lapsedInputs := r.lapsedInputs ++ [slot], lapse := some (r.lapse.getD st) } })))) ∧
    (TakesMsg s src dst (.pushed h none) rest → r.state = 2 → r.action = 1 →
      exec (.pushed src dst) s = .next (settled (stepOn (taken s dst rest) dst h (ruleComplete t dst o r)))) ∧
    (∀ st, TakesMsg s src dst (.pushed h (some st)) rest → r.state = 2 → r.action = 1 →
      exec (.pushed src dst) s = .next (settled (stepOn (taken s dst rest) dst h
        (ruleComplete t dst o { r with lapse := some (r.lapse.getD st) })))) ∧
    (∀ st engine, TakesMsg s src dst (.launchAnswer h st engine) rest → r.state = 2 →
      (r.action = 0 → st = .ok → engine = r.lastTarget →
        exec (.launchAnswer src dst) s = .next (settled (stepOn (taken s dst rest) dst h (ruleComplete t dst o r)))) ∧
      (r.action = 0 → st = .fenced →
        exec (.launchAnswer src dst) s = .next (settled (stepOn (taken s dst rest) dst h
          (sendLaunch t dst o { r with refused := r.refused ++ [engine] })))) ∧
      (r.action = 2 → st = .ok →
        exec (.launchAnswer src dst) s = .next (settled (stepOn (taken s dst rest) dst h (ruleComplete t dst o r)))) ∧
      (st ≠ .ok → st ≠ .fenced → st ≠ .ahead →
        exec (.launchAnswer src dst) s = .next (settled (stepOn (taken s dst rest) dst h
          (ruleComplete t dst o { r with lapse := some (r.lapse.getD st) })))) ∧
      (r.action = 2 → st = .ahead →
        exec (.launchAnswer src dst) s = .next (settled (stepOn (taken s dst rest) dst h
          (setObj t dst (hiIndex o.hi) { o with body := .rule { r with retry := true } })))))) ∧
  (∀ (s t : State) (src dst : Nat) (h : Word) (rest : List Msg) (j : Job), t = atStep (taken s dst rest) →
    HomeHere (taken s dst rest) dst h → jobOf t dst (Handle.hi h) = some j →
    (∀ (o : Obj) (r : Rule) slot sender feed waiting (old : Option Status) granted,
      TakesMsg s src dst (.registered h none slot sender feed) rest → slot < 8 →
      liveObj t dst h = some o → o.body = .rule r → j.kind = .ruleCreate waiting old granted →
      (1 < waiting → exec (.registered src dst) s = .next (settled (stepOn (taken s dst rest) dst h
        (setJob t dst { j with kind := .ruleCreate (waiting - 1) old (granted ++ [(sender, slot, feed)]) })))) ∧
      (waiting ≤ 1 → old = none → exec (.registered src dst) s = .next (settled (stepOn (taken s dst rest) dst h
        (announce (publish (dropJob t dst j.hi) dst o j.agent) dst o.hi j.entry j.tag j.agent
          (issue (publish (dropJob t dst j.hi) dst o j.agent) o.hi 0) 0))))) ∧
    (∀ (o : Obj) (r : Rule) slot sender feed waiting st granted,
      TakesMsg s src dst (.registered h (some st) slot sender feed) rest → liveObj t dst h = some o → o.body = .rule r →
      j.kind = .ruleCreate waiting none granted → waiting ≤ 1 →
      exec (.registered src dst) s = .next (settled (stepOn (taken s dst rest) dst h
        (jobAnswer (undoRule (dropJob t dst j.hi) dst o r granted) dst j (plain st))))) ∧
    (∀ waiting, TakesMsg s src dst (.released h) rest → j.kind = .ruleDestroy waiting →
      (waiting ≤ 1 → exec (.released src dst) s = .next (settled (stepOn (taken s dst rest) dst h
        (jobAnswer (retireHi (dropJob t dst j.hi) dst j.hi j.agent) dst j ⟨.ok, 0, 0, none, none⟩)))) ∧
      (1 < waiting → exec (.released src dst) s = .next (settled (stepOn (taken s dst rest) dst h
        (setJob t dst { j with kind := .ruleDestroy (waiting - 1) })))))) ∧
  (∀ (s t : State) (n index : Nat) (o : Obj) (r : Rule), takesNow s n true = true →
    dueAt s n index Body.arriveWaits = true → t = passFc (foreground s n) (setting (foreground s n) 0x2A0301) →
    objAt (foreground s n) n index = some o → o.body = .rule r → r.state = 2 → r.retry = true →
    exec (.arriveRetry n index) s = .next (settled
      (sendArrive (setObj t n index { o with body := .rule { r with retry := false } }) n o r)))

/-- LAUNCH and ARRIVE_ACTION (R318, R329) at the entry station, and the loads of engines (R331): a launch becomes a push to its
engine, an arrival counts as the agent's own; a subscriber is told every load that is not 0, and each block that changes once
a digest period. -/
def Obligations.LaunchesAndLoads : Prop :=
  (∀ (s t : State) (src dst engine scope seq : Nat) (rule : Word) (d : Payload) (rest : List Msg),
    TakesMsg s src dst (.launch rule engine scope seq d) rest → t = taken s dst rest →
    (agentFenced t engine = true → exec (.launch src dst) s = .next (settled
      (send t dst (ruleHome t dst (Handle.hi rule)) (.launchAnswer rule .fenced engine)))) ∧
    (agentFenced t engine = false → exec (.launch src dst) s = .next (settled
      (onStation t dst fun st => { st with ready := st.ready ++ [
        { agent := engine, wait := none, cookie := 0, handle := issue t (Handle.hi rule) 0
          value := BitVec.ofNat 64 seq, status := .ok, opcode := .frArm, invalidate := true, scope := scope
          launch := some (dst, Handle.hi rule, d) }] })))) ∧
  (∀ (s t : State) (src dst agent a b : Nat) (rule weir : Word) (e : BitVec 32) (rest : List Msg) (x : Node),
    TakesMsg s src dst (.arrive rule weir agent e a b) rest →
    t = weirTest (atStep (taken s dst rest)) (Handle.fn weir) x.params (a != 0) b →
    (fnOf (taken s dst rest) (Handle.fn weir)).state = .enabled → nodeFor (atStep (taken s dst rest)) dst weir = some x →
    x.params.keeper = none → arrivalRefusal (atStep (taken s dst rest)) dst x agent e none = none →
    exec (.arriveAction src dst) s = .next (settled (stepOn (taken s dst rest) dst weir
      (checkNode (send (putNode t dst (Handle.index weir)
          (arrivedAt x t.clock.fc (odd32 e) agent (x.bank (odd32 e)).acc)) dst
        (ruleHome (putNode t dst (Handle.index weir)
          (arrivedAt x t.clock.fc (odd32 e) agent (x.bank (odd32 e)).acc)) dst (Handle.hi rule))
        (.launchAnswer rule .ok agent)) dst (Handle.index weir) (odd32 e))))) ∧
  (∀ (s : State) (src dst : Nat) (rest : List Msg),
    (TakesMsg s src dst (.loadSubscribe true) rest → (station (taken s dst rest) dst).subscribers.contains src = false →
      exec (.loadSubscribe src dst) s = .next (settled (onStation (taken s dst rest) dst fun st => { st with
        subscribers := st.subscribers ++ [src]
        digestDue := (st.loads.map fun p => p.1 / 128).foldl (fun t b => dueBlock t src b) st.digestDue }))) ∧
    (TakesMsg s src dst (.loadSubscribe false) rest →
      ((station (taken s dst rest) dst).subscribers.erase src).contains src = false →
      exec (.loadSubscribe src dst) s = .next (settled (onStation (taken s dst rest) dst fun st => { st with
        subscribers := st.subscribers.erase src, digestDue := tdel st.digestDue src })))) ∧
  (∀ (s : State) (n : Nat), takesNow s n true = true → (station s n).digestDue.isEmpty = false →
    exec (.digestPeriod n) s = .next (settled (sendDigests (foreground s n) n))) ∧
  (∀ (s : State) (src dst first : Nat) (loads : Table Nat) (rest : List Msg), TakesMsg s src dst (.digest first loads) rest →
    exec (.digest src dst) s = .next (settled (onStation (taken s dst rest) dst fun st => { st with
      mirror := (List.range 128).foldl (fun t k => if entryOf (taken s dst rest) (first + k) = src
        then nput t (first + k) (tgetD loads (first + k) 0) else t) st.mirror })))

/-! ## Migration -/

/-- Migrations (R342 to R346): at a window's end a station tries its objects by their votes and restarts their trackers; a
copy is refused by a station that takes one already, and otherwise takes the object with eddy references of its own; an
accepted copy rebinds every member's station; the last rebind journals the commit; the last flush forwards what was held; the
new home then commits and runs it. When a weir's commit may be taken, and that its tree changes then, is the model's choice
(log entry 12). -/
def Obligations.Migrations : Prop :=
  (∀ (s t u : State) (n : Nat) (objs : List Obj), takesNow s n true = true → setting s 0x2A0400 ≠ 0 →
    (station s n).objects.isEmpty = false → t = foreground s n → setting t 0x2A0400 ≠ 0 →
    objs = ((station t n).objects.map (·.2)).filter (movesFor t n) →
    u = (if (station t n).outgoing.isSome then t else tryMoves t n (byVotes objs.length objs)) →
    exec (.migrateWindowEnd n) s = .next (settled (newWindow (onStation u n fun st => { st with
      objects := st.objects.map fun p => (p.1, { p.2 with tracker := ⟨0, 0, 0, p.2.tracker.cooldown - 1⟩ }) }) n))) ∧
  (∀ (s t : State) (src dst seg last : Nat) (c : CopyState) (h : Word) (rest : List Msg),
    TakesMsg s src dst (.copy c h seg last) rest → t = taken s dst rest → seg ≠ last ∨ moveGoes t c.obj.hi = false →
    exec (.migrationCopy src dst) s = .next (settled t)) ∧
  (∀ (s t : State) (src dst seg : Nat) (c : CopyState) (h : Word) (rest : List Msg),
    TakesMsg s src dst (.copy c h seg seg) rest → t = taken s dst rest → moveGoes t c.obj.hi = true →
    ((station t dst).incoming.isSome = true ∨ holds t dst (copyTakes c) = false →
      exec (.migrationCopy src dst) s = .next (settled (send t dst src (.copyAnswer h none)))) ∧
    (∀ (refs : List (Nat × Nat)) (u : State), (station t dst).incoming = none → holds t dst (copyTakes c) = true →
      refs = newRefs (eddyRefs (station t dst)) (c.obj.body.eddies.map (·.ref)) →
      u = onStation (setObj t dst (hiIndex c.obj.hi) { c.obj with body := c.obj.body.mapEddies fun e =>
            { e with ref := match refs.find? fun p => p.1 == e.ref with | some p => p.2 | none => e.ref } }) dst
        (fun x => { x with incoming := some ⟨hiIndex c.obj.hi, src, refs, c.node⟩ }) →
      ((∀ r, c.obj.body = .rule r → r.action ≠ 0) → (∀ b, c.obj.body ≠ .beacon b) →
        exec (.migrationCopy src dst) s = .next (settled (send u dst src (.copyAnswer h (some refs))))) ∧
      (∀ b, c.obj.body = .beacon b → exec (.migrationCopy src dst) s = .next (settled
        (send (setBeacon u dst b.word b.value) dst src (.copyAnswer h (some refs))))) ∧
      (∀ r, c.obj.body = .rule r → r.action = 0 → exec (.migrationCopy src dst) s = .next (settled
        (send (subscribeRule u dst r true) dst src (.copyAnswer h (some refs))))))) ∧
  (∀ (s t : State) (src dst : Nat) (rest : List Msg) (m : Migration), t = taken s dst rest →
    (station t dst).outgoing = some m → moveGoes t (Handle.hi m.handle) = true →
    (∀ h, TakesMsg s src dst (.copyAnswer h none) rest → m.step = 2 →
      exec (.copyAccepted src dst) s = .next (settled (copyRefused t dst m.index))) ∧
    (∀ h refs (o : Obj) msgs, TakesMsg s src dst (.copyAnswer h (some refs)) rest → m.step = 2 →
      objAt t dst m.index = some o → msgs ≠ [] →
      msgs = o.body.eddies.flatMap (fun e => e.stations.map fun k => (k, MsgBody.rebind m.handle e.ref
        (match refs.find? fun p => p.1 == e.ref with | some p => p.2 | none => e.ref) m.newHome)) →
      exec (.copyAccepted src dst) s = .next (settled (sendAll (onOutgoing t dst fun _ =>
        { m with step := 3, waiting := msgs.map (·.1), refs := refs }) dst msgs))) ∧
    (∀ h refs (o : Obj), TakesMsg s src dst (.copyAnswer h (some refs)) rest → m.step = 2 → objAt t dst m.index = some o →
      (∀ e ∈ o.body.eddies, e.stations = []) →
      exec (.copyAccepted src dst) s = .next (settled (journalCommits
        (onOutgoing t dst fun _ => { m with step := 3, waiting := [], refs := refs }) dst
        { m with step := 3, waiting := [], refs := refs }))) ∧
    (∀ h, TakesMsg s src dst (.rebindAck h) rest → m.step = 3 → m.waiting.contains src = true →
      (m.waiting.erase src ≠ [] → exec (.rebindAck src dst) s = .next (settled
        (onOutgoing t dst fun _ => { m with waiting := m.waiting.erase src }))) ∧
      (m.waiting.erase src = [] → exec (.rebindAck src dst) s = .next (settled
        (journalCommits t dst { m with waiting := [] })))) ∧
    (∀ h, TakesMsg s src dst (.flush h) rest → m.step = 5 → m.waiting.contains src = true →
      (m.waiting.erase src ≠ [] → exec (.flush src dst) s = .next (settled
        (onOutgoing t dst fun _ => { m with waiting := m.waiting.erase src }))) ∧
      (m.waiting.erase src = [] → exec (.flush src dst) s = .next (settled (forwardHeld t dst { m with waiting := [] }))))) ∧
  (∀ (s t : State) (src dst oldRef newRef newHome : Nat) (h : Word) (rest : List Msg),
    TakesMsg s src dst (.rebind h oldRef newRef newHome) rest → t = taken s dst rest →
    exec (.rebind src dst) s = .next (settled (send (onWaiters t dst fun l => l.map fun w =>
      if w.place = .eddy src oldRef ∧ Handle.hi w.handle = Handle.hi h then { w with place := .eddy newHome newRef } else w)
      dst src (.rebindAck h)))) ∧
  (∀ (s t u : State) (n : Nat) (m : Migration), takesNow s n true = true → t = foreground s n →
    (station s n).outgoing = some m → (station t n).outgoing = some m → m.step = 4 → commitReady t n m = true →
    moveGoes t (Handle.hi m.handle) = true →
    u = bump (broadcast (chartSet t n m.index (some ⟨2, m.newHome⟩)) n (.chartCommit m.index 2 m.newHome true)) 0x210300 →
    (∀ o, objAt u n m.index = some o → homeNode u n o = none → exec (.migrationCommit n) s = .next (settled
      (onOutgoing u n fun _ => { m with step := 5, waiting := others t n }))) ∧
    (∀ o x, objAt u n m.index = some o → homeNode u n o = some x → exec (.migrationCommit n) s = .next (settled
      (onOutgoing (moveWeir u n m.newHome m.index) n fun _ => { m with step := 5, waiting := others t n })))) ∧
  (∀ (s t : State) (src dst : Nat) (h : Word) (rest : List Msg) (m : Incoming), TakesMsg s src dst (.forwardDone h) rest →
    t = taken s dst rest → (station t dst).incoming = some m →
    (m.oldHome ≠ src ∨ journalGoes t src = false → exec (.forwardDone src dst) s = .next (settled t)) ∧
    (∀ (u v w : State) (o : Obj), m.oldHome = src → journalGoes t src = true →
      u = bump (broadcast (chartSet (onStation t dst fun x => { x with incoming := none, hold := [] })
        dst m.index (some ⟨0, dst⟩)) dst (.chartCommit m.index 0 dst false)) 0x210300 →
      v = (station t dst).hold.foldl (fun x op => homeExec x dst op)
        (bump { u with journal := tdel u.journal src } 0x2A0504) →
      w = releaseReports v dst m.index → objAt w dst m.index = some o →
      ((∀ k, o.body ≠ .keeper k) → (∀ x, o.body ≠ .weir x) →
        exec (.forwardDone src dst) s = .next (settled (bumpFn w (hiFn o.hi) 0x28))) ∧
      (∀ k, o.body = .keeper k →
        exec (.forwardDone src dst) s = .next (settled
          (homeStep (bumpFn w (hiFn o.hi) 0x28) dst k.weirHi fun y => homeChecks 4 y dst (hiIndex k.weirHi)))) ∧
      (∀ x, o.body = .weir x →
        exec (.forwardDone src dst) s = .next (settled
          (homeStep (bumpFn w (hiFn o.hi) 0x28) dst o.hi fun y => homeChecks 4 y dst m.index)))))

/-! ## Links -/

/-- Link ports (R423 to R429, R447, R448, R540): what a port sends next, the acknowledgements, credits and resynchronization
that it takes, an ACK that is due, the retransmission of what is held once its time has passed, and the port's states; a link
that stays down, or holds a caravan unacknowledged, for its time is lost (R449). A RESYNC that comes is answered with one of this
port's own, as a lost link's is (which is the model's reading, log entry 16). -/
def Obligations.LinkPorts : Prop :=
  (∀ (s : State) (p : Nat) (l : Link), portsLive s = true → l = linkAt s p → NothingHeld l →
    (∀ c rest, l.control = c :: rest → l.flitsOk c = true → l.held.length < 256 →
      exec (.caravanSend p) s = .next (settled (sendControl s p c rest))) ∧
    (l.control = [] → l.weirReady = true → budgetOk s p = true →
      exec (.caravanSend p) s = .next (settled (sendUnit s p true))) ∧
    (l.control = [] → l.weirReady = false → l.opReady = true → budgetOk s p = true →
      exec (.caravanSend p) s = .next (settled (sendUnit s p false))) ∧
    (l.control = [] → l.weirReady = true ∨ l.opReady = true → budgetOk s p = false →
      exec (.caravanSend p) s = .next (settled (passFc s 1)))) ∧
  (∀ (s : State) (p seq : Nat) (l : Link) (c : Flit × List Flit) (rest : List (Nat × Flit × List Flit)),
    portsLive s = true → l = linkAt s p → l.state = .up → l.midUnit = none → l.control = [] →
    l.resend = (seq, c.1, c.2) :: rest → headKind c.1 ≠ 0x21 → l.flitsOk c = true →
    (kindClass (headKind c.1) = some .control ∨ budgetOk s p = true →
      exec (.caravanSend p) s = .next (settled (sendAgain s p seq c))) ∧
    (kindClass (headKind c.1) ≠ some .control → budgetOk s p = false →
      exec (.caravanSend p) s = .next (settled (passFc s 1)))) ∧
  (∀ (s : State) (p seq : Nat) (l : Link) (c : Flit × List Flit) (rest : List (Nat × Flit × List Flit)),
    portsLive s = true → l = linkAt s p → l.state = .up → l.unitOpen = true → l.resend = (seq, c.1, c.2) :: rest →
    headKind c.1 = 0x21 → l.flitsOk c = true → budgetOk s p = true →
    exec (.caravanSend p) s = .next (settled (sendAgain s p seq c))) ∧
  (∀ (s : State) (c : CaravanIn), (ComesIn c 0x00 s → exec (.ack c) s = .next (settled (cameIn s c))) ∧
    (ComesIn c 0x01 s → exec (.credit c) s = .next (settled (onLink (cameIn s c) c.port fun l => { l with
      weirCredit := l.weirCredit + headField c.head 57 51, opCredit := l.opCredit + headField c.head 50 44
      sealCredit := l.sealCredit + headField c.head 43 35 }))) ∧
    (ComesIn c 0x02 s → (linkAt (cameIn s c) c.port).state = .up →
      exec (.resync c) s = .next (settled (linkRestored (linkLost (cameIn s c) c.port) c.port)))) ∧
  (∀ (s : State) (p : Nat) (l : Link), portsLive s = true → l = linkAt s p → l.state = .up →
    (∀ t, t = passToFc s l.ackBy → l.ackDue = true → l.unitOpen = false →
      l.flitsOk (mkCaravan t 0x00 l.peer 0 0 0 0 []) = true →
      exec (.ackDue p) s = .next (settled (present t p (stampHead (mkCaravan t 0x00 l.peer 0 0 0 0 []).1 0 l.ack) []))) ∧
    (∀ t, t = passToFc s l.retxDue → l.held ≠ [] → exec (.retxTimeout p) s = .next (settled (setLink t p { l with
      resend := l.held, retxDue := t.clock.fc + setting t 0x2D0402 })))) ∧
  (∀ (s : State) (p : Nat) (l : Link), s.power.phase ≠ 1 → l = linkAt s p →
    (l.ready = false → linkOut s p = false → l.state = .lost →
      exec (.linkReady p) s = .next (settled (linkRestored (setLink s p { l with ready := true }) p))) ∧
    (l.ready = false → linkOut s p = false → l.state = .down → l.everUp = true →
      exec (.linkReady p) s = .next (settled (setLink s p { l.timed s with
        ready := true, state := .up, resend := l.held }))) ∧
    (l.ready = false → linkOut s p = false → l.state = .down → l.everUp = false →
      exec (.linkReady p) s = .next (settled (setLink s p { l.fresh.timed s with ready := true }))) ∧
    (l.state = .up →
      exec (.linkNotReady p) s = .next (settled (setLink s p { l.timed s with
        ready := false, flitCredit := 0, state := .down, unitOpen := false }))) ∧
    (l.state = .down → l.ready = false → exec (.linkLostTimeout p) s = .next (settled (linkLost (passToAc s l.lossDue) p))) ∧
    (l.state = .up → l.held ≠ [] → exec (.linkLostTimeout p) s = .next (settled
      (linkRestored (linkLost (passToAc s l.lossDue) p) p))))

/-- System weirs over links (R422, R433 to R437): a caravan for a weir of this chip crosses the course from its port's attach
station to the weir's home, where it acts. BIND takes a child or says NOTYET, BIND_REPLY binds, BIND_RETRY asks again, WEIR_UP
counts a child chip's report, WEIR_DOWN completes the child's weir; a caravan of this chip's own crosses the course to the
attach station of its port and waits there to be sent. -/
def Obligations.SystemWeirs : Prop :=
  (∀ (s t : State) (c : CaravanIn) (n : Nat), ServedHere c 0x10 s t → n = linkAttach t c.port →
    (weirOfNum t (headFn c.head) (headField c.head 57 42) = none → exec (.bind (.link c)) s = .next (settled
      (sendBindReply t n (headSrc c.head) (headFn c.head) 1 0 (headField c.head 41 18)).1)) ∧
    (∀ (home : Nat) (o : Obj) (w : Weir) (u : State),
      weirOfNum t (headFn c.head) (headField c.head 57 42) = some (home, o, w) →
      (w.record.children.any fun x => x.1 == headSrc c.head) = false → w.record.children.length < w.params.remote →
      u = setObj (atStep t) home (hiIndex o.hi) { o with body := .weir { w with sys := some { w.record with
        children := w.record.children ++ [(headSrc c.head, BitVec.ofNat 24 (headField c.head 41 18))] } } } →
      (sendBindReply u home (headSrc c.head) (hiFn o.hi) 0 (refOf o.hi) (headField c.head 41 18)).2 = true →
      exec (.bind (.link c)) s = .next (settled (homeStep t home o.hi fun _ =>
        (sendBindReply u home (headSrc c.head) (hiFn o.hi) 0 (refOf o.hi) (headField c.head 41 18)).1)))) ∧
  (∀ (s t : State) (c : CaravanIn) (n : Nat) (m : MsgBody), n = linkAttach t c.port →
    m = .caravan false false [(c.head, c.bodies)] →
    (ServedHere c 0x11 s t →
      exec (.bindReply (.link c)) s = .next (settled (send t n (homeOf t n (caravanIndex t c.head)) m))) ∧
    (ServedHere c 0x12 s t →
      exec (.weirUp (.link c)) s = .next (settled (send t n (homeOf t n (caravanIndex t c.head)) m))) ∧
    (ServedHere c 0x13 s t →
      exec (.weirDown (.link c)) s = .next (settled (send t n (homeOf t n (caravanIndex t c.head)) m)))) ∧
  (∀ (s t : State) (src dst p : Nat) (isSeal : Bool) (x : Flit × List Flit) (more : List (Flit × List Flit))
      (rest : List Msg), TakesMsg s src dst (.caravan true isSeal (x :: more)) rest → t = taken s dst rest →
    originPort t (headDest x.1) = some p → linkAttach t p = dst → (linkAt t p).state = .up ∨ (linkAt t p).state = .down →
    (headKind x.1 = 0x10 →
      exec (.bind (.course src dst)) s = .next (settled (enqueueUnit t p ⟨x :: more, isSeal, none⟩))) ∧
    (headKind x.1 = 0x11 →
      exec (.bindReply (.course src dst)) s = .next (settled (enqueueUnit t p ⟨x :: more, isSeal, none⟩))) ∧
    (headKind x.1 = 0x12 →
      exec (.weirUp (.course src dst)) s = .next (settled (enqueueUnit t p ⟨x :: more, isSeal, none⟩))) ∧
    (headKind x.1 = 0x13 →
      exec (.weirDown (.course src dst)) s = .next (settled (enqueueUnit t p ⟨x :: more, isSeal, none⟩)))) ∧
  (∀ (s t : State) (src dst : Nat) (h : Flit) (bodies : List Flit) (o : Obj) (w : Weir), ReachesHome src dst 0x11 h bodies s t →
    weirOfRef t dst (headFn h) (headField h 31 8) = some (o, w) → w.record.bind = 0 → w.state = 1 →
    (headField h 57 56 = 0 → exec (.bindReply (.course src dst)) s = .next (settled (homeStep (setObj t dst (hiIndex o.hi)
        { o with body := .weir { w with sys := some { w.record with
          bind := 1, parentRef := BitVec.ofNat 24 (headField h 55 32), retryAt := none } } }) dst o.hi
      fun u => boundSends u dst (hiIndex o.hi)))) ∧
    (headField h 57 56 = 1 → exec (.bindReply (.course src dst)) s = .next (settled (setObj t dst (hiIndex o.hi)
        { o with body := .weir { w with sys := some { w.record with
          retryAt := some ((t.now + setting t 0x2D0403) % 2 ^ 32) } } })))) ∧
  (∀ (s t : State) (n index due : Nat) (o : Obj) (w : Weir) (w' : Weir), takesNow s n true = true →
    bindWaits s n index = true → t = foreground s n → weirAt t n index = some (o, w) → w.record.retryAt = some due →
    w.record.bind = 0 → w.state = 1 → (due + 2 ^ 32 - t.now % 2 ^ 32) % 2 ^ 32 < 2 ^ 31 →
    w' = { w with sys := some { w.record with retryAt := none } } →
    exec (.bindRetry n index) s = .next (settled (homeStep (setObj (passAc t ((due + 2 ^ 32 - t.now % 2 ^ 32) % 2 ^ 32)) n
      index { o with body := .weir w' }) n o.hi fun u => sendBind u n { o with body := .weir w' } w'))) ∧
  (∀ (s t : State) (src dst : Nat) (h : Flit) (bodies : List Flit) (o : Obj) (w : Weir) (x : Node),
    ReachesHome src dst 0x12 h bodies s t → weirOfRef t dst (headFn h) (headField h 57 34) = some (o, w) →
    (w.record.children.any fun y => y.1 == headSrc h) = true →
    nodeAt (atStep t) dst (hiIndex o.hi) = some x → x.broken = false → headField h 32 31 = 0 →
    exec (.weirUp (.course src dst)) s = .next (settled (homeStep t dst o.hi fun _ => homeChecks 4 (putNode (atStep t) dst
      (hiIndex o.hi) (countReport x (1000 + headSrc h) (bit h 33) (headField h 30 25) (headField h 24 19)
        (if bodies.isEmpty then none else some (flitsPayload bodies)) true)) dst (hiIndex o.hi)))) ∧
  (∀ (s t : State) (src dst : Nat) (h : Flit) (bodies : List Flit) (o : Obj) (w : Weir), ReachesHome src dst 0x13 h bodies s t →
    weirOfRef t dst (headFn h) (headField h 57 34) = some (o, w) → w.isRoot = false → w.state = 1 →
    (headField h 32 31 = 0 → exec (.weirDown (.course src dst)) s = .next (settled (homeStep (setObj t dst (hiIndex o.hi)
        { o with body := .weir { w with heldDown := w.heldDown ++
          [if bodies.isEmpty then 0 else flitsPayload bodies] } }) dst o.hi
      fun u => homeChecks 4 u dst (hiIndex o.hi)))) ∧
    (headField h 32 31 = 2 → exec (.weirDown (.course src dst)) s = .next (settled (homeStep t dst o.hi
      fun u => weirFails u dst o w true))))

/-- Bridges and remote operations (R422, R426, R441 to R445): an OP is served as an operation at its port's attach station, one
that announces a payload once its OP_PAYLOAD has come, in a command of its own or in the same one, and a TOKENS caravan as a
Q_TOLL there; a REPLY or TOKEN_ACK crosses the course to its bridge queue's home, where it ends an operation of an op bridge or
the oldest caravan of a token bridge; an op bridge sends a packet that it has read whole, a token bridge the tokens that its
window takes, over the course to the attach station of their port. A bridge whose queue is on the move waits (R345). The model's
choices: every opcode is served (log entry 20), an OP and its OP_PAYLOAD go as one message (log entries 37 and 38), and the
qualifiers of a TOKENS caravan of several pushes are free (log entry 10). -/
def Obligations.BridgesAndRemoteOps : Prop :=
  (∀ (s t : State) (c : CaravanIn) (op : Opcode), ComesIn c 0x20 s → bit c.head 49 = false →
    (linkAt (cameIn s c) c.port).opPart = none → arrivalRoute (cameIn s c) c.port c.head = .here →
    t = returnUnit (cameIn s c) c.port ⟨[(c.head, c.bodies)], false, none⟩ → (fnOf t (headFn c.head)).state = .enabled →
    Opcode.ofCode (headField c.head 57 50) = some op →
    LinkReadyOp (wakeStation t (linkAttach t c.port)) op (linkOpOf t c none) →
    exec (.op (.link c) none) s = .next (settled (opServed t c op none))) ∧
  (∀ (s : State) (c : CaravanIn), ComesIn c 0x20 s → bit c.head 49 = true → (linkAt (cameIn s c) c.port).opPart = none →
    exec (.op (.link c) none) s = .next (settled (onLink (cameIn s c) c.port fun l => { l with
      opPart := some (c.head, c.bodies) }))) ∧
  (∀ (s v t w : State) (c d : CaravanIn) (op : Opcode), d.port = c.port → ComesIn d 0x21 v →
    (linkAt (cameIn v d) d.port).opPart = some (c.head, c.bodies) →
    w = onLink (cameIn v d) d.port (fun l => { l with opPart := none }) → arrivalRoute w c.port c.head = .here →
    t = returnUnit w c.port ⟨[(c.head, c.bodies), (d.head, d.bodies)], false, none⟩ →
    (fnOf t (headFn c.head)).state = .enabled → Opcode.ofCode (headField c.head 57 50) = some op →
    LinkReadyOp (wakeStation t (linkAttach t c.port)) op (linkOpOf t c (some (flitsPayload d.bodies))) →
    exec (.op (.link d) none) v = .next (settled (opServed t c op (some (flitsPayload d.bodies)))) ∧
    (ComesIn c 0x20 s → bit c.head 49 = true → (linkAt (cameIn s c) c.port).opPart = none →
      v = onLink (cameIn s c) c.port (fun l => { l with opPart := some (c.head, c.bodies) }) →
      exec (.op (.link c) (some d)) s = .next (settled (opServed t c op (some (flitsPayload d.bodies)))))) ∧
  (∀ (s t : State) (c : CaravanIn), ServedHere c 0x23 s t → LinkReadyOp (wakeStation t (linkAttach t c.port)) .qToll
      (linkTollOf t c) →
    exec (.tokens (.link c)) s = .next (settled (proceed
      (takeBucket (wakeStation t (linkAttach t c.port)) (linkAttach t c.port) (linkTollOf t c).fnStamp.toNat)
      { admOf .qToll (linkTollOf t c) with
        via := .tokens c.port (headSrc c.head) (headFn c.head) (headField c.head 47 42) (headField c.head 57 55)
          (BitVec.ofNat 8 (headField c.head 54 48))
          (tokensPayload c.bodies (headField c.head 57 55)) ((c.bodies.headD 0).extractLsb' 64 64)
          (headScope c.head) (headRelease c.head) 0 }))) ∧
  (∀ (s t : State) (c : CaravanIn) (n : Nat) (m : MsgBody), n = linkAttach t c.port →
    m = .caravan false false [(c.head, c.bodies)] →
    (ServedHere c 0x22 s t →
      exec (.reply (.link c)) s = .next (settled (send t n (homeOf t n (caravanIndex t c.head)) m))) ∧
    (ServedHere c 0x24 s t →
      exec (.tokenAck (.link c)) s = .next (settled (send t n (homeOf t n (caravanIndex t c.head)) m)))) ∧
  (∀ (s t : State) (src dst p : Nat) (isSeal : Bool) (x : Flit × List Flit) (more : List (Flit × List Flit))
      (rest : List Msg), TakesMsg s src dst (.caravan true isSeal (x :: more)) rest → t = taken s dst rest →
    originPort t (headDest x.1) = some p → linkAttach t p = dst → (linkAt t p).state = .up ∨ (linkAt t p).state = .down →
    (headKind x.1 = 0x20 →
      exec (.op (.course src dst) none) s = .next (settled (enqueueUnit t p ⟨x :: more, isSeal, none⟩))) ∧
    (headKind x.1 = 0x22 →
      exec (.reply (.course src dst)) s = .next (settled (enqueueUnit t p ⟨x :: more, isSeal, none⟩))) ∧
    (headKind x.1 = 0x23 →
      exec (.tokens (.course src dst)) s = .next (settled (enqueueUnit t p ⟨x :: more, isSeal, none⟩))) ∧
    (headKind x.1 = 0x24 →
      exec (.tokenAck (.course src dst)) s = .next (settled (enqueueUnit t p ⟨x :: more, isSeal, none⟩)))) ∧
  (∀ (s t : State) (src dst : Nat) (h : Flit) (bodies : List Flit) (b : Nat) (i : BridgeItem) (rest : List BridgeItem),
    ReachesHome src dst 0x22 h bodies s t → b = headField h 33 28 → bridgeOf t b h = true →
    takeFirst (fun x : BridgeItem => x.opTag == BitVec.ofNat 16 (headField h 49 34) && x.dest == headSrc h)
      (bridgeAt t b).items = some (i, rest) →
    bridgeMode t b = 1 →
    exec (.reply (.course src dst)) s = .next (settled (bridgeRelease (bridgeReply (onBridge t b fun x => { x with
      items := rest }) b (headField h 57 50) (BitVec.ofNat 16 (headField h 49 34)) ((bodies.headD 0).extractLsb' 64 64)) b
      i.tokens))) ∧
  (∀ (s t : State) (src dst : Nat) (h : Flit) (bodies : List Flit) (b : Nat) (i : BridgeItem) (rest : List BridgeItem),
    ReachesHome src dst 0x24 h bodies s t → b = headField h 46 41 → bridgeOf t b h = true → bridgeMode t b = 2 →
    (bridgeAt t b).items = i :: rest →
    (headField h 54 47 = 0 → exec (.tokenAck (.course src dst)) s = .next (settled
      (bridgeRelease (onBridge t b fun x => { x with items := rest }) b i.tokens))) ∧
    (headField h 54 47 ≠ 0 → exec (.tokenAck (.course src dst)) s = .next (settled
      (bridgeStops t b ((originPort t (bridgeChip t b)).getD 0))))) ∧
  (∀ (s t u : State) (b home : Nat) (o : Obj) (q : Queue), portsLive s = true →
    bridgeHome s b = some (home, o, q) → q.takeTokens false 1 q.read ≠ [] → takesNow s home true = true →
    t = foreground s home →
    (∀ k o' q', bridgeMode t b = 1 → (bridgeAt t b).items.length < bridgeWindow t b → u = gatherPacket 40 t b →
      ((bridgeAt u b).partial_.getLast?.map (·.endMark)).getD false = true →
      queueOf u (bridgeQueue u b) = some (k, o', q') →
      exec (.bridgeOpSend b) s = .next (settled (sendPacket u k b (bridgeAt u b).partial_))) ∧
    (∀ p toks, bridgeMode t b = 2 → bridgeHome t b = some (home, o, q) →
      toks = q.takeTokens false (min 7 (bridgeWindow t b - (bridgeAt t b).sum)) q.read → toks ≠ [] → q.faultAt = none →
      q.pushing = none → originRoute t (bridgeChip t b) = some p →
      exec (.bridgeTokensSend b) s = .next (settled (onBridge
        (originate (bridgePop t home o q toks) home (bridgeChip t b) [tokensCaravan t b q toks] false).1 b
        fun x => { x with items := x.items ++ [⟨0, toks.length, bridgeChip t b⟩] }))))

/-! ## Management -/

/-- Reads and writes of dictionary entries, and functions (R76, R88, R489 to R491, R503, Table 2.7): a read answers with the
entry's type and bytes; a write has the entry's effect and restarts the lease, and waits its turn where an enable keeps the
requests on functions waiting (R93); the register window's registers are read and written at their addresses (R500), the
handshake before a command that the write starts (R545); an enable waits for its key, a disable begins the drain, a share
write clears the function's buckets; a drain takes its steps as their conditions come true. -/
def Obligations.DictionaryAndFunctions : Prop :=
  (∀ (s t : State) (q : HostReq) (e : EntryRef) (code : Nat) (l : List Byte), Admits q.host s →
    t = asked s q.host 0x01 (Window.access e q.epoch []) → readEntry t e = (.ok, code, l) →
    exec (.read q (.entry e)) s = .next (settled (answerHost t q.host 0x01 .ok
      (bytesLE 1 code ++ bytesLE 1 0 ++ bytesLE 2 l.length ++ l)))) ∧
  (∀ (s t : State) (q : HostReq) (e : EntryRef) (data : List Byte) (row : EntryRow), Admits q.host s →
    t = asked s q.host 0x02 (Window.access e q.epoch data) → writeRow t q e data = .inr row →
    (∀ u, FnTurn t e.index.toNat → entryWrites t q row e data = (u, some .ok) →
      exec (.write q (.entry e) data) s = .next (settled (wrote q u))) ∧
    ((entryFn e.index.toNat).isSome = true → fnBusy t = true →
      exec (.write q (.entry e) data) s = .next (settled { t with fnQueue := t.fnQueue ++ [(q, e, data)] }))) ∧
  (∀ (s : State) (q : HostReq) (k : BitVec 9), s.power.phase ≠ 1 →
    exec (.read q (.register k)) s = .next (settled
      (driven s (.windowAck (BitVec.ofNat 32 (windowRead s (4 * k.toNat)))))) ∧
    (∀ data, exec (.write q (.register k) data) s = .next (settled
      (windowWrite (driven s (.windowAck 0)) (4 * k.toNat) (BitVec.ofNat 32 (ofBytesLE data)))))) ∧
  (∀ (s t : State) (q : HostReq) (f : BitVec 12), fnBusy t = false →
    (OwnerWrites q (0x3000 + f.toNat) 0x01 1 1 s t → (fnOf t f.toNat).state = .disabled →
      (fnOf t f.toNat).enabling = none → (fnOf t f.toNat).generation ≠ 0xFFFFFFFF →
      (partAt t (fnPartition t f.toNat)).state = .ready → enableFits t f.toNat = true → t.power.resetting = false →
      t.power.engineOos = false → t.debug ≠ .zeroising →
      exec (.enable q f) s = .next (settled
        (wantEntropy (setFn t f.toNat { fnOf t f.toNat with enabling := some q }) (.fnKey f.toNat)))) ∧
    (OwnerWrites q (0x3000 + f.toNat) 0x01 1 0 s t → (fnOf t f.toNat).state = .enabled →
      exec (.disable q f) s = .next (settled (wrote q (beginDrain t f.toNat false)))) ∧
    (∀ burst v, OwnerWrites q (0x3000 + f.toNat) (if burst then 0x05 else 0x04) 1 (BitVec.toNat (w := 8) v) s t →
      sharesFit t f.toNat (if burst then fnSetting t f.toNat 0x04 else v.toNat)
        (if burst then v.toNat else fnSetting t f.toNat 0x05) (fnOf t f.toNat).live = true →
      exec (.shareWrite q f burst v) s = .next (settled (wrote q
        ((setFnSetting t f.toNat (if burst then 0x05 else 0x04) v.toNat).stations.foldl
          (fun u p => onStation u p.1 fun st => { st with buckets := tdel st.buckets f.toNat })
          (setFnSetting t f.toNat (if burst then 0x05 else 0x04) v.toNat)))))) ∧
  (∀ (s : State) (f : BitVec 12) (d : FnDrain), (fnOf s f.toNat).drain = some d →
    (d.step = 1 → d.forReset = false → exec (.drainStepDone f) s = .next (settled
      (purgeFn (setDrain s f.toNat fun x => { x with step := 2 }) f.toNat))) ∧
    (d.step = 2 → purged s f.toNat d = true → exec (.drainStepDone f) s = .next (settled
      (resolveFn (setDrain s f.toNat fun x => { x with step := 3 }) f.toNat))) ∧
    (d.step = 3 → (s.journal.any fun p => p.2.1 == f.toNat) = false → exec (.drainStepDone f) s = .next (settled
      (destroyNext (setDrain s f.toNat fun x => { x with step := 4 }) f.toNat destroyOrder))) ∧
    (d.step = 4 → destroyed s f.toNat = true → exec (.drainStepDone f) s = .next (settled
      (setDrain s f.toNat fun x => { x with step := 5, slices := s.slices.map (·.1) }))) ∧
    (d.step = 5 → d.slices = [] → exec (.drainStepDone f) s = .next (settled
      (setDrain s f.toNat fun x => { x with step := 6 }))) ∧
    (d.step = 6 → d.flightDone = true → exec (.drainStepDone f) s = .next (settled
      (setFn (setDrain s f.toNat fun x => { x with step := 7 }) f.toNat
        { fnOf (setDrain s f.toNat fun x => { x with step := 7 }) f.toNat with key := none }))) ∧
    (d.step = 7 → exec (.drainStepDone f) s = .next (settled (closeFn s f.toNat))) ∧
    exec (.flightWaitEnd f) s = .next (settled
      (setDrain (passToAc s (d.began + s.gelari.landingFlightAc)) f.toNat fun x => { x with flightDone := true })) ∧
    (∀ j, d.step = 5 → d.slices.contains j = true → sliceQuiet s j f.toNat = true →
      exec (.sliceDrainDone j f) s = .next (settled
        (setDrain (sliceDrained s j f.toNat) f.toNat fun x => { x with slices := x.slices.filter (· != j) }))))

/-- Faults of partitions and cores (R450, R456, R461, R463 to R470, R472 to R476, R546): a heartbeat read, the owner's freeze
and return, a fault line, the capture, the partition reset and its time limit, interface resets, fences and unfences and their
answers; what a declaration leaves of the fault record and the partition, and what the end of a fence leaves of the core's
waits. The model's choices: a later cause replaces the record (log entry 39), what a fence does to waits and their homes (log
entry 40), and which core commands fit (log entry 41). -/
def Obligations.Recovery : Prop :=
  (∀ (s t u : State) (p : BitVec 6) (h : Word) (c : Counter), h = BitVec.ofNat 64 (setting s (0x2E0200 + p.toNat)) →
    counterOf s h = some c → h ≠ 0 → fnPartition s (Handle.fn h) = p.toNat →
    t = passToAc s (partAt s p.toNat).beatDue →
    u = onPart t p.toNat (fun y => { y with lastBeat := some c.value, beatDue := t.now + setting t 0x2E0400 }) →
    ((partAt s p.toNat).lastBeat ≠ some c.value → exec (.heartbeatRead p) s = .next (settled u)) ∧
    ((partAt s p.toNat).lastBeat = some c.value → exec (.heartbeatRead p) s = .next (settled
      (declare u p.toNat 1 h (Handle.fn h) (setting u (0x2E0300 + p.toNat)) 0 0)))) ∧
  (∀ (s t : State) (q : HostReq) (p : BitVec 6),
    (OwnerWrites q 0x2E07 p.toNat 1 1 s t →
      exec (.partitionFreeze q p) s = .next (settled (wrote q (declare t p.toNat 2 0 0 0 0 0)))) ∧
    (OwnerWrites q 0x2E07 p.toNat 1 0 s t → (partAt t p.toNat).state = .outOfService → (partAt t p.toNat).req = false →
      exec (.partitionReady q p) s = .next (settled (wrote q
        (onPart t p.toNat fun y => { y with state := .ready, step := 0, entries := [] })))) ∧
    (s.power.phase ≠ 1 → (partAt s p.toNat).state = .ready →
      exec (.partitionFault p) s = .next (settled (freezePartition (onPart s p.toNat fun x =>
        { x with fault := faultRecord s 3 p.toNat 0 0 0 0 0 }) p.toNat)))) ∧
  (∀ (s t : State) (p cause fn agent phys tier : Nat) (h : Word),
    t = onPart s p (fun x => { x with fault := faultRecord s cause p h fn agent phys tier }) →
    ((partAt s p).state = .ready → cause ≠ 4 → declare s p cause h fn agent phys tier = freezePartition t p ∧
      (partAt (freezePartition t p) p).state = .frozen ∧ (partAt (freezePartition t p) p).step = 1 ∧
      (partAt (freezePartition t p) p).fault = faultRecord s cause p h fn agent phys tier ∧
      (partAt (freezePartition t p) p).entries = (partAt s p).entries ++ [s.now]) ∧
    ((partAt s p).state = .ready → cause = 4 → declare s p cause h fn agent phys tier = t) ∧
    ((partAt s p).state ≠ .ready → cause = 4 → resetRuns s p = true →
      declare s p cause h fn agent phys tier = bump (raiseTier s p tier) 0x2E0B04) ∧
    ((partAt s p).state ≠ .ready → cause ≠ 4 ∨ resetRuns s p = false →
      declare s p cause h fn agent phys tier = bump t 0x2E0B04)) ∧
  (∀ (s t : State) (src dst j : Nat) (e : CaptureEntry) (rest : List Msg) (l : Slice) (c : Capture),
    TakesMsg s src dst (.captureEntry e) rest → t = taken s dst rest →
    t.slices.find? (capturing t dst e.partition) = some (j, l) → l.capture = some c →
    exec (.captureEntry src dst) s = .next (settled (captureRun t j { c.add e.entry with left := c.left - 1 }))) ∧
  (∀ (s t : State) (p : BitVec 6) (j : Nat) (c : Capture), captureSlice s p.toNat = some (j, c) → c.step < 2 →
    c.closed = false → t = passAc s (c.start + setting s 0x2E0601 - s.now) →
    exec (.captureLimit p) s = .next (settled
      (captureRun t j { c with closed := true, truncated := c.truncated || c.left != 0 }))) ∧
  (∀ (s t : State) (p : BitVec 6) (x : Partition) (n : Nat), x = partAt s p.toNat → x.req = true →
    t = onPart s p.toNat (fun y => { y with req := false, ack := true }) →
    n = (x.entries.filter fun a => decide (x.entries.foldl max 0 < a + setting s 0x2E0802)).length →
    (x.state ≠ .resetting → exec (.prstAck p) s = .next (settled t)) ∧
    (x.state = .resetting → x.step ≠ 5 ∨ n < setting s 0x2E0801 →
      exec (.prstAck p) s = .next (settled (raise (onPart t p.toNat fun y => { y with state := .ready, step := 0 }) 0x21
        (partAt (onPart t p.toNat fun y => { y with state := .ready, step := 0 }) p.toNat).fault))) ∧
    (x.state = .resetting → x.step = 5 → setting s 0x2E0801 ≤ n →
      exec (.prstAck p) s = .next (settled (partitionOos t p.toNat))) ∧
    (x.state = .resetting → exec (.partitionResetTimeout p) s = .next (settled
      (partitionOos (raiseTier (passToAc s x.due) p.toNat 3) p.toNat)))) ∧
  (∀ (s : State) (p : BitVec 6), exec (.prstAckFall p) s = .next (settled
    (onPart s p.toNat fun x => if x.req then x else { x with ack := false }))) ∧
  (∀ (s t : State) (q : HostReq) (phys : BitVec 12), physKnown t phys.toNat = true →
    (OwnerWrites q 0x2E0A 0x04 4 (1 + 2 ^ 16 * phys.toNat) s t → coreCommandFits t 1 phys.toNat = true →
      exec (.interfaceReset q phys) s = .next (settled (wrote q
        (requestReset t phys.toNat (logicalOf t phys.toNat) none)))) ∧
    (OwnerWrites q 0x2E0A 0x04 4 (2 + 2 ^ 16 * phys.toNat) s t → coreCommandFits t 2 phys.toNat = true →
      exec (.fence q phys) s = .next (settled (wrote q
        (requestFence t phys.toNat ((logicalOf t phys.toNat).or (tget t.moved phys.toNat)) none)))) ∧
    (OwnerWrites q 0x2E0A 0x04 4 (3 + 2 ^ 16 * phys.toNat) s t → coreCommandFits t 3 phys.toNat = true →
      exec (.unfence q phys) s = .next (settled (wrote q (coreCommand t
        ⟨3, phys.toNat, none, (logicalOf t phys.toNat).or (tget t.moved phys.toNat), none, 0⟩ 0))))) ∧
  (∀ (s : State) (phys : BitVec 12) (c : CoreCmd),
    (∀ block p n, cmdOf s 1 phys.toNat = some c → c.partition = some p → c.logical = some n →
      exec (.interfaceResetAck phys block) s = .next (settled (onPart (dropCmd s 1 phys.toNat) p fun x => { x with
        waiting := x.waiting.filter (· != n), blocks := tput x.blocks n block }))) ∧
    (cmdOf s 1 phys.toNat = some c → c.partition = none → ∀ block,
      exec (.interfaceResetAck phys block) s = .next (settled (dropCmd s 1 phys.toNat))) ∧
    (∀ n u v, cmdOf s 1 phys.toNat = some c → c.logical = some n → u = dropCmd (passToAc s c.due) 1 phys.toNat →
      v = (if corePartition u n = 255 then u else declare u (corePartition u n) 4 0 0 (4 * n) phys.toNat 1) →
      (v.fenced.contains phys.toNat = false → cmdOf v 2 phys.toNat = none →
        exec (.interfaceResetTimeout phys) s = .next (settled (requestFence v phys.toNat (some n) c.partition))) ∧
      (v.fenced.contains phys.toNat = true →
        exec (.interfaceResetTimeout phys) s = .next (settled (coreWaited v c)))) ∧
    (cmdOf s 2 phys.toNat = some c → exec (.fenceAck phys) s = .next (settled (fenceEnds s c true))) ∧
    (cmdOf s 2 phys.toNat = some c →
      exec (.fenceTimeout phys) s = .next (settled (fenceEnds (passToAc s c.due) c false))) ∧
    (∀ n u v part, c.logical = some n → u = fencedNow s c.phys → physOf u n = c.phys →
      part = (if corePartition u n = 255 then none else some (corePartition u n)) →
      (∀ sp, c.spare = some sp → v = remapCore (endCoreWaits u n) n c.phys sp →
        fenceEnds s c true = coreWaited (raise (bump v 0x2E0B02) 0x23 (fencedRecord v part 4 (4 * n) c.phys)) c) ∧
      (c.spare = none → v = breakCore (endCoreWaits u n) n →
        fenceEnds s c true = coreWaited (raise (bump v 0x2E0B02) 0x23 (fencedRecord v part 4 (4 * n) c.phys)) c) ∧
      (∀ p, part = some p → v = declare (breakCore (endCoreWaits u n) n) p 6 0 0 (4 * n) c.phys 2 →
        fenceEnds s c false = coreWaited (raise (bump v 0x2E0B02) 0x23 (fencedRecord v part 6 (4 * n) c.phys)) c) ∧
      (part = none → v = breakCore (endCoreWaits u n) n →
        fenceEnds s c false = coreWaited (raise (bump v 0x2E0B02) 0x23 (fencedRecord v part 6 (4 * n) c.phys)) c)) ∧
    (∀ u, c.logical = none → u = fencedNow s c.phys →
      fenceEnds s c true = raise (bump u 0x2E0B02) 0x23 (fencedRecord u none 4 0 c.phys)) ∧
    (∀ p n, c.partition = some p → c.logical = some n →
      coreWaited s c = onPart s p fun x => { x with waiting := x.waiting.filter (· != n) }) ∧
    (∀ n, cmdOf s 3 phys.toNat = some c →
      logicalOf (dropCmd { s with fenced := s.fenced.filter (· != phys.toNat) } 3 phys.toNat) phys.toNat = some n →
      exec (.unfenceAck phys) s = .next (settled
        (coreUnfenced (dropCmd { s with fenced := s.fenced.filter (· != phys.toNat) } 3 phys.toNat) n)))) ∧
  (∀ (s : State) (core n : Nat),
    (∀ w ∈ (station (endCoreWaits s core) n).waiters, ofCore core w.agent = false) ∧
    (∀ m ∈ (station (endCoreWaits s core) n).ready, ofCore core m.agent = false) ∧
    (∀ x ∈ (station (endCoreWaits s core) n).budget.map (·.2) ++ (station (endCoreWaits s core) n).excess,
      ofCore core x.agent = true → x.op.waits = false)) ∧
  (∀ (s : State) (n index ref : Nat) (w : Waiter), w.phase = .joined → w.place = .eddy index ref → w.cancel = none →
    (w.hold = true → fenceWait s n w = respond (dropWaiter (sendWithdrawal s n w) n w.id) n w.reply
      (mkRsp w.acquire w.scope w.opTag (plain .fenced))) ∧
    (w.hold = false → fenceWait s n w = dropWaiter (sendWithdrawal s n w) n w.id))

/-- The MCTP transport (R496 to R498, R542 to R544): control messages are answered, a packet of a message in several pieces is
joined to those before it, a packet that has been read leaves, and the in-band interrupt is requested. The layouts of packets,
answers and completion codes are the published standards', which the spec names and does not give (log entry 44). -/
def Obligations.Transport : Prop :=
  (∀ (s : State) (c : MctpCtl), s.power.phase ≠ 1 → s.restarting = none →
    (∀ eid : BitVec 8, 0x08 ≤ eid.toNat → eid.toNat ≤ 0xFE → exec (.setEndpointId c eid) s = .next (settled
      (controlAnswer (setSetting s 0x200300 eid.toNat) c 0x01 0 (bytesLE 1 0 ++ bytesLE 1 eid.toNat ++ bytesLE 1 0)))) ∧
    exec (.getEndpointId c) s = .next (settled
      (controlAnswer s c 0x02 0 (bytesLE 1 (setting s 0x200300) ++ bytesLE 2 0))) ∧
    exec (.getEndpointUuid c) s = .next (settled (controlAnswer s c 0x03 0 (bytesBE 16 (setting s 0x200301)))) ∧
    (∀ type : BitVec 8, type.toNat = 0xFF ∨ type.toNat = 0 → exec (.getMctpVersionSupport c type) s = .next (settled
      (controlAnswer s c 0x04 0 (bytesLE 1 1 ++ bytesBE 4 0xF1F3FF00)))) ∧
    exec (.getMessageTypeSupport c) s = .next (settled
      (controlAnswer s c 0x05 0 (bytesLE 1 2 ++ bytesLE 1 0x00 ++ bytesLE 1 0x7F))) ∧
    exec (.getVendorDefinedMessageSupport c 0) s = .next (settled (controlAnswer s c 0x06 0
      (bytesLE 1 0xFF ++ bytesLE 1 1 ++ bytesBE 4 (setting s 0x100001) ++ [Config.vendorByte 0, Config.vendorByte 1])))) ∧
  (∀ (s : State) (version dest src flags code : Byte) (l : List Byte), s.power.phase ≠ 1 →
    s.restarting = none → Config.packetCode (version :: dest :: src :: flags :: l) = code → version.toNat % 16 = 1 →
    (dest.toNat = 0 ∨ dest.toNat = setting s 0x200300 →
      exec (.mctpPacket ((version :: dest :: src :: flags :: l) ++ [code])) s = .next (settled
        (packetJoins s src.toNat flags.toNat l))) ∧
    (dest.toNat ≠ 0 → dest.toNat ≠ setting s 0x200300 →
      exec (.mctpPacket ((version :: dest :: src :: flags :: l) ++ [code])) s = .next (settled s))) ∧
  (∀ (s : State) (version dest src flags code : Byte) (l : List Byte) (a : Assembly), s.power.phase ≠ 1 →
    s.restarting = none → Config.packetCode (version :: dest :: src :: flags :: l) = code → version.toNat % 16 = 1 →
    dest.toNat = setting s 0x200300 → flags.toNat / 8 % 2 = 1 → flags.toNat / 64 % 2 = 0 → flags.toNat / 128 = 0 →
    s.transport.assembly.find? (fun x => x.src == src.toNat && x.tag == flags.toNat % 8) = some a →
    a.next = flags.toNat / 16 % 4 → a.bytes.length + l.length ≤ 1104 →
    exec (.mctpPacket ((version :: dest :: src :: flags :: l) ++ [code])) s = .next (settled
      (setAssembly s (otherAssemblies s src.toNat (flags.toNat % 8) ++
        [⟨src.toNat, flags.toNat % 8, (flags.toNat / 16 % 4 + 1) % 4, a.bytes ++ l⟩])))) ∧
  (∀ s : State, s.transport.txQueue ≠ [] → exec (.mpPrivateRead true) s = .next (settled
    { s with transport := Transport.ibi (setting s 0x2F0400) { s.transport with
      txQueue := s.transport.txQueue.drop 1, ibiTaken := false, ibiRetryAt := none } })) ∧
  (∀ s : State, s.transport.ibiReq = true →
    exec (.ibiAnswer true) s = .next (settled
      { s with transport := Transport.ibi (setting s 0x2F0400) { s.transport with ibiTaken := true } }) ∧
    exec (.ibiAnswer false) s = .next (settled { s with
      transport := Transport.ibi (setting s 0x2F0400) { s.transport with
        ibiRetryAt := some (s.now + setting s 0x2F0401) } })) ∧
  (∀ (s t : State) (d : Nat), s.transport.ibiRetryAt = some d → t = passToAc s d →
    exec .ibiRetry s = .next (settled
      { t with transport := Transport.ibi (setting t 0x2F0400) { t.transport with ibiRetryAt := none } }))

/-- Ownership and events (R501 to R504, R507 to R512, Table 15.10): a claim starts an election, whose window's end makes the
best claimant owner; the owner renews, releases and hands over, a lease and a handover end at their deadlines; a host
subscribes, fetches or is sent its oldest event, and acknowledges it. -/
def Obligations.OwnershipAndEvents : Prop :=
  (∀ (s t : State) (host : Nat) (priority : BitVec 8) (nonce : BitVec 32),
    HostAsks host 0x10 s.window.epoch.toNat priority.toNat nonce.toNat s t →
    (t.owner.state = .unowned → exec (.claim host priority nonce) s = .next (settled (onOwner t fun o => { o with
      state := .electing, deadline := t.now + setting t 0x200202, claims := [⟨host, priority.toNat, nonce.toNat⟩] }))) ∧
    (t.owner.state = .owned → t.owner.host = host → exec (.claim host priority nonce) s = .next (settled
      (answerHost (startLease t) host 0x10 .ok (ownerBody (startLease t))))) ∧
    (t.owner.state = .owned → t.owner.host ≠ host →
      exec (.claim host priority nonce) s = .next (settled (answerHost t host 0x10 .notOwner (ownerBody t))))) ∧
  (∀ (s t : State) (c : Claim), s.owner.state = .electing → t = passToAc s s.owner.deadline →
    bestClaim t.owner.claims = some c →
    exec .claimWindowEnd s = .next (settled (t.owner.claims.foldl
      (fun v x => answerHost v x.host 0x10 (if x.host = c.host then .ok else .notOwner) (ownerBody v))
      (changeOwner t c.host c.priority)))) ∧
  (∀ (s t : State) (q : HostReq),
    (HostAsks q.host 0x11 q.epoch s.window.arg0.toNat s.window.arg1.toNat s t → ownerRefusal t q = none →
      exec (.renew q) s = .next (settled
        (answerHost (startLease t) q.host 0x11 .ok (bytesLE 4 (leaseLeft (startLease t)))))) ∧
    (HostAsks q.host 0x12 q.epoch s.window.arg0.toNat s.window.arg1.toNat s t → ownerRefusal t q ≠ some .notOwner →
      exec (.release q) s = .next (settled (answerHost (changeOwner t 0 0) q.host 0x12 .ok []))) ∧
    (∀ target, HostAsks q.host 0x13 q.epoch target s.window.arg1.toNat s t → ownerRefusal t q = none →
      target ≠ q.host → hostDefined target = true →
      exec (.handover q target) s = .next (settled (answerHost (onOwner t fun o => { o with
          state := .handing, remaining := leaseLeft t, target := target, deadline := t.now + setting t 0x200203 })
        q.host 0x13 .ok [])))) ∧
  (∀ (s t : State) (host : Nat), HostAsks host 0x14 s.window.epoch.toNat t.owner.host s.window.arg1.toNat s t →
    t.owner.state = .handing → t.owner.target = host →
    exec (.accept host t.owner.host) s = .next (settled (answerHost (changeOwner t host t.owner.priority) host 0x14 .ok []))) ∧
  (∀ (s t u : State), t = passToAc s s.owner.deadline →
    (s.owner.state = .owned → s.restarting = none → u = onOwner t (fun o => { o with
        state := .unowned, host := 0, priority := 0, epoch := (o.epoch + 1) % 2 ^ 32 }) →
      exec .leaseExpiry s = .next (settled (raise u 0x02 (generic t.owner.host u.owner.epoch 0 0 0)))) ∧
    (s.owner.state = .handing →
      exec .handoverDeadline s = .next (settled (startLease (onOwner t fun o => { o with state := .owned }))))) ∧
  (∀ (s t : State) (host : Nat) (mask : BitVec 128), Admits host s → t = asked s host 0x20 id →
    (∀ k x, slotOf t host = some (k, x) → mask ≠ 0 → exec (.subscribe host mask) s = .next (settled
      (answerHost (setSub t k { x with mask := mask }) host 0x20 .ok (bytesLE 1 k)))) ∧
    (∀ k x, slotOf t host = some (k, x) → mask = 0 → exec (.subscribe host mask) s = .next (settled
      (answerHost { t with subs := tdel t.subs k } host 0x20 .ok (bytesLE 1 k)))) ∧
    (slotOf t host = none → mask ≠ 0 → leastFrom (fun k => (tget t.subs k).isNone) 8 0 < 8 →
      exec (.subscribe host mask) s = .next (settled (answerHost (setSub t (leastFrom (fun k => (tget t.subs k).isNone) 8 0)
        ⟨host, mask, setting t 0x200601, none, 0, 0⟩) host 0x20 .ok
        (bytesLE 1 (leastFrom (fun k => (tget t.subs k).isNone) 8 0)))))) ∧
  (∀ (s t : State) (k : Nat) (x : Sub) (e : Event), Admits 0x200 s → t = asked s 0x200 0x21 id →
    slotOf t 0x200 = some (k, x) → x.oldest t = some e →
    exec .event s = .next (settled
      (answerHost (setSub t k { x with outstanding := some e.seq }) 0x200 0x21 .ok e.bytes))) ∧
  (∀ (s t : State) (host k : Nat) (seq : BitVec 32) (x : Sub),
    HostAsks host 0x22 s.window.epoch.toNat seq.toNat s.window.arg1.toNat s t → slotOf t host = some (k, x) →
    x.open_ t = some seq.toNat →
    exec (.eventAck host seq) s = .next (settled
      (answerHost (setSub t k { x with next := seq.toNat + 1, outstanding := none, sends := 0 }) host 0x22 .ok []))) ∧
  (∀ (s : State) (host k : Nat) (x : Sub) (e : Event), host ≠ 0x200 → s.restarting = none → slotOf s host = some (k, x) →
    (x.outstanding = none → x.oldest s = some e →
      exec (.eventSend host) s = .next (settled (sendEvent s k x e 1))) ∧
    (x.current s = some e → x.sends < setting (passToAc s x.due) 0x200502 →
      exec (.eventRetry host) s = .next (settled (sendEvent (passToAc s x.due) k x e (x.sends + 1)))) ∧
    (x.current s = some e → setting (passToAc s x.due) 0x200502 ≤ x.sends →
      exec (.eventRetry host) s = .next (settled
        (raise { passToAc s x.due with subs := tdel (passToAc s x.due).subs k } 0x04 (generic host 0 0 0 0)))))

/-- Debug access and service (R513 to R516, R592, R594, R596, R600 to R602): an unlock clears the stores and, where the
verification reads every store cleared, asks for a tag key before the test port opens; where it does not, the port stays
closed and the engine is out of service (R514); a lock resets the engine; a service command that its unit admits begins its
first step, a step that is done begins the next or ends the service, and one that times out fails it; CLEAR empties the
occupancy bins. The model's choices: the result of a failing TEST (log entry 29), the states that admit a service (log entry
13), what the verification finds, a free value (log entry 47), and how the roles travel (log entry 80). -/
def Obligations.DebugAndService : Prop :=
  (∀ (s t : State) (q : HostReq),
    (OwnerWrites q 0x2008 0x00 1 0 s t → exec (.unlock q) s = .next (settled (wrote q (unlocks t t.owner.host)))) ∧
    (OwnerWrites q 0x2008 0x00 1 1 s t → exec (.lock q) s = .next (settled (wrote q (locks t)))) ∧
    (OwnerWrites q 0x4140 0x00 1 0 s t → exec (.clear q) s = .next (settled (wrote q { t with bins := [] })))) ∧
  (∀ (s u v : State) (ok : Bool), s.power.phase = 0 → s.debug ≠ .zeroising →
    u = bump { clearStores (bumpBy s 0x210406 (dozingFc s)) unlockState with debug := .zeroising } 0x200802 →
    Cleared u ∧ u.owner = s.owner ∧ ((∀ n, (station s n).rx = []) → u.log = s.log ∧ u.subs = s.subs) ∧ (Config.clearedZero (setting u 0x200802) = ok →
    v = raise (setSetting u 0x200803 (debugRecord u 0xFFFF ok false)) 0x05
      (BitVec.ofNat 256 (debugRecord u 0xFFFF ok false)) →
    (ok = true → exec .unlockInstruction s = .next (settled (wantEntropy v .tagKey))) ∧
    (ok = false → exec .unlockInstruction s = .next (settled
      (outOfService { v with debug := .locked } (advancesNow v).length))))) ∧
  (∀ (s : State) (r : Nat), s.debug = .unlocked →
    r = (if setting s 0x200803 / 2 ^ 174 % 2 = 1 then setting s 0x200803 else setting s 0x200803 + 2 ^ 174) →
    exec .lockInstruction s = .next (settled
      (engineResets (raise (setSetting { s with debug := .locked, wrappers := [] } 0x200803 r) 0x06 (BitVec.ofNat 256 r))))) ∧
  (∀ (s t : State) (q : HostReq) (kind n : BitVec 8), t.service = none →
    (OwnerWrites q 0x4110 0x00 4 (kind.toNat + 2 ^ 8 * n.toNat + 2 ^ 16 * 1) s t →
      serviceDefined t kind.toNat n.toNat 1 = true → serviceFits t kind.toNat n.toNat 1 = true →
      exec (.drain q kind n) s = .next (settled (wrote q (startService t kind.toNat n.toNat 1 false)))) ∧
    (OwnerWrites q 0x4110 0x00 4 (kind.toNat + 2 ^ 8 * n.toNat + 2 ^ 16 * 2) s t →
      serviceDefined t kind.toNat n.toNat 2 = true → serviceFits t kind.toNat n.toNat 2 = true →
      exec (.test q kind n) s = .next (settled (wrote q (startService t kind.toNat n.toNat 2 false)))) ∧
    (OwnerWrites q 0x4110 0x00 4 (kind.toNat + 2 ^ 8 * n.toNat + 2 ^ 16 * 3) s t →
      serviceDefined t kind.toNat n.toNat 3 = true → serviceFits t kind.toNat n.toNat 3 = true →
      exec (.return_ q kind n) s = .next (settled (wrote q (startService t kind.toNat n.toNat 3 false)))) ∧
    (OwnerWrites q 0x4110 0x00 4 (kind.toNat + 2 ^ 8 * n.toNat + 2 ^ 16 * 4) s t →
      serviceDefined t kind.toNat n.toNat 4 = true → serviceFits t kind.toNat n.toNat 4 = true →
      exec (.powerOff q kind n) s = .next (settled (wrote q (startService t kind.toNat n.toNat 4 false)))) ∧
    (OwnerWrites q 0x4110 0x00 4 (kind.toNat + 2 ^ 8 * n.toNat + 2 ^ 16 * 5) s t →
      serviceDefined t kind.toNat n.toNat 5 = true → serviceFits t kind.toNat n.toNat 5 = true →
      exec (.powerOn q kind n) s = .next (settled (wrote q (startService t kind.toNat n.toNat 5 false))))) ∧
  (∀ (s t : State) (n action : Nat) (auto : Bool), t = putStep s ⟨1, n, action, 1, auto, 0, 0⟩ 1 →
    (action = 1 → startService s 1 n 1 auto =
      (attached t n).foldl (fun u k => if unitAt u k.1 k.2 = 0 then drainUnit u k.1 k.2 else u) (wakeStation t n)) ∧
    (action = 2 → startService s 1 n 2 auto =
      onStation t n fun st => { clearStation st .reset with isolated := st.isolated }) ∧
    (action = 3 → startService s 1 n 3 auto =
      if t.power.pdReq.contains n then domainStores t n else wantDomain t n) ∧
    (action = 4 → startService s 1 n 4 auto = dropDomain t n) ∧
    (action = 5 → startService s 1 n 5 auto = wantDomain t n)) ∧
  (∀ (s t : State) (kind n action : Nat) (auto : Bool), kind = 2 ∨ kind = 3 ∨ kind = 4 →
    t = putStep s ⟨kind, n, action, 1, auto, 0, 0⟩ 1 →
    (action = 1 → startService s kind n 1 auto = drainUnit t kind n) ∧
    (action = 2 → startService s kind n 2 auto = setUnit t kind n 3) ∧
    (action = 3 → startService s kind n 3 auto = unitReturns t kind n)) ∧
  (∀ (s t : State) (v : Service) (step : Nat), t = putStep s v step →
    t.service = some { v with step := step, due := s.now + setting s 0x411002 } ∧
    setting t 0x411001 = v.kind + 2 ^ 8 * v.number + 2 ^ 16 * v.action + 2 ^ 32 * step) ∧
  (∀ (s : State) (n : Nat),
    (unitAt (drainUnit s 2 n) 2 n = 1) ∧
    (unitAt (drainUnit s 3 n) 3 n = if reportsHeld s n then 1 else 2) ∧
    (unitAt (drainUnit s 4 n) 4 n = 2 ∧ (linkAt (drainUnit s 4 n) n).flitCredit = 0 ∨ (linkAt s n).state = .absent)) ∧
  (∀ (s t : State) (v : Service) (n : Nat) (failing : BitVec 8), s.service = some v → s.power.fcAck = true → v.kind = 1 →
    v.action = 1 → n = v.number →
    (v.step = 1 → t = (attached s n).foldl (fun u k => drainGoes u k.1 k.2) s →
      ((attached t n).all (fun k => unitAt t k.1 k.2 == 2) = true →
        exec (.serviceStepDone failing) s = .next (settled (beginStep t v 2))) ∧
      ((attached t n).all (fun k => unitAt t k.1 k.2 == 2) = false →
        exec (.serviceStepDone failing) s = .next (settled t))) ∧
    (v.step = 2 → (v.roles = 2 → exec (.serviceStepDone failing) s = .next (settled (beginStep s v 3))) ∧
      (v.roles = 1 → exec (.serviceStepDone failing) s = .next (settled s)) ∧
      (v.roles = 0 → exec (.serviceStepDone failing) s = .next (settled (sendRoles s v)))) ∧
    (∀ b, v.step = 3 → tget s.substitute n = some b → t = withdrawAgents s n (entrySlots s n) →
      (agentsQuiet t n (entrySlots s n) = true → nodesFit (moveEntry t n b (entrySlots s n)) b = true →
        exec (.serviceStepDone failing) s = .next (settled
          (servicePump (beginStep (moveEntry t n b (entrySlots s n)) v 4)))) ∧
      (agentsQuiet t n (entrySlots s n) = false ∨ nodesFit (moveEntry t n b (entrySlots s n)) b = false →
        exec (.serviceStepDone failing) s = .next (settled t))) ∧
    (v.step = 4 → stationEmpty (station s n) = true →
      exec (.serviceStepDone failing) s = .next (settled (beginStep s v 5))) ∧
    (v.step = 4 → stationEmpty (station s n) = false →
      exec (.serviceStepDone failing) s = .next (settled (servicePump s))) ∧
    (v.step = 5 → exec (.serviceStepDone failing) s = .next (settled (serviceEnds
      (onStation (wakeStation s n) n fun st => { st with state := .fenced }) v)))) ∧
  (∀ (s : State) (v : Service) (failing : BitVec 8) (r : Nat), s.service = some v → s.power.fcAck = true → v.action = 2 →
    r = v.kind + 2 ^ 8 * v.number + 2 ^ 16 * (if failing.toNat = 0 then 1 else 2) + 2 ^ 24 * failing.toNat →
    (v.kind = 1 → exec (.serviceStepDone failing) s = .next (settled (serviceEnds (setSetting
      (onStation s v.number fun st => { st with state := .fenced }) 0x411400 r) v))) ∧
    (v.kind ≠ 1 → exec (.serviceStepDone failing) s = .next (settled (serviceEnds
      (setSetting (setUnit s v.kind v.number 2) 0x411400 r) v)))) ∧
  (∀ (s t : State) (v : Service) (failing : BitVec 8), s.service = some v → s.power.fcAck = true → v.kind ≠ 1 →
    (v.action = 1 → t = drainGoes s v.kind v.number → exec (.serviceStepDone failing) s = .next (settled
      (if unitAt t v.kind v.number = 2 then serviceEnds t v else t))) ∧
    (v.action = 3 → exec (.serviceStepDone failing) s = .next (settled (serviceEnds s v)))) ∧
  (∀ (s : State) (v : Service), s.service = some v →
    exec .serviceStepTimeout s = .next (settled (serviceFails (passToAc s v.due) v)))

/-- Engine reset, the management controller, power, clock and entropy (R481, R483, R485, R538, R547, R548, R551 to R553, R560,
R561, Tables 14.2, 16.19 and 17.3): each command's effect, and what an engine reset and a loss of power clear and keep of each
kind of state. The model's choices: an absent spare is no station of R561 (log entry 60), what an engine
reset keeps where the spec is silent (log entries 24 and 25), and when the controller's heartbeat counts (log entry 51). -/
def Obligations.EngineAndPower : Prop :=
  (∀ (s t : State) (q : HostReq),
    (OwnerWrites q 0x2E08 0x06 1 0 s t → exec (.reset q) s = .next (settled (wrote q (engineResets t)))) ∧
    (OwnerWrites q 0x2E08 0x06 1 1 s t → t.power.engineOos = true → exec (.clearOos q) s = .next (settled (wrote q
      (engineResets (setSetting { t with power := { t.power with engineOos := false } } 0x2E0805 0))))) ∧
    (OwnerWrites q 0x4120 0x00 1 0 s t → exec (.restart q) s = .next (settled (wrote q (restarts t 2))))) ∧
  (∀ s : State, s.power.phase = 0 → exec .engineReset s = .next (settled (engineResets s))) ∧
  (∀ s t : State, t = engineResets s →
    Cleared t ∧ t.fnDict = [] ∧ (∀ k, keptKey k = false → tget t.dict k = none) ∧ t.coreCmds = [] ∧ t.service = none ∧
    t.substitute = [] ∧ t.maps.partition = [] ∧ t.entropy.needs.contains .tagKey = true ∧
    (∀ p, (partAt s p).state = .frozen → (partAt t p).state = .ready) ∧
    (∀ p, (partAt t p).fault = (partAt s p).fault) ∧
    t.owner = s.owner ∧ t.gelari = s.gelari ∧ t.clock = s.clock ∧ t.debug = s.debug ∧ t.fenced = s.fenced ∧
    ((∀ n, (station s n).rx = []) → t.log = s.log ∧ t.subs = s.subs)) ∧
  (∀ s t : State, t = powerLost s →
    Cleared t ∧ t.dict = [] ∧ t.fnDict = [] ∧ t.owner = Owner.initial ∧ t.log = [] ∧ t.subs = [] ∧ t.partitions = [] ∧
    t.debug = .locked ∧ t.service = none ∧ t.fenced = [] ∧ t.entropy.needs = [] ∧ t.maps = s.gelari.maps ∧
    t.gelari = s.gelari ∧ t.power.phase = 1 ∧ t.power.present = false ∧ t.outputs = s.outputs ∧ t.pending = s.pending) ∧
  (∀ s t u : State, s.power.phase ≠ 1 → t = passToAc s s.watchdogDue →
    u = bump { restarts t 1 with watchdogDue := t.now + setting t 0x2E0101 } 0x2E0102 →
    exec .mcWatchdogExpiry s = .next (settled (advanceCount (raise u 0x08 (generic (setting u 0x2E0102) 0 0 0 0))))) ∧
  (∀ (s t u : State) (why since : Nat), s.restarting = some (why, since) →
    exec .mcResumed s = .next (settled (raise (releaseAnswers { extendLease s (s.now - since) with
      restarting := none, watchdogDue := s.now + setting s 0x2E0101 }) 0x76 (generic why 0 0 0 0))) ∧
    (t = passToAc s (since + setting s 0x412001) →
      u = bump { restarts t 1 with watchdogDue := t.now + setting t 0x2E0101 } 0x2E0102 →
      exec .mcRestartTimeout s = .next (settled (advanceCount (raise u 0x08 (generic (setting u 0x2E0102) 0 0 0 0)))))) ∧
  (∀ s : State,
    (s.power.phase = 1 → exec .aonResetRelease s = .next (settled (powerUp (wantEntropy { s with
      clock := ⟨0, 0, 0, s.clock.khz⟩
      power := { s.power with phase := 2, aonRstN := true, fcReq := true, pdReq := gridStations s } } .uuid)))) ∧
    (s.power.phase ≠ 1 → exec .aonReset s = .next (settled (powerLost s))) ∧
    exec .clamp s = .next (settled { s with
      power := { s.power with clamp := true, present := false, fcReq := false, pdReq := [] }
      entropy := { s.entropy with req := false }
      partitions := s.partitions.map fun p => (p.1, { p.2 with req := false })
      transport := { s.transport with ibiReq := false, ibiMdb := 0 }
      stations := s.stations.map fun p => (p.1, { p.2 with hint := { p.2.hint with level := false } }) }) ∧
    exec .clampRelease s = .next (settled (powerUp { s with
      power := { s.power with clamp := false }
      entropy := { s.entropy with
        req := s.entropy.req || (!s.entropy.needs.isEmpty && decide (s.entropy.retryAt ≤ s.now)) } })) ∧
    (∀ u, s.power.phase = 0 → s.power.fcAck = false → s.power.fcReq = true →
      u = engineResets { s with power := { s.power with fcAck := true } } →
      (portsLive u = true → exec .fcAckRise s = .next (settled (driveWaiting u))) ∧
      (portsLive u = false → exec .fcAckRise s = .next (settled u))) ∧
    (s.power.phase = 2 → s.power.fcAck = false → exec .fcAckRise s = .next (settled
      (powerUp { s with power := { s.power with fcAck := true } }))) ∧
    (s.power.fcAck = true → s.power.fcReq = false → exec .fcClockLost s = .next (settled
      { s with power := { s.power with fcAck := false } }))) ∧
  (∀ s t u v : State, s.power.fcAck = true → s.power.fcReq = true → t = { s with power := { s.power with fcAck := false } } →
    u = bump (bumpBy t 0x210406 (dozingFc t)) 0x400102 → v = raise u 0x68 (generic (setting u 0x400102) 0 0 0 0) →
    exec .fcClockLost s = .next (settled { v with stations := v.stations.map fun p =>
      (p.1, if p.2.state = .absent then p.2 else { p.2 with state := .reset }) })) ∧
  (∀ (s t : State) (n : Nat),
    (s.power.pdAck.contains n = false → s.power.pdReq.contains n = true → s.power.phase = 0 →
      s.power.resetting = true ∨ s.power.fcAck = false →
      t = bump { s with power := { s.power with
        pdAck := s.power.pdAck ++ [n], pdDue := tdel s.power.pdDue n } } 0x400202 →
      exec (.pdAck n true) s = .next (settled (onStation t n fun st =>
        { clearStation st .reset with isolated := !s.power.fcAck }))) ∧
    (s.power.pdAck.contains n = false → s.power.pdReq.contains n = true → s.power.phase ≠ 0 →
      exec (.pdAck n true) s = .next (settled (powerUp { s with power := { s.power with
        pdAck := s.power.pdAck ++ [n], pdDue := tdel s.power.pdDue n } }))) ∧
    (s.power.pdAck.contains n = false → s.power.pdReq.contains n = true → s.power.phase = 0 → s.power.resetting = false →
      s.power.fcAck = true →
      t = bump { s with power := { s.power with
        pdAck := s.power.pdAck ++ [n], pdDue := tdel s.power.pdDue n } } 0x400202 →
      exec (.pdAck n true) s = .next (settled (domainStores t n))) ∧
    (s.power.pdAck.contains n = true → s.power.pdReq.contains n = false → (tget s.power.pdDue n).isSome = true →
      t = { s with power := { s.power with
        pdAck := s.power.pdAck.filter (· != n), pdDue := tdel s.power.pdDue n } } →
      exec (.pdAck n false) s = .next (settled (onStation (hostedFalls t n) n fun st => { Station.empty .off with
        rspQueue := st.rspQueue, rspCredit := st.rspCredit, pushCredit := st.pushCredit, isolated := true }))) ∧
    (s.power.pdAck.contains n = true → s.power.pdReq.contains n = false → tget s.power.pdDue n = none →
      exec (.pdAck n false) s = .next (settled { s with power := { s.power with
        pdAck := s.power.pdAck.filter (· != n), pdDue := tdel s.power.pdDue n } })) ∧
    (handshakeOpen s n = true → t = domainTimesOut s n → t.service = none →
      exec (.pdAckTimeout n) s = .next (settled t))) ∧
  (∀ (s t : State) (need : Need) (more : List Need) (w : Word), s.entropy.needs = need :: more → s.entropy.req = true →
    (s.entropy.words.length + 1 < need.words → exec (.entropyWord w) s = .next (settled
      { s with entropy := { s.entropy with words := s.entropy.words ++ [w] } })) ∧
    (∀ f, need.words ≤ s.entropy.words.length + 1 → need = .fnKey f → exec (.entropyWord w) s = .next (settled
      (fnRequestsGo ((nextNeed s).fnQueue.length + 1)
        (enableEnds (nextNeed s) f (BitVec.ofNat 256 (wordsNat (s.entropy.words ++ [w]))))))) ∧
    (t = bump { s with entropy := { s.entropy with
        words := [], req := false, fails := s.entropy.fails + 1, retryAt := s.now + setting s 0x2F0501 } } 0x2F0503 →
      (s.entropy.fails + 1 ≠ setting t 0x2F0502 → exec .entropyError s = .next (settled t)) ∧
      (s.entropy.fails + 1 = setting t 0x2F0502 → exec .entropyError s = .next (settled
        (raise t 0x61 (generic (s.entropy.fails + 1) 0 0 0 0))))) ∧
    (need.words ≤ s.entropy.words.length + 1 → need = .uuid → exec (.entropyWord w) s = .next (settled
      (setSetting (nextNeed s) 0x200301 (uuidOf (s.entropy.words ++ [w]))))) ∧
    (need.words ≤ s.entropy.words.length + 1 → need = .tagKey → exec (.entropyWord w) s = .next (settled
      (unlockEnds { nextNeed s with tagKey := BitVec.ofNat 128 (wordsNat (s.entropy.words ++ [w])) })))) ∧
  (∀ s t : State, s.entropy.req = false → s.entropy.needs ≠ [] → t = passToAc s s.entropy.retryAt →
    exec .entropyRetry s = .next (settled { t with entropy := { t.entropy with req := true } }))

/-- Stations that doze, and upkeep (R519 to R526, R549, R553, R584 to R589, R608): a station without work dozes after its
time, wakes for work, and the towpath answers the requests that its hold kept too long; findings of a scrub, replays of a
course link, the calibration of the fast clock, channel credits and occupancy samples. The model's choices: which requests are
of one flit's replays (log entry 46), which row holds what (log entry 38), and how a row that is rewritten takes what is on
its way (log entry 82). -/
def Obligations.Upkeep : Prop :=
  (∀ (s t : State) (n : Nat), (station s n).state = .active → setting s 0x210401 ≠ 0 → hasWork s n = false →
    towpathActs s n = false → t = passFc (passToFc s ((station s n).idleSince + setting s 0x210402)) 8 →
    exec (.dozeEntry n) s = .next (settled (onStation t n fun x => { x with state := .dozing, idleSince := t.clock.fc }))) ∧
  (∀ (s : State) (n : Nat), (station s n).state = .dozing → hasWork s n = true →
    exec (.stationWake n) s = .next (settled (wakeStation (passFc s (setting s 0x210403)) n))) ∧
  (∀ (s : State) (n : Nat), (station s n).state = .dozing → (station s n).rx ≠ [] → (station s n).holdPassed = false →
    exec (.towpathHoldExpiry n) s = .next (settled (onStation
      ((station s n).rx.foldl towpathTakes (passToFc s (station s n).holdUntil)) n
      fun x => { x with rx := [], holdPassed := true }))) ∧
  (∀ (s t u : State) (n : Nat), (station s n).state = .dozing → (station s n).rx ≠ [] → (station s n).holdPassed = true →
    t = bump (onStation ((station s n).rx.foldl towpathTakes (passToFc s (station s n).holdUntil)) n
      fun x => { x with rx := [], holdPassed := true }) 0x210404 →
    u = raise t 0x6A (generic (setting t 0x210404) 0 0 0 n) →
    exec (.towpathHoldExpiry n) s = .next (settled
      { u with drainsOwed := if u.drainsOwed.contains n then u.drainsOwed else u.drainsOwed ++ [n] })) ∧
  (∀ s : State, s.service = none → s.drainsOwed.filter (fun n => serving (station s n)) = s.drainsOwed →
    (∀ n, s.drainsOwed.find? (fun n => serviceFits s 1 n 1) = some n →
      startOwed s = startService { s with drainsOwed := s.drainsOwed.filter (· != n) } 1 n 1 true) ∧
    (s.drainsOwed.find? (fun n => serviceFits s 1 n 1) = none → startOwed s = s)) ∧
  (∀ (s : State) (unit : Nat) (found : List RowFinding), unitClocked s unit = true →
    exec (.scrubBurst unit found) s = .next (settled ((found.filter (heeded s unit)).foldl foundRow (burstWakes s unit)))) ∧
  (∀ (s : State) (f : RowFinding), f.source = .scrub →
    (f.corrected = true → foundRow s f = countCorrected s (if f.unit = 127 then 4 else 1)) ∧
    (∀ i o, f.corrected = false → f.attributionBad = false → f.store = 1 → f.unit < 66 →
      (station s f.unit).objects[f.row]? = some (i, o) →
      foundRow s f = failHi (report s (some o.hi) 0 f.unit 1 f.row 1) f.unit o.hi) ∧
    (f.corrected = false → f.attributionBad = true →
      foundRow s f = engineResets (report s none 0 (unitStation s f.unit) 13 f.row 7))) ∧
  (∀ (s : State) (kind : Nat), 1 ≤ kind → kind ≤ 4 →
    setting (countCorrected s kind) (0x410200 + kind) = setting (bump s (0x410200 + kind)) (0x410200 + kind)) ∧
  (∀ (s : State) (home index : Nat) (o : Obj), objAt s home index = some o → o.failed = false →
    ∃ p, objAt (failObj s home index) home index = some p ∧ p.failed = true ∧ p.hi = o.hi ∧ p.watches = [] ∧
      ∀ n x, nodeAt (failObj s home index) n (hiIndex o.hi) = some x → x.hi = o.hi → x.failed = true) ∧
  (∀ (s t : State) (n link m : Nat), (tget s.stations n).isSome = true → link < 4 →
    m = (if s.clock.fc ≤ (tgetD s.replays (4 * n + link) (0, 0)).2 + 2 * (s.gelari.stages + 1) + 16
      then (tgetD s.replays (4 * n + link) (0, 0)).1 + 1 else 1) →
    t = { s with replays := tput s.replays (4 * n + link) (m, s.clock.fc) } →
    (m ≤ setting t 0x410302 → exec (.courseReplay n link) s = .next (settled (bump t 0x410301))) ∧
    (setting t 0x410302 < m → exec (.courseReplay n link) s = .next (settled
      (engineResets (raise t 0x72 (generic link 0 0 0 n)))))) ∧
  (∀ (s t : State) (khz : BitVec 32), s.power.phase ≠ 1 →
    t = setSetting (passToAc (runsAt s khz.toNat) ((s.now / 25000 + 1) * 25000)) 0x413001 khz.toNat →
    (1000 * (max khz.toNat t.gelari.fastKhz - min khz.toNat t.gelari.fastKhz) ≤ setting t 0x413002 * t.gelari.fastKhz →
      exec (.calibrationWindow khz) s = .next (settled { t with driftAge := t.driftAge - 1 })) ∧
    (setting t 0x413002 * t.gelari.fastKhz < 1000 * (max khz.toNat t.gelari.fastKhz - min khz.toNat t.gelari.fastKhz) →
      t.power.fcAck = true → t.driftAge = 0 →
      exec (.calibrationWindow khz) s = .next (settled
        (raise { t with driftAge := 999 } 0x77 (generic khz.toNat 0 0 0 0)))) ∧
    (s.power.fcAck = true → 400000 ≤ khz.toNat → khz.toNat ≤ 2000000 → (runsAt s khz.toNat).clock.khz = khz.toNat)) ∧
  (∀ (s : State) (n : Nat) (lane : Nat), portsLive s = true → (station s n).state ≠ .absent →
    exec (.channelCreditReturn (.xpPush n lane)) s = .next (settled
      (onStation s n fun st => { st with pushCredit := laneGain st.pushCredit lane })) ∧
    exec (.channelCreditReturn (.xpResponse n lane)) s = .next (settled
      (driveRsp (onStation s n fun st => { st with rspCredit := laneGain st.rspCredit lane }) n
        (station (onStation s n fun st => { st with rspCredit := laneGain st.rspCredit lane }) n).rspQueue.length))) ∧
  (∀ (s : State) (j : Nat), portsLive s = true →
    exec (.channelCreditReturn (.xiRequest j)) s = .next (settled
      (initiatorGains s j fun x => { x with reqCredit := x.reqCredit + 1 })) ∧
    exec (.channelCreditReturn (.xiWrite j)) s = .next (settled
      (initiatorGains s j fun x => { x with wrCredit := x.wrCredit + 1 })) ∧
    exec (.channelCreditReturn (.kpTransmit j)) s = .next (settled (flitCreditReturns s j))) ∧
  (∀ s t : State, portsLive s = true → t = passToFc s ((s.clock.fc / 1024 + 1) * 1024) →
    exec .occupancySample s = .next (settled
      (t.slices.foldl (fun u p => sampleBin u 3 (16 * p.2.tags.length / max 1 (poolSize t))) t)))

/-! ## The whole machine -/

/-- Every command in every state is followed by a next state, by no fault and no refusal. A step takes the command at the
front of the queue, and is that command on the state with the queue's rest. With no
command waiting the clocks tick (the model's choice, log entry 4): without the fast-clock ports an ac passes; with them an fc, in
which every station takes one operation of each path (R77): the first of the budget queue that waits for none in the excess
buffer, and one of the excess buffer only where the budget queue holds none of the path. -/
def Obligations.StepTakesFront : Prop :=
  (∀ (i : Instr) (s : State), SafeStep i s) ∧
  (∀ (c : Instr) (rest : List Instr) (s : State), step { s with pending := c :: rest } = exec c { s with pending := rest }) ∧
  (∀ s : State, s.pending = [] →
    (portsLive s = false → step s = .next (settled { s with clock := { s.clock with ac := s.clock.ac + 1 } })) ∧
    (portsLive s = true → step s = .next (settled
      (s.stations.foldl (fun t p => takeNext (takeNext t p.1 false) p.1 true) (passFc s 1))))) ∧
  (∀ (s : State) (n : Nat) (path : Bool), (station s n).state = .active → towpathActs s n = false →
    (∀ (x : Adm) (before after : List (Nat × Adm)), (station s n).budget = before ++ (0, x) :: after →
      remotePath s x = path → (∀ e ∈ before, e.1 ≠ 0 ∨ remotePath s e.2 ≠ path) →
      takeNext s n path = takeWaiting (onStation s n fun st => { st with
        budget := before ++ after, idleSince := s.clock.fc }) x) ∧
    (∀ (x : Adm) (before after : List Adm), (station s n).excess = before ++ x :: after → remotePath s x = path →
      (∀ e ∈ before, remotePath s e ≠ path) → (∀ b ∈ (station s n).budget, remotePath s b.2 ≠ path) →
      takeNext s n path = takeWaiting (onStation s n fun st => { st with
        excess := before ++ after, idleSince := s.clock.fc
        budget := st.budget.map fun b => if sameTrain b.2 x then (b.1 - 1, b.2) else b }) x))

/-- The state after reset has the invariant. -/
def Obligations.ResetHasInvariant : Prop := StepInv State.reset

/-- Every step keeps the invariant: a loss that is not reported waits only while the log has no room (R508), every bridge that
is on has a live queue of an ENABLED function (R440), and an engine reset lasts only while something that it waits for is
missing (R482). The operations that change a queue's cursors, a station's objects and waiter records, an object's eddies and a
link's held caravans keep within their bounds: rel ≤ read ≤ push with the toll within the capacity (R251, R252), at most 512
objects (R23), at most 2048 waiter records (R145), an object's own number of eddies (R144), and 256 held caravans (R425). -/
def Obligations.StepsKeepInvariant : Prop :=
  (∀ s t : State, StepInv s → step s = .next t → StepInv t) ∧
  (∀ (q : Queue) (stop : Bool) (m : Nat), CursorsOrdered q → CursorsOrdered (q.give stop m).2.2) ∧
  (∀ (s : State) (home fuel : Nat) (hi : BitVec 40) (q : Queue) (l : List Token),
    CursorsOrdered { q with push := q.push + l.length } → q.read ≤ q.push →
    CursorsOrdered (writeTail home hi fuel s q l).2.1 ∧
    (writeTail home hi fuel s q l).2.1.push + (writeTail home hi fuel s q l).2.2.length = q.push + l.length) ∧
  (∀ (s t : State) (home fn cls : Nat) (b : Body) (o : Obj), newObj s home fn cls b = some (o, t) →
    (station t home).objects.length ≤ 512) ∧
  (∀ (es fs : List Eddy) (most ref r : Nat) (acquire : Bool) (n : Word) (m : Nat × Nat),
    joinEddies es most ref acquire n m = some (fs, r) → es.length ≤ most → fs.length ≤ most) ∧
  (∀ (s : State) (n f k : Nat), recordsFree s n f k = true → recordsUsed (station s n) + k ≤ 2048) ∧
  (∀ (l : Link) (c : Flit × List Flit) (rest : List (Flit × List Flit)), l.turn = .control c rest →
    numbered (headKind c.1) = true → l.held.length < 256) ∧
  (∀ (l : Link) (weir : Bool), l.turn = .unit weir → l.held.length < 256)

/-- A state in which nothing is left to do is settled: the statements above then give every command's whole effect. -/
def Obligations.QuietStatesSettle : Prop := ∀ s : State, Quiet s → settled s = s

/-- The result of an epoch does not depend on the order in which its contributions merge (R198, R202, R203): two orders of the
same contributions, each participant once, give the same result and the same count. -/
def Obligations.OrderOfMerging : Prop :=
  ∀ (p : WeirParams) (n seed index epoch : Nat) (a b : MergeTree), redOk p n = true → p.redOp ≠ 0 →
    a.leaves.Perm b.leaves → (a.leaves.map (·.2)).Nodup →
    finishPartial p (a.partial_ p.redOp p.inFormat) seed index epoch =
      finishPartial p (b.partial_ p.redOp p.inFormat) seed index epoch

/-- A partial that is sent to a parent in segments of 64 bytes arrives as it left (R194, R195, R201): its result is the same,
for every order of at most 16384 contributions. -/
def Obligations.SegmentsCarryPartials : Prop :=
  ∀ (p : WeirParams) (n seed index epoch : Nat) (a : MergeTree), redOk p n = true → p.redOp ≠ 0 → p.inFormat ≤ 7 →
    a.leaves.length ≤ 16384 → (∀ x ∈ a.leaves, x.2 < 16384) →
    finishPartial p (ofSegments p.redOp p.inFormat (segmentsOf p.redOp p.inFormat (a.partial_ p.redOp p.inFormat)))
        seed index epoch =
      finishPartial p (a.partial_ p.redOp p.inFormat) seed index epoch
end

