-- ==== Sys2Proof/Laws/Caravans.lean ====
section
/-!
SUPPORT. What a caravan does, said once: one of a control kind that its port accepts has its effect, and one of another kind
that is for this chip has it once its place has returned its credit.
-/

namespace Sys2Proof.Machine

/-- A credit that returns is no function's business. -/
@[simp] theorem returnCredit_fns (s : State) (p w o k : Nat) : (returnCredit s p w o k).fns = s.fns := by
  unfold returnCredit; split <;> rfl

/-- The credits that a unit's places return leave the functions as they are. -/
@[simp] theorem returnUnit_fns (s : State) (p : Nat) (u : CaravanOut) : (returnUnit s p u).fns = s.fns := by
  unfold returnUnit; split
  · split <;> exact returnCredit_fns ..
  · rfl

/-- A control caravan that comes in. -/
theorem caravanPresented_control (c : CaravanIn) (k : Nat) (s : State) (f : State → State) (h : ComesIn c k s)
    (hk : kindClass k = some .control) : caravanPresented s c k f = f (cameIn s c) := by
  obtain ⟨h1, h2, h3, h4, h5⟩ := h
  have e1 : (linkAt s c.port).state ≠ .absent := by rw [h2]; decide
  have e2 : (linkAt (caravanCounted s c) c.port).state ≠ .absent := by rw [h4]; decide
  simp [caravanPresented, h1, e1, h3, onCaravan, e2, h5, hk, cameIn]

/-- A caravan that is served here. -/
theorem caravanPresented_served (c : CaravanIn) (k : Nat) (s t : State) (f : State → State) (h : ServedHere c k s t)
    (hk : kindClass k = some .weir ∨ kindClass k = some .op) : caravanPresented s c k f = f t := by
  obtain ⟨⟨h1, h2, h3, h4, h5⟩, h6, h7, h8⟩ := h
  have e1 : (linkAt s c.port).state ≠ .absent := by rw [h2]; decide
  have e2 : (linkAt (caravanCounted s c) c.port).state ≠ .absent := by rw [h4]; decide
  subst h7
  unfold cameIn at h6 h8 ⊢
  have h8' : (fnOf (acceptCaravan (caravanCounted s c) c) (headFn c.head)).state = .enabled := by
    rw [← h8]; simp only [fnOf, returnUnit_fns]
  rcases hk with hk | hk <;>
    simp [caravanPresented, h1, e1, h3, onCaravan, e2, h5, hk, routeUnit, h6, serveHere, h8']

end Sys2Proof.Machine
end

