-- ==== Sys2Proof/Laws/Table.lean ====
section
/-!
SUPPORT. The laws of tables: a read after a write at the same key gives the value written, every other key is left
alone, and the keys keep rising.
-/

namespace Sys2Proof.Machine

/-- A read after a write at the same key. -/
@[simp] theorem tget_tput_same {α : Type} (t : Table α) (k : Nat) (v : α) : tget (tput t k v) k = some v := by
  induction t with
  | nil => simp [tput, tget]
  | cons p t ih =>
    obtain ⟨j, w⟩ := p
    simp only [tput]
    split
    · simp [tget]
    · split
      · simp [tget]
      · rename_i h1 h2
        simp [tget, Ne.symm h2, ih]

/-- A write leaves every other key alone. -/
theorem tget_tput_other {α : Type} (t : Table α) (k k' : Nat) (v : α) (h : k' ≠ k) : tget (tput t k v) k' = tget t k' := by
  induction t with
  | nil => simp [tput, tget, Ne.symm h]
  | cons p t ih =>
    obtain ⟨j, w⟩ := p
    simp only [tput]
    split
    · simp [tget, Ne.symm h]
    · split
      · rename_i h1 h2
        subst h2
        simp [tget, Ne.symm h]
      · simp only [tget, ih]

/-- The same, in one equation. -/
theorem tget_tput {α : Type} (t : Table α) (k k' : Nat) (v : α) :
    tget (tput t k v) k' = if k' = k then some v else tget t k' := by
  split
  · subst_vars; simp
  · rename_i h; exact tget_tput_other t k k' v h

/-- A deleted key is absent. -/
@[simp] theorem tget_tdel_same {α : Type} (t : Table α) (k : Nat) : tget (tdel t k) k = none := by
  induction t with
  | nil => simp [tdel, tget]
  | cons p t ih =>
    obtain ⟨j, w⟩ := p
    simp only [tdel]
    split
    · exact ih
    · rename_i h; simp [tget, h, ih]

/-- A deletion leaves every other key alone. -/
theorem tget_tdel_other {α : Type} (t : Table α) (k k' : Nat) (h : k' ≠ k) : tget (tdel t k) k' = tget t k' := by
  induction t with
  | nil => simp [tdel, tget]
  | cons p t ih =>
    obtain ⟨j, w⟩ := p
    simp only [tdel]
    split
    · rename_i h1; subst h1; simp [tget, Ne.symm h, ih]
    · simp only [tget, ih]

/-- A value that is present is an element. -/
theorem mem_of_tget {α : Type} (t : Table α) (k : Nat) (v : α) (h : tget t k = some v) : (k, v) ∈ t := by
  induction t with
  | nil => simp [tget] at h
  | cons p t ih =>
    obtain ⟨j, w⟩ := p
    simp only [tget] at h
    split at h
    · rename_i h1; subst h1; simp_all
    · exact List.mem_cons_of_mem _ (ih h)

/-- The first key of a table whose keys rise is the least. -/
theorem rising_cons {α : Type} (j : Nat) (w : α) (t : Table α) :
    rising ((j, w) :: t) = true ↔ (∀ p ∈ t, j < p.1) ∧ rising t = true := by
  induction t generalizing j w with
  | nil => simp [rising]
  | cons p t ih =>
    obtain ⟨k, x⟩ := p
    simp only [rising, Bool.and_eq_true, decide_eq_true_eq]
    constructor
    · rintro ⟨h1, h2⟩
      refine ⟨fun p hp => ?_, h2⟩
      rcases List.mem_cons.1 hp with rfl | hp
      · exact h1
      · exact Nat.lt_trans h1 (((ih k x).1 h2).1 p hp)
    · rintro ⟨h1, h2⟩
      exact ⟨h1 (k, x) (by simp), h2⟩

/-- A key of a table after a write is the key written, or was there. -/
theorem mem_tput {α : Type} (t : Table α) (k : Nat) (v : α) (p : Nat × α) (h : p ∈ tput t k v) : p.1 = k ∨ p ∈ t := by
  induction t with
  | nil => simp [tput] at h; simp [h]
  | cons q t ih =>
    obtain ⟨j, w⟩ := q
    simp only [tput] at h
    split at h
    · rcases List.mem_cons.1 h with rfl | h
      · simp
      · exact .inr h
    · split at h
      · rcases List.mem_cons.1 h with rfl | h
        · simp
        · exact .inr (List.mem_cons_of_mem _ h)
      · rcases List.mem_cons.1 h with rfl | h
        · exact .inr (by simp)
        · exact (ih h).imp_right (List.mem_cons_of_mem _)

/-- A write keeps the keys rising. -/
theorem rising_tput {α : Type} (t : Table α) (k : Nat) (v : α) (h : rising t = true) : rising (tput t k v) = true := by
  induction t with
  | nil => rfl
  | cons q t ih =>
    obtain ⟨j, w⟩ := q
    obtain ⟨h1, h2⟩ := (rising_cons j w t).1 h
    simp only [tput]
    split
    · rename_i hk
      refine (rising_cons ..).2 ⟨fun p hp => ?_, h⟩
      rcases List.mem_cons.1 hp with rfl | hp
      · exact hk
      · exact Nat.lt_trans hk (h1 p hp)
    · split
      · rename_i hk; subst hk
        exact (rising_cons ..).2 ⟨h1, h2⟩
      · refine (rising_cons ..).2 ⟨fun p hp => ?_, ih h2⟩
        rcases mem_tput t k v p hp with hp | hp
        · omega
        · exact h1 p hp

/-- A key of a table after a deletion was there. -/
theorem mem_tdel {α : Type} (t : Table α) (k : Nat) (p : Nat × α) (h : p ∈ tdel t k) : p ∈ t := by
  induction t with
  | nil => simp [tdel] at h
  | cons q t ih =>
    obtain ⟨j, w⟩ := q
    simp only [tdel] at h
    split at h
    · exact List.mem_cons_of_mem _ (ih h)
    · rcases List.mem_cons.1 h with rfl | h
      · simp
      · exact List.mem_cons_of_mem _ (ih h)

/-- A deletion keeps the keys rising. -/
theorem rising_tdel {α : Type} (t : Table α) (k : Nat) (h : rising t = true) : rising (tdel t k) = true := by
  induction t with
  | nil => rfl
  | cons q t ih =>
    obtain ⟨j, w⟩ := q
    obtain ⟨h1, h2⟩ := (rising_cons j w t).1 h
    simp only [tdel]
    split
    · exact ih h2
    · exact (rising_cons ..).2 ⟨fun p hp => h1 p (mem_tdel t k p hp), ih h2⟩

end Sys2Proof.Machine
end

