-- ==== Sys2Proof/Laws/State.lean ====
section
/-!
SUPPORT. What each basic update of the state leaves alone: every field but its own.
-/

namespace Sys2Proof.Machine

/-- A dictionary value is all that `setSetting` changes. -/
@[simp] theorem setSetting_others (s : State) (k v : Nat) :
    (setSetting s k v).pending = s.pending ∧ (setSetting s k v).outputs = s.outputs ∧
    (setSetting s k v).gelari = s.gelari ∧ (setSetting s k v).maps = s.maps ∧ (setSetting s k v).clock = s.clock ∧
    (setSetting s k v).fnDict = s.fnDict ∧ (setSetting s k v).routes = s.routes ∧ (setSetting s k v).fns = s.fns ∧
    (setSetting s k v).tagKey = s.tagKey ∧ (setSetting s k v).stations = s.stations ∧
    (setSetting s k v).course = s.course ∧ (setSetting s k v).fnQueue = s.fnQueue ∧
    (setSetting s k v).linkWork = s.linkWork ∧ (setSetting s k v).shadowDue = s.shadowDue ∧
    (setSetting s k v).keepers = s.keepers ∧ (setSetting s k v).indexGen = s.indexGen ∧
    (setSetting s k v).words = s.words ∧ (setSetting s k v).journal = s.journal ∧
    (setSetting s k v).slices = s.slices ∧ (setSetting s k v).xi = s.xi ∧ (setSetting s k v).seals = s.seals ∧
    (setSetting s k v).links = s.links ∧ (setSetting s k v).bridges = s.bridges ∧
    (setSetting s k v).partitions = s.partitions ∧ (setSetting s k v).fenced = s.fenced ∧
    (setSetting s k v).moved = s.moved ∧ (setSetting s k v).coreCmds = s.coreCmds ∧
    (setSetting s k v).advances = s.advances ∧ (setSetting s k v).owner = s.owner ∧ (setSetting s k v).log = s.log ∧
    (setSetting s k v).lossOpen = s.lossOpen ∧ (setSetting s k v).subs = s.subs ∧
    (setSetting s k v).transport = s.transport ∧ (setSetting s k v).window = s.window ∧
    (setSetting s k v).entropy = s.entropy ∧ (setSetting s k v).debug = s.debug ∧
    (setSetting s k v).service = s.service ∧ (setSetting s k v).substitute = s.substitute ∧
    (setSetting s k v).unitState = s.unitState ∧ (setSetting s k v).restarting = s.restarting ∧
    (setSetting s k v).watchdogDue = s.watchdogDue ∧ (setSetting s k v).drainsOwed = s.drainsOwed ∧
    (setSetting s k v).wrappers = s.wrappers ∧ (setSetting s k v).bins = s.bins ∧
    (setSetting s k v).replays = s.replays ∧ (setSetting s k v).driftAge = s.driftAge ∧
    (setSetting s k v).power = s.power :=
  by and_intros <;> rfl

/-- A function's value is all that `setFnSetting` changes. -/
@[simp] theorem setFnSetting_others (s : State) (f sub v : Nat) :
    (setFnSetting s f sub v).pending = s.pending ∧ (setFnSetting s f sub v).outputs = s.outputs ∧
    (setFnSetting s f sub v).gelari = s.gelari ∧ (setFnSetting s f sub v).maps = s.maps ∧
    (setFnSetting s f sub v).clock = s.clock ∧ (setFnSetting s f sub v).dict = s.dict ∧
    (setFnSetting s f sub v).routes = s.routes ∧ (setFnSetting s f sub v).fns = s.fns ∧
    (setFnSetting s f sub v).tagKey = s.tagKey ∧ (setFnSetting s f sub v).stations = s.stations ∧
    (setFnSetting s f sub v).course = s.course ∧ (setFnSetting s f sub v).fnQueue = s.fnQueue ∧
    (setFnSetting s f sub v).linkWork = s.linkWork ∧ (setFnSetting s f sub v).shadowDue = s.shadowDue ∧
    (setFnSetting s f sub v).keepers = s.keepers ∧ (setFnSetting s f sub v).indexGen = s.indexGen ∧
    (setFnSetting s f sub v).words = s.words ∧ (setFnSetting s f sub v).journal = s.journal ∧
    (setFnSetting s f sub v).slices = s.slices ∧ (setFnSetting s f sub v).xi = s.xi ∧
    (setFnSetting s f sub v).seals = s.seals ∧ (setFnSetting s f sub v).links = s.links ∧
    (setFnSetting s f sub v).bridges = s.bridges ∧ (setFnSetting s f sub v).partitions = s.partitions ∧
    (setFnSetting s f sub v).fenced = s.fenced ∧ (setFnSetting s f sub v).moved = s.moved ∧
    (setFnSetting s f sub v).coreCmds = s.coreCmds ∧ (setFnSetting s f sub v).advances = s.advances ∧
    (setFnSetting s f sub v).owner = s.owner ∧ (setFnSetting s f sub v).log = s.log ∧
    (setFnSetting s f sub v).lossOpen = s.lossOpen ∧ (setFnSetting s f sub v).subs = s.subs ∧
    (setFnSetting s f sub v).transport = s.transport ∧ (setFnSetting s f sub v).window = s.window ∧
    (setFnSetting s f sub v).entropy = s.entropy ∧ (setFnSetting s f sub v).debug = s.debug ∧
    (setFnSetting s f sub v).service = s.service ∧ (setFnSetting s f sub v).substitute = s.substitute ∧
    (setFnSetting s f sub v).unitState = s.unitState ∧ (setFnSetting s f sub v).restarting = s.restarting ∧
    (setFnSetting s f sub v).watchdogDue = s.watchdogDue ∧ (setFnSetting s f sub v).drainsOwed = s.drainsOwed ∧
    (setFnSetting s f sub v).wrappers = s.wrappers ∧ (setFnSetting s f sub v).bins = s.bins ∧
    (setFnSetting s f sub v).replays = s.replays ∧ (setFnSetting s f sub v).driftAge = s.driftAge ∧
    (setFnSetting s f sub v).power = s.power :=
  by and_intros <;> rfl

/-- A function is all that `setFn` changes. -/
@[simp] theorem setFn_others (s : State) (f : Nat) (x : Fn) :
    (setFn s f x).pending = s.pending ∧ (setFn s f x).outputs = s.outputs ∧ (setFn s f x).gelari = s.gelari ∧
    (setFn s f x).maps = s.maps ∧ (setFn s f x).clock = s.clock ∧ (setFn s f x).dict = s.dict ∧
    (setFn s f x).fnDict = s.fnDict ∧ (setFn s f x).routes = s.routes ∧ (setFn s f x).tagKey = s.tagKey ∧
    (setFn s f x).stations = s.stations ∧ (setFn s f x).course = s.course ∧ (setFn s f x).fnQueue = s.fnQueue ∧
    (setFn s f x).linkWork = s.linkWork ∧ (setFn s f x).shadowDue = s.shadowDue ∧ (setFn s f x).keepers = s.keepers ∧
    (setFn s f x).indexGen = s.indexGen ∧ (setFn s f x).words = s.words ∧ (setFn s f x).journal = s.journal ∧
    (setFn s f x).slices = s.slices ∧ (setFn s f x).xi = s.xi ∧ (setFn s f x).seals = s.seals ∧
    (setFn s f x).links = s.links ∧ (setFn s f x).bridges = s.bridges ∧ (setFn s f x).partitions = s.partitions ∧
    (setFn s f x).fenced = s.fenced ∧ (setFn s f x).moved = s.moved ∧ (setFn s f x).coreCmds = s.coreCmds ∧
    (setFn s f x).advances = s.advances ∧ (setFn s f x).owner = s.owner ∧ (setFn s f x).log = s.log ∧
    (setFn s f x).lossOpen = s.lossOpen ∧ (setFn s f x).subs = s.subs ∧ (setFn s f x).transport = s.transport ∧
    (setFn s f x).window = s.window ∧ (setFn s f x).entropy = s.entropy ∧ (setFn s f x).debug = s.debug ∧
    (setFn s f x).service = s.service ∧ (setFn s f x).substitute = s.substitute ∧
    (setFn s f x).unitState = s.unitState ∧ (setFn s f x).restarting = s.restarting ∧
    (setFn s f x).watchdogDue = s.watchdogDue ∧ (setFn s f x).drainsOwed = s.drainsOwed ∧
    (setFn s f x).wrappers = s.wrappers ∧ (setFn s f x).bins = s.bins ∧ (setFn s f x).replays = s.replays ∧
    (setFn s f x).driftAge = s.driftAge ∧ (setFn s f x).power = s.power :=
  by and_intros <;> rfl

/-- A station is all that `setStation` changes. -/
@[simp] theorem setStation_others (s : State) (n : Nat) (st : Station) :
    (setStation s n st).pending = s.pending ∧ (setStation s n st).outputs = s.outputs ∧
    (setStation s n st).gelari = s.gelari ∧ (setStation s n st).maps = s.maps ∧ (setStation s n st).clock = s.clock ∧
    (setStation s n st).dict = s.dict ∧ (setStation s n st).fnDict = s.fnDict ∧
    (setStation s n st).routes = s.routes ∧ (setStation s n st).fns = s.fns ∧ (setStation s n st).tagKey = s.tagKey ∧
    (setStation s n st).course = s.course ∧ (setStation s n st).fnQueue = s.fnQueue ∧
    (setStation s n st).linkWork = s.linkWork ∧ (setStation s n st).shadowDue = s.shadowDue ∧
    (setStation s n st).keepers = s.keepers ∧ (setStation s n st).indexGen = s.indexGen ∧
    (setStation s n st).words = s.words ∧ (setStation s n st).journal = s.journal ∧
    (setStation s n st).slices = s.slices ∧ (setStation s n st).xi = s.xi ∧ (setStation s n st).seals = s.seals ∧
    (setStation s n st).links = s.links ∧ (setStation s n st).bridges = s.bridges ∧
    (setStation s n st).partitions = s.partitions ∧ (setStation s n st).fenced = s.fenced ∧
    (setStation s n st).moved = s.moved ∧ (setStation s n st).coreCmds = s.coreCmds ∧
    (setStation s n st).advances = s.advances ∧ (setStation s n st).owner = s.owner ∧
    (setStation s n st).log = s.log ∧ (setStation s n st).lossOpen = s.lossOpen ∧ (setStation s n st).subs = s.subs ∧
    (setStation s n st).transport = s.transport ∧ (setStation s n st).window = s.window ∧
    (setStation s n st).entropy = s.entropy ∧ (setStation s n st).debug = s.debug ∧
    (setStation s n st).service = s.service ∧ (setStation s n st).substitute = s.substitute ∧
    (setStation s n st).unitState = s.unitState ∧ (setStation s n st).restarting = s.restarting ∧
    (setStation s n st).watchdogDue = s.watchdogDue ∧ (setStation s n st).drainsOwed = s.drainsOwed ∧
    (setStation s n st).wrappers = s.wrappers ∧ (setStation s n st).bins = s.bins ∧
    (setStation s n st).replays = s.replays ∧ (setStation s n st).driftAge = s.driftAge ∧
    (setStation s n st).power = s.power :=
  by and_intros <;> rfl

/-- A change of a station is all that `onStation` changes. -/
@[simp] theorem onStation_others (s : State) (n : Nat) (f : Station → Station) :
    (onStation s n f).pending = s.pending ∧ (onStation s n f).outputs = s.outputs ∧
    (onStation s n f).gelari = s.gelari ∧ (onStation s n f).maps = s.maps ∧ (onStation s n f).clock = s.clock ∧
    (onStation s n f).dict = s.dict ∧ (onStation s n f).fnDict = s.fnDict ∧ (onStation s n f).routes = s.routes ∧
    (onStation s n f).fns = s.fns ∧ (onStation s n f).tagKey = s.tagKey ∧ (onStation s n f).course = s.course ∧
    (onStation s n f).fnQueue = s.fnQueue ∧ (onStation s n f).linkWork = s.linkWork ∧
    (onStation s n f).shadowDue = s.shadowDue ∧ (onStation s n f).keepers = s.keepers ∧
    (onStation s n f).indexGen = s.indexGen ∧ (onStation s n f).words = s.words ∧
    (onStation s n f).journal = s.journal ∧ (onStation s n f).slices = s.slices ∧ (onStation s n f).xi = s.xi ∧
    (onStation s n f).seals = s.seals ∧ (onStation s n f).links = s.links ∧ (onStation s n f).bridges = s.bridges ∧
    (onStation s n f).partitions = s.partitions ∧ (onStation s n f).fenced = s.fenced ∧
    (onStation s n f).moved = s.moved ∧ (onStation s n f).coreCmds = s.coreCmds ∧
    (onStation s n f).advances = s.advances ∧ (onStation s n f).owner = s.owner ∧ (onStation s n f).log = s.log ∧
    (onStation s n f).lossOpen = s.lossOpen ∧ (onStation s n f).subs = s.subs ∧
    (onStation s n f).transport = s.transport ∧ (onStation s n f).window = s.window ∧
    (onStation s n f).entropy = s.entropy ∧ (onStation s n f).debug = s.debug ∧
    (onStation s n f).service = s.service ∧ (onStation s n f).substitute = s.substitute ∧
    (onStation s n f).unitState = s.unitState ∧ (onStation s n f).restarting = s.restarting ∧
    (onStation s n f).watchdogDue = s.watchdogDue ∧ (onStation s n f).drainsOwed = s.drainsOwed ∧
    (onStation s n f).wrappers = s.wrappers ∧ (onStation s n f).bins = s.bins ∧
    (onStation s n f).replays = s.replays ∧ (onStation s n f).driftAge = s.driftAge ∧
    (onStation s n f).power = s.power :=
  by and_intros <;> rfl

/-- The note that a station is at work is all that `touch` changes. -/
@[simp] theorem touch_others (s : State) (n : Nat) :
    (touch s n).pending = s.pending ∧ (touch s n).outputs = s.outputs ∧ (touch s n).gelari = s.gelari ∧
    (touch s n).maps = s.maps ∧ (touch s n).clock = s.clock ∧ (touch s n).dict = s.dict ∧
    (touch s n).fnDict = s.fnDict ∧ (touch s n).routes = s.routes ∧ (touch s n).fns = s.fns ∧
    (touch s n).tagKey = s.tagKey ∧ (touch s n).course = s.course ∧ (touch s n).fnQueue = s.fnQueue ∧
    (touch s n).linkWork = s.linkWork ∧ (touch s n).shadowDue = s.shadowDue ∧ (touch s n).keepers = s.keepers ∧
    (touch s n).indexGen = s.indexGen ∧ (touch s n).words = s.words ∧ (touch s n).journal = s.journal ∧
    (touch s n).slices = s.slices ∧ (touch s n).xi = s.xi ∧ (touch s n).seals = s.seals ∧
    (touch s n).links = s.links ∧ (touch s n).bridges = s.bridges ∧ (touch s n).partitions = s.partitions ∧
    (touch s n).fenced = s.fenced ∧ (touch s n).moved = s.moved ∧ (touch s n).coreCmds = s.coreCmds ∧
    (touch s n).advances = s.advances ∧ (touch s n).owner = s.owner ∧ (touch s n).log = s.log ∧
    (touch s n).lossOpen = s.lossOpen ∧ (touch s n).subs = s.subs ∧ (touch s n).transport = s.transport ∧
    (touch s n).window = s.window ∧ (touch s n).entropy = s.entropy ∧ (touch s n).debug = s.debug ∧
    (touch s n).service = s.service ∧ (touch s n).substitute = s.substitute ∧ (touch s n).unitState = s.unitState ∧
    (touch s n).restarting = s.restarting ∧ (touch s n).watchdogDue = s.watchdogDue ∧
    (touch s n).drainsOwed = s.drainsOwed ∧ (touch s n).wrappers = s.wrappers ∧ (touch s n).bins = s.bins ∧
    (touch s n).replays = s.replays ∧ (touch s n).driftAge = s.driftAge ∧ (touch s n).power = s.power :=
  by and_intros <;> rfl

/-- An object is all that `setObj` changes. -/
@[simp] theorem setObj_others (s : State) (n i : Nat) (o : Obj) :
    (setObj s n i o).pending = s.pending ∧ (setObj s n i o).outputs = s.outputs ∧ (setObj s n i o).gelari = s.gelari ∧
    (setObj s n i o).maps = s.maps ∧ (setObj s n i o).clock = s.clock ∧ (setObj s n i o).dict = s.dict ∧
    (setObj s n i o).fnDict = s.fnDict ∧ (setObj s n i o).routes = s.routes ∧ (setObj s n i o).fns = s.fns ∧
    (setObj s n i o).tagKey = s.tagKey ∧ (setObj s n i o).course = s.course ∧ (setObj s n i o).fnQueue = s.fnQueue ∧
    (setObj s n i o).linkWork = s.linkWork ∧ (setObj s n i o).shadowDue = s.shadowDue ∧
    (setObj s n i o).keepers = s.keepers ∧ (setObj s n i o).indexGen = s.indexGen ∧ (setObj s n i o).words = s.words ∧
    (setObj s n i o).journal = s.journal ∧ (setObj s n i o).slices = s.slices ∧ (setObj s n i o).xi = s.xi ∧
    (setObj s n i o).seals = s.seals ∧ (setObj s n i o).links = s.links ∧ (setObj s n i o).bridges = s.bridges ∧
    (setObj s n i o).partitions = s.partitions ∧ (setObj s n i o).fenced = s.fenced ∧
    (setObj s n i o).moved = s.moved ∧ (setObj s n i o).coreCmds = s.coreCmds ∧
    (setObj s n i o).advances = s.advances ∧ (setObj s n i o).owner = s.owner ∧ (setObj s n i o).log = s.log ∧
    (setObj s n i o).lossOpen = s.lossOpen ∧ (setObj s n i o).subs = s.subs ∧
    (setObj s n i o).transport = s.transport ∧ (setObj s n i o).window = s.window ∧
    (setObj s n i o).entropy = s.entropy ∧ (setObj s n i o).debug = s.debug ∧ (setObj s n i o).service = s.service ∧
    (setObj s n i o).substitute = s.substitute ∧ (setObj s n i o).unitState = s.unitState ∧
    (setObj s n i o).restarting = s.restarting ∧ (setObj s n i o).watchdogDue = s.watchdogDue ∧
    (setObj s n i o).drainsOwed = s.drainsOwed ∧ (setObj s n i o).wrappers = s.wrappers ∧
    (setObj s n i o).bins = s.bins ∧ (setObj s n i o).replays = s.replays ∧ (setObj s n i o).driftAge = s.driftAge ∧
    (setObj s n i o).power = s.power :=
  by and_intros <;> rfl

/-- An object's removal is all that `dropObj` changes. -/
@[simp] theorem dropObj_others (s : State) (n i : Nat) :
    (dropObj s n i).pending = s.pending ∧ (dropObj s n i).outputs = s.outputs ∧ (dropObj s n i).gelari = s.gelari ∧
    (dropObj s n i).maps = s.maps ∧ (dropObj s n i).clock = s.clock ∧ (dropObj s n i).dict = s.dict ∧
    (dropObj s n i).fnDict = s.fnDict ∧ (dropObj s n i).routes = s.routes ∧ (dropObj s n i).fns = s.fns ∧
    (dropObj s n i).tagKey = s.tagKey ∧ (dropObj s n i).course = s.course ∧ (dropObj s n i).fnQueue = s.fnQueue ∧
    (dropObj s n i).linkWork = s.linkWork ∧ (dropObj s n i).shadowDue = s.shadowDue ∧
    (dropObj s n i).keepers = s.keepers ∧ (dropObj s n i).indexGen = s.indexGen ∧ (dropObj s n i).words = s.words ∧
    (dropObj s n i).journal = s.journal ∧ (dropObj s n i).slices = s.slices ∧ (dropObj s n i).xi = s.xi ∧
    (dropObj s n i).seals = s.seals ∧ (dropObj s n i).links = s.links ∧ (dropObj s n i).bridges = s.bridges ∧
    (dropObj s n i).partitions = s.partitions ∧ (dropObj s n i).fenced = s.fenced ∧ (dropObj s n i).moved = s.moved ∧
    (dropObj s n i).coreCmds = s.coreCmds ∧ (dropObj s n i).advances = s.advances ∧ (dropObj s n i).owner = s.owner ∧
    (dropObj s n i).log = s.log ∧ (dropObj s n i).lossOpen = s.lossOpen ∧ (dropObj s n i).subs = s.subs ∧
    (dropObj s n i).transport = s.transport ∧ (dropObj s n i).window = s.window ∧
    (dropObj s n i).entropy = s.entropy ∧ (dropObj s n i).debug = s.debug ∧ (dropObj s n i).service = s.service ∧
    (dropObj s n i).substitute = s.substitute ∧ (dropObj s n i).unitState = s.unitState ∧
    (dropObj s n i).restarting = s.restarting ∧ (dropObj s n i).watchdogDue = s.watchdogDue ∧
    (dropObj s n i).drainsOwed = s.drainsOwed ∧ (dropObj s n i).wrappers = s.wrappers ∧
    (dropObj s n i).bins = s.bins ∧ (dropObj s n i).replays = s.replays ∧ (dropObj s n i).driftAge = s.driftAge ∧
    (dropObj s n i).power = s.power :=
  by and_intros <;> rfl

/-- A message is all that `send` changes. -/
@[simp] theorem send_others (s : State) (a b : Nat) (m : MsgBody) :
    (send s a b m).pending = s.pending ∧ (send s a b m).outputs = s.outputs ∧ (send s a b m).gelari = s.gelari ∧
    (send s a b m).maps = s.maps ∧ (send s a b m).clock = s.clock ∧ (send s a b m).dict = s.dict ∧
    (send s a b m).fnDict = s.fnDict ∧ (send s a b m).routes = s.routes ∧ (send s a b m).fns = s.fns ∧
    (send s a b m).tagKey = s.tagKey ∧ (send s a b m).stations = s.stations ∧ (send s a b m).fnQueue = s.fnQueue ∧
    (send s a b m).linkWork = s.linkWork ∧ (send s a b m).shadowDue = s.shadowDue ∧
    (send s a b m).keepers = s.keepers ∧ (send s a b m).indexGen = s.indexGen ∧ (send s a b m).words = s.words ∧
    (send s a b m).journal = s.journal ∧ (send s a b m).slices = s.slices ∧ (send s a b m).xi = s.xi ∧
    (send s a b m).seals = s.seals ∧ (send s a b m).links = s.links ∧ (send s a b m).bridges = s.bridges ∧
    (send s a b m).partitions = s.partitions ∧ (send s a b m).fenced = s.fenced ∧ (send s a b m).moved = s.moved ∧
    (send s a b m).coreCmds = s.coreCmds ∧ (send s a b m).advances = s.advances ∧ (send s a b m).owner = s.owner ∧
    (send s a b m).log = s.log ∧ (send s a b m).lossOpen = s.lossOpen ∧ (send s a b m).subs = s.subs ∧
    (send s a b m).transport = s.transport ∧ (send s a b m).window = s.window ∧ (send s a b m).entropy = s.entropy ∧
    (send s a b m).debug = s.debug ∧ (send s a b m).service = s.service ∧ (send s a b m).substitute = s.substitute ∧
    (send s a b m).unitState = s.unitState ∧ (send s a b m).restarting = s.restarting ∧
    (send s a b m).watchdogDue = s.watchdogDue ∧ (send s a b m).drainsOwed = s.drainsOwed ∧
    (send s a b m).wrappers = s.wrappers ∧ (send s a b m).bins = s.bins ∧ (send s a b m).replays = s.replays ∧
    (send s a b m).driftAge = s.driftAge ∧ (send s a b m).power = s.power :=
  by and_intros <;> rfl

/-- Several messages is all that `sendAll` changes. -/
@[simp] theorem sendAll_others (s : State) (a : Nat) (ms : List (Nat × MsgBody)) :
    (sendAll s a ms).pending = s.pending ∧ (sendAll s a ms).outputs = s.outputs ∧ (sendAll s a ms).gelari = s.gelari ∧
    (sendAll s a ms).maps = s.maps ∧ (sendAll s a ms).clock = s.clock ∧ (sendAll s a ms).dict = s.dict ∧
    (sendAll s a ms).fnDict = s.fnDict ∧ (sendAll s a ms).routes = s.routes ∧ (sendAll s a ms).fns = s.fns ∧
    (sendAll s a ms).tagKey = s.tagKey ∧ (sendAll s a ms).stations = s.stations ∧
    (sendAll s a ms).fnQueue = s.fnQueue ∧ (sendAll s a ms).linkWork = s.linkWork ∧
    (sendAll s a ms).shadowDue = s.shadowDue ∧ (sendAll s a ms).keepers = s.keepers ∧
    (sendAll s a ms).indexGen = s.indexGen ∧ (sendAll s a ms).words = s.words ∧ (sendAll s a ms).journal = s.journal ∧
    (sendAll s a ms).slices = s.slices ∧ (sendAll s a ms).xi = s.xi ∧ (sendAll s a ms).seals = s.seals ∧
    (sendAll s a ms).links = s.links ∧ (sendAll s a ms).bridges = s.bridges ∧
    (sendAll s a ms).partitions = s.partitions ∧ (sendAll s a ms).fenced = s.fenced ∧
    (sendAll s a ms).moved = s.moved ∧ (sendAll s a ms).coreCmds = s.coreCmds ∧
    (sendAll s a ms).advances = s.advances ∧ (sendAll s a ms).owner = s.owner ∧ (sendAll s a ms).log = s.log ∧
    (sendAll s a ms).lossOpen = s.lossOpen ∧ (sendAll s a ms).subs = s.subs ∧
    (sendAll s a ms).transport = s.transport ∧ (sendAll s a ms).window = s.window ∧
    (sendAll s a ms).entropy = s.entropy ∧ (sendAll s a ms).debug = s.debug ∧ (sendAll s a ms).service = s.service ∧
    (sendAll s a ms).substitute = s.substitute ∧ (sendAll s a ms).unitState = s.unitState ∧
    (sendAll s a ms).restarting = s.restarting ∧ (sendAll s a ms).watchdogDue = s.watchdogDue ∧
    (sendAll s a ms).drainsOwed = s.drainsOwed ∧ (sendAll s a ms).wrappers = s.wrappers ∧
    (sendAll s a ms).bins = s.bins ∧ (sendAll s a ms).replays = s.replays ∧ (sendAll s a ms).driftAge = s.driftAge ∧
    (sendAll s a ms).power = s.power :=
  by and_intros <;> rfl

/-- A link port is all that `setLink` changes. -/
@[simp] theorem setLink_others (s : State) (p : Nat) (l : Link) :
    (setLink s p l).pending = s.pending ∧ (setLink s p l).outputs = s.outputs ∧ (setLink s p l).gelari = s.gelari ∧
    (setLink s p l).maps = s.maps ∧ (setLink s p l).clock = s.clock ∧ (setLink s p l).dict = s.dict ∧
    (setLink s p l).fnDict = s.fnDict ∧ (setLink s p l).routes = s.routes ∧ (setLink s p l).fns = s.fns ∧
    (setLink s p l).tagKey = s.tagKey ∧ (setLink s p l).stations = s.stations ∧ (setLink s p l).course = s.course ∧
    (setLink s p l).fnQueue = s.fnQueue ∧ (setLink s p l).linkWork = s.linkWork ∧
    (setLink s p l).shadowDue = s.shadowDue ∧ (setLink s p l).keepers = s.keepers ∧
    (setLink s p l).indexGen = s.indexGen ∧ (setLink s p l).words = s.words ∧ (setLink s p l).journal = s.journal ∧
    (setLink s p l).slices = s.slices ∧ (setLink s p l).xi = s.xi ∧ (setLink s p l).seals = s.seals ∧
    (setLink s p l).bridges = s.bridges ∧ (setLink s p l).partitions = s.partitions ∧
    (setLink s p l).fenced = s.fenced ∧ (setLink s p l).moved = s.moved ∧ (setLink s p l).coreCmds = s.coreCmds ∧
    (setLink s p l).advances = s.advances ∧ (setLink s p l).owner = s.owner ∧ (setLink s p l).log = s.log ∧
    (setLink s p l).lossOpen = s.lossOpen ∧ (setLink s p l).subs = s.subs ∧ (setLink s p l).transport = s.transport ∧
    (setLink s p l).window = s.window ∧ (setLink s p l).entropy = s.entropy ∧ (setLink s p l).debug = s.debug ∧
    (setLink s p l).service = s.service ∧ (setLink s p l).substitute = s.substitute ∧
    (setLink s p l).unitState = s.unitState ∧ (setLink s p l).restarting = s.restarting ∧
    (setLink s p l).watchdogDue = s.watchdogDue ∧ (setLink s p l).drainsOwed = s.drainsOwed ∧
    (setLink s p l).wrappers = s.wrappers ∧ (setLink s p l).bins = s.bins ∧ (setLink s p l).replays = s.replays ∧
    (setLink s p l).driftAge = s.driftAge ∧ (setLink s p l).power = s.power :=
  by and_intros <;> rfl

/-- A change of a link port is all that `onLink` changes. -/
@[simp] theorem onLink_others (s : State) (p : Nat) (f : Link → Link) :
    (onLink s p f).pending = s.pending ∧ (onLink s p f).outputs = s.outputs ∧ (onLink s p f).gelari = s.gelari ∧
    (onLink s p f).maps = s.maps ∧ (onLink s p f).clock = s.clock ∧ (onLink s p f).dict = s.dict ∧
    (onLink s p f).fnDict = s.fnDict ∧ (onLink s p f).routes = s.routes ∧ (onLink s p f).fns = s.fns ∧
    (onLink s p f).tagKey = s.tagKey ∧ (onLink s p f).stations = s.stations ∧ (onLink s p f).course = s.course ∧
    (onLink s p f).fnQueue = s.fnQueue ∧ (onLink s p f).linkWork = s.linkWork ∧
    (onLink s p f).shadowDue = s.shadowDue ∧ (onLink s p f).keepers = s.keepers ∧
    (onLink s p f).indexGen = s.indexGen ∧ (onLink s p f).words = s.words ∧ (onLink s p f).journal = s.journal ∧
    (onLink s p f).slices = s.slices ∧ (onLink s p f).xi = s.xi ∧ (onLink s p f).seals = s.seals ∧
    (onLink s p f).bridges = s.bridges ∧ (onLink s p f).partitions = s.partitions ∧ (onLink s p f).fenced = s.fenced ∧
    (onLink s p f).moved = s.moved ∧ (onLink s p f).coreCmds = s.coreCmds ∧ (onLink s p f).advances = s.advances ∧
    (onLink s p f).owner = s.owner ∧ (onLink s p f).log = s.log ∧ (onLink s p f).lossOpen = s.lossOpen ∧
    (onLink s p f).subs = s.subs ∧ (onLink s p f).transport = s.transport ∧ (onLink s p f).window = s.window ∧
    (onLink s p f).entropy = s.entropy ∧ (onLink s p f).debug = s.debug ∧ (onLink s p f).service = s.service ∧
    (onLink s p f).substitute = s.substitute ∧ (onLink s p f).unitState = s.unitState ∧
    (onLink s p f).restarting = s.restarting ∧ (onLink s p f).watchdogDue = s.watchdogDue ∧
    (onLink s p f).drainsOwed = s.drainsOwed ∧ (onLink s p f).wrappers = s.wrappers ∧ (onLink s p f).bins = s.bins ∧
    (onLink s p f).replays = s.replays ∧ (onLink s p f).driftAge = s.driftAge ∧ (onLink s p f).power = s.power :=
  by and_intros <;> rfl

/-- A slice is all that `setSlice` changes. -/
@[simp] theorem setSlice_others (s : State) (j : Nat) (l : Slice) :
    (setSlice s j l).pending = s.pending ∧ (setSlice s j l).outputs = s.outputs ∧ (setSlice s j l).gelari = s.gelari ∧
    (setSlice s j l).maps = s.maps ∧ (setSlice s j l).clock = s.clock ∧ (setSlice s j l).dict = s.dict ∧
    (setSlice s j l).fnDict = s.fnDict ∧ (setSlice s j l).routes = s.routes ∧ (setSlice s j l).fns = s.fns ∧
    (setSlice s j l).tagKey = s.tagKey ∧ (setSlice s j l).stations = s.stations ∧ (setSlice s j l).course = s.course ∧
    (setSlice s j l).fnQueue = s.fnQueue ∧ (setSlice s j l).linkWork = s.linkWork ∧
    (setSlice s j l).shadowDue = s.shadowDue ∧ (setSlice s j l).keepers = s.keepers ∧
    (setSlice s j l).indexGen = s.indexGen ∧ (setSlice s j l).words = s.words ∧ (setSlice s j l).journal = s.journal ∧
    (setSlice s j l).xi = s.xi ∧ (setSlice s j l).seals = s.seals ∧ (setSlice s j l).links = s.links ∧
    (setSlice s j l).bridges = s.bridges ∧ (setSlice s j l).partitions = s.partitions ∧
    (setSlice s j l).fenced = s.fenced ∧ (setSlice s j l).moved = s.moved ∧ (setSlice s j l).coreCmds = s.coreCmds ∧
    (setSlice s j l).advances = s.advances ∧ (setSlice s j l).owner = s.owner ∧ (setSlice s j l).log = s.log ∧
    (setSlice s j l).lossOpen = s.lossOpen ∧ (setSlice s j l).subs = s.subs ∧
    (setSlice s j l).transport = s.transport ∧ (setSlice s j l).window = s.window ∧
    (setSlice s j l).entropy = s.entropy ∧ (setSlice s j l).debug = s.debug ∧ (setSlice s j l).service = s.service ∧
    (setSlice s j l).substitute = s.substitute ∧ (setSlice s j l).unitState = s.unitState ∧
    (setSlice s j l).restarting = s.restarting ∧ (setSlice s j l).watchdogDue = s.watchdogDue ∧
    (setSlice s j l).drainsOwed = s.drainsOwed ∧ (setSlice s j l).wrappers = s.wrappers ∧
    (setSlice s j l).bins = s.bins ∧ (setSlice s j l).replays = s.replays ∧ (setSlice s j l).driftAge = s.driftAge ∧
    (setSlice s j l).power = s.power :=
  by and_intros <;> rfl

/-- A change of a slice is all that `onSlice` changes. -/
@[simp] theorem onSlice_others (s : State) (j : Nat) (f : Slice → Slice) :
    (onSlice s j f).pending = s.pending ∧ (onSlice s j f).outputs = s.outputs ∧ (onSlice s j f).gelari = s.gelari ∧
    (onSlice s j f).maps = s.maps ∧ (onSlice s j f).clock = s.clock ∧ (onSlice s j f).dict = s.dict ∧
    (onSlice s j f).fnDict = s.fnDict ∧ (onSlice s j f).routes = s.routes ∧ (onSlice s j f).fns = s.fns ∧
    (onSlice s j f).tagKey = s.tagKey ∧ (onSlice s j f).stations = s.stations ∧ (onSlice s j f).course = s.course ∧
    (onSlice s j f).fnQueue = s.fnQueue ∧ (onSlice s j f).linkWork = s.linkWork ∧
    (onSlice s j f).shadowDue = s.shadowDue ∧ (onSlice s j f).keepers = s.keepers ∧
    (onSlice s j f).indexGen = s.indexGen ∧ (onSlice s j f).words = s.words ∧ (onSlice s j f).journal = s.journal ∧
    (onSlice s j f).xi = s.xi ∧ (onSlice s j f).seals = s.seals ∧ (onSlice s j f).links = s.links ∧
    (onSlice s j f).bridges = s.bridges ∧ (onSlice s j f).partitions = s.partitions ∧
    (onSlice s j f).fenced = s.fenced ∧ (onSlice s j f).moved = s.moved ∧ (onSlice s j f).coreCmds = s.coreCmds ∧
    (onSlice s j f).advances = s.advances ∧ (onSlice s j f).owner = s.owner ∧ (onSlice s j f).log = s.log ∧
    (onSlice s j f).lossOpen = s.lossOpen ∧ (onSlice s j f).subs = s.subs ∧ (onSlice s j f).transport = s.transport ∧
    (onSlice s j f).window = s.window ∧ (onSlice s j f).entropy = s.entropy ∧ (onSlice s j f).debug = s.debug ∧
    (onSlice s j f).service = s.service ∧ (onSlice s j f).substitute = s.substitute ∧
    (onSlice s j f).unitState = s.unitState ∧ (onSlice s j f).restarting = s.restarting ∧
    (onSlice s j f).watchdogDue = s.watchdogDue ∧ (onSlice s j f).drainsOwed = s.drainsOwed ∧
    (onSlice s j f).wrappers = s.wrappers ∧ (onSlice s j f).bins = s.bins ∧ (onSlice s j f).replays = s.replays ∧
    (onSlice s j f).driftAge = s.driftAge ∧ (onSlice s j f).power = s.power :=
  by and_intros <;> rfl

/-- A ferry initiator is all that `setXi` changes. -/
@[simp] theorem setXi_others (s : State) (j : Nat) (p : XiPort) :
    (setXi s j p).pending = s.pending ∧ (setXi s j p).outputs = s.outputs ∧ (setXi s j p).gelari = s.gelari ∧
    (setXi s j p).maps = s.maps ∧ (setXi s j p).clock = s.clock ∧ (setXi s j p).dict = s.dict ∧
    (setXi s j p).fnDict = s.fnDict ∧ (setXi s j p).routes = s.routes ∧ (setXi s j p).fns = s.fns ∧
    (setXi s j p).tagKey = s.tagKey ∧ (setXi s j p).stations = s.stations ∧ (setXi s j p).course = s.course ∧
    (setXi s j p).fnQueue = s.fnQueue ∧ (setXi s j p).linkWork = s.linkWork ∧ (setXi s j p).shadowDue = s.shadowDue ∧
    (setXi s j p).keepers = s.keepers ∧ (setXi s j p).indexGen = s.indexGen ∧ (setXi s j p).words = s.words ∧
    (setXi s j p).journal = s.journal ∧ (setXi s j p).slices = s.slices ∧ (setXi s j p).seals = s.seals ∧
    (setXi s j p).links = s.links ∧ (setXi s j p).bridges = s.bridges ∧ (setXi s j p).partitions = s.partitions ∧
    (setXi s j p).fenced = s.fenced ∧ (setXi s j p).moved = s.moved ∧ (setXi s j p).coreCmds = s.coreCmds ∧
    (setXi s j p).advances = s.advances ∧ (setXi s j p).owner = s.owner ∧ (setXi s j p).log = s.log ∧
    (setXi s j p).lossOpen = s.lossOpen ∧ (setXi s j p).subs = s.subs ∧ (setXi s j p).transport = s.transport ∧
    (setXi s j p).window = s.window ∧ (setXi s j p).entropy = s.entropy ∧ (setXi s j p).debug = s.debug ∧
    (setXi s j p).service = s.service ∧ (setXi s j p).substitute = s.substitute ∧
    (setXi s j p).unitState = s.unitState ∧ (setXi s j p).restarting = s.restarting ∧
    (setXi s j p).watchdogDue = s.watchdogDue ∧ (setXi s j p).drainsOwed = s.drainsOwed ∧
    (setXi s j p).wrappers = s.wrappers ∧ (setXi s j p).bins = s.bins ∧ (setXi s j p).replays = s.replays ∧
    (setXi s j p).driftAge = s.driftAge ∧ (setXi s j p).power = s.power :=
  by and_intros <;> rfl

/-- A change of a partition is all that `onPart` changes. -/
@[simp] theorem onPart_others (s : State) (p : Nat) (f : Partition → Partition) :
    (onPart s p f).pending = s.pending ∧ (onPart s p f).outputs = s.outputs ∧ (onPart s p f).gelari = s.gelari ∧
    (onPart s p f).maps = s.maps ∧ (onPart s p f).clock = s.clock ∧ (onPart s p f).dict = s.dict ∧
    (onPart s p f).fnDict = s.fnDict ∧ (onPart s p f).routes = s.routes ∧ (onPart s p f).fns = s.fns ∧
    (onPart s p f).tagKey = s.tagKey ∧ (onPart s p f).stations = s.stations ∧ (onPart s p f).course = s.course ∧
    (onPart s p f).fnQueue = s.fnQueue ∧ (onPart s p f).linkWork = s.linkWork ∧
    (onPart s p f).shadowDue = s.shadowDue ∧ (onPart s p f).keepers = s.keepers ∧
    (onPart s p f).indexGen = s.indexGen ∧ (onPart s p f).words = s.words ∧ (onPart s p f).journal = s.journal ∧
    (onPart s p f).slices = s.slices ∧ (onPart s p f).xi = s.xi ∧ (onPart s p f).seals = s.seals ∧
    (onPart s p f).links = s.links ∧ (onPart s p f).bridges = s.bridges ∧ (onPart s p f).fenced = s.fenced ∧
    (onPart s p f).moved = s.moved ∧ (onPart s p f).coreCmds = s.coreCmds ∧ (onPart s p f).advances = s.advances ∧
    (onPart s p f).owner = s.owner ∧ (onPart s p f).log = s.log ∧ (onPart s p f).lossOpen = s.lossOpen ∧
    (onPart s p f).subs = s.subs ∧ (onPart s p f).transport = s.transport ∧ (onPart s p f).window = s.window ∧
    (onPart s p f).entropy = s.entropy ∧ (onPart s p f).debug = s.debug ∧ (onPart s p f).service = s.service ∧
    (onPart s p f).substitute = s.substitute ∧ (onPart s p f).unitState = s.unitState ∧
    (onPart s p f).restarting = s.restarting ∧ (onPart s p f).watchdogDue = s.watchdogDue ∧
    (onPart s p f).drainsOwed = s.drainsOwed ∧ (onPart s p f).wrappers = s.wrappers ∧ (onPart s p f).bins = s.bins ∧
    (onPart s p f).replays = s.replays ∧ (onPart s p f).driftAge = s.driftAge ∧ (onPart s p f).power = s.power :=
  by and_intros <;> rfl

/-- A change of a bridge is all that `onBridge` changes. -/
@[simp] theorem onBridge_others (s : State) (b : Nat) (f : Bridge → Bridge) :
    (onBridge s b f).pending = s.pending ∧ (onBridge s b f).outputs = s.outputs ∧ (onBridge s b f).gelari = s.gelari ∧
    (onBridge s b f).maps = s.maps ∧ (onBridge s b f).clock = s.clock ∧ (onBridge s b f).dict = s.dict ∧
    (onBridge s b f).fnDict = s.fnDict ∧ (onBridge s b f).routes = s.routes ∧ (onBridge s b f).fns = s.fns ∧
    (onBridge s b f).tagKey = s.tagKey ∧ (onBridge s b f).stations = s.stations ∧ (onBridge s b f).course = s.course ∧
    (onBridge s b f).fnQueue = s.fnQueue ∧ (onBridge s b f).linkWork = s.linkWork ∧
    (onBridge s b f).shadowDue = s.shadowDue ∧ (onBridge s b f).keepers = s.keepers ∧
    (onBridge s b f).indexGen = s.indexGen ∧ (onBridge s b f).words = s.words ∧ (onBridge s b f).journal = s.journal ∧
    (onBridge s b f).slices = s.slices ∧ (onBridge s b f).xi = s.xi ∧ (onBridge s b f).seals = s.seals ∧
    (onBridge s b f).links = s.links ∧ (onBridge s b f).partitions = s.partitions ∧
    (onBridge s b f).fenced = s.fenced ∧ (onBridge s b f).moved = s.moved ∧ (onBridge s b f).coreCmds = s.coreCmds ∧
    (onBridge s b f).advances = s.advances ∧ (onBridge s b f).owner = s.owner ∧ (onBridge s b f).log = s.log ∧
    (onBridge s b f).lossOpen = s.lossOpen ∧ (onBridge s b f).subs = s.subs ∧
    (onBridge s b f).transport = s.transport ∧ (onBridge s b f).window = s.window ∧
    (onBridge s b f).entropy = s.entropy ∧ (onBridge s b f).debug = s.debug ∧ (onBridge s b f).service = s.service ∧
    (onBridge s b f).substitute = s.substitute ∧ (onBridge s b f).unitState = s.unitState ∧
    (onBridge s b f).restarting = s.restarting ∧ (onBridge s b f).watchdogDue = s.watchdogDue ∧
    (onBridge s b f).drainsOwed = s.drainsOwed ∧ (onBridge s b f).wrappers = s.wrappers ∧
    (onBridge s b f).bins = s.bins ∧ (onBridge s b f).replays = s.replays ∧ (onBridge s b f).driftAge = s.driftAge ∧
    (onBridge s b f).power = s.power :=
  by and_intros <;> rfl

/-- A subscriber's slot is all that `setSub` changes. -/
@[simp] theorem setSub_others (s : State) (k : Nat) (x : Sub) :
    (setSub s k x).pending = s.pending ∧ (setSub s k x).outputs = s.outputs ∧ (setSub s k x).gelari = s.gelari ∧
    (setSub s k x).maps = s.maps ∧ (setSub s k x).clock = s.clock ∧ (setSub s k x).dict = s.dict ∧
    (setSub s k x).fnDict = s.fnDict ∧ (setSub s k x).routes = s.routes ∧ (setSub s k x).fns = s.fns ∧
    (setSub s k x).tagKey = s.tagKey ∧ (setSub s k x).stations = s.stations ∧ (setSub s k x).course = s.course ∧
    (setSub s k x).fnQueue = s.fnQueue ∧ (setSub s k x).linkWork = s.linkWork ∧
    (setSub s k x).shadowDue = s.shadowDue ∧ (setSub s k x).keepers = s.keepers ∧
    (setSub s k x).indexGen = s.indexGen ∧ (setSub s k x).words = s.words ∧ (setSub s k x).journal = s.journal ∧
    (setSub s k x).slices = s.slices ∧ (setSub s k x).xi = s.xi ∧ (setSub s k x).seals = s.seals ∧
    (setSub s k x).links = s.links ∧ (setSub s k x).bridges = s.bridges ∧ (setSub s k x).partitions = s.partitions ∧
    (setSub s k x).fenced = s.fenced ∧ (setSub s k x).moved = s.moved ∧ (setSub s k x).coreCmds = s.coreCmds ∧
    (setSub s k x).advances = s.advances ∧ (setSub s k x).owner = s.owner ∧ (setSub s k x).log = s.log ∧
    (setSub s k x).lossOpen = s.lossOpen ∧ (setSub s k x).transport = s.transport ∧ (setSub s k x).window = s.window ∧
    (setSub s k x).entropy = s.entropy ∧ (setSub s k x).debug = s.debug ∧ (setSub s k x).service = s.service ∧
    (setSub s k x).substitute = s.substitute ∧ (setSub s k x).unitState = s.unitState ∧
    (setSub s k x).restarting = s.restarting ∧ (setSub s k x).watchdogDue = s.watchdogDue ∧
    (setSub s k x).drainsOwed = s.drainsOwed ∧ (setSub s k x).wrappers = s.wrappers ∧ (setSub s k x).bins = s.bins ∧
    (setSub s k x).replays = s.replays ∧ (setSub s k x).driftAge = s.driftAge ∧ (setSub s k x).power = s.power :=
  by and_intros <;> rfl

/-- A change of the ownership is all that `onOwner` changes. -/
@[simp] theorem onOwner_others (s : State) (f : Owner → Owner) :
    (onOwner s f).pending = s.pending ∧ (onOwner s f).outputs = s.outputs ∧ (onOwner s f).gelari = s.gelari ∧
    (onOwner s f).maps = s.maps ∧ (onOwner s f).clock = s.clock ∧ (onOwner s f).dict = s.dict ∧
    (onOwner s f).fnDict = s.fnDict ∧ (onOwner s f).routes = s.routes ∧ (onOwner s f).fns = s.fns ∧
    (onOwner s f).tagKey = s.tagKey ∧ (onOwner s f).stations = s.stations ∧ (onOwner s f).course = s.course ∧
    (onOwner s f).fnQueue = s.fnQueue ∧ (onOwner s f).linkWork = s.linkWork ∧ (onOwner s f).shadowDue = s.shadowDue ∧
    (onOwner s f).keepers = s.keepers ∧ (onOwner s f).indexGen = s.indexGen ∧ (onOwner s f).words = s.words ∧
    (onOwner s f).journal = s.journal ∧ (onOwner s f).slices = s.slices ∧ (onOwner s f).xi = s.xi ∧
    (onOwner s f).seals = s.seals ∧ (onOwner s f).links = s.links ∧ (onOwner s f).bridges = s.bridges ∧
    (onOwner s f).partitions = s.partitions ∧ (onOwner s f).fenced = s.fenced ∧ (onOwner s f).moved = s.moved ∧
    (onOwner s f).coreCmds = s.coreCmds ∧ (onOwner s f).advances = s.advances ∧ (onOwner s f).log = s.log ∧
    (onOwner s f).lossOpen = s.lossOpen ∧ (onOwner s f).subs = s.subs ∧ (onOwner s f).transport = s.transport ∧
    (onOwner s f).window = s.window ∧ (onOwner s f).entropy = s.entropy ∧ (onOwner s f).debug = s.debug ∧
    (onOwner s f).service = s.service ∧ (onOwner s f).substitute = s.substitute ∧
    (onOwner s f).unitState = s.unitState ∧ (onOwner s f).restarting = s.restarting ∧
    (onOwner s f).watchdogDue = s.watchdogDue ∧ (onOwner s f).drainsOwed = s.drainsOwed ∧
    (onOwner s f).wrappers = s.wrappers ∧ (onOwner s f).bins = s.bins ∧ (onOwner s f).replays = s.replays ∧
    (onOwner s f).driftAge = s.driftAge ∧ (onOwner s f).power = s.power :=
  by and_intros <;> rfl

/-- A core command's end is all that `dropCmd` changes. -/
@[simp] theorem dropCmd_others (s : State) (k p : Nat) :
    (dropCmd s k p).pending = s.pending ∧ (dropCmd s k p).outputs = s.outputs ∧ (dropCmd s k p).gelari = s.gelari ∧
    (dropCmd s k p).maps = s.maps ∧ (dropCmd s k p).clock = s.clock ∧ (dropCmd s k p).dict = s.dict ∧
    (dropCmd s k p).fnDict = s.fnDict ∧ (dropCmd s k p).routes = s.routes ∧ (dropCmd s k p).fns = s.fns ∧
    (dropCmd s k p).tagKey = s.tagKey ∧ (dropCmd s k p).stations = s.stations ∧ (dropCmd s k p).course = s.course ∧
    (dropCmd s k p).fnQueue = s.fnQueue ∧ (dropCmd s k p).linkWork = s.linkWork ∧
    (dropCmd s k p).shadowDue = s.shadowDue ∧ (dropCmd s k p).keepers = s.keepers ∧
    (dropCmd s k p).indexGen = s.indexGen ∧ (dropCmd s k p).words = s.words ∧ (dropCmd s k p).journal = s.journal ∧
    (dropCmd s k p).slices = s.slices ∧ (dropCmd s k p).xi = s.xi ∧ (dropCmd s k p).seals = s.seals ∧
    (dropCmd s k p).links = s.links ∧ (dropCmd s k p).bridges = s.bridges ∧
    (dropCmd s k p).partitions = s.partitions ∧ (dropCmd s k p).fenced = s.fenced ∧ (dropCmd s k p).moved = s.moved ∧
    (dropCmd s k p).advances = s.advances ∧ (dropCmd s k p).owner = s.owner ∧ (dropCmd s k p).log = s.log ∧
    (dropCmd s k p).lossOpen = s.lossOpen ∧ (dropCmd s k p).subs = s.subs ∧ (dropCmd s k p).transport = s.transport ∧
    (dropCmd s k p).window = s.window ∧ (dropCmd s k p).entropy = s.entropy ∧ (dropCmd s k p).debug = s.debug ∧
    (dropCmd s k p).service = s.service ∧ (dropCmd s k p).substitute = s.substitute ∧
    (dropCmd s k p).unitState = s.unitState ∧ (dropCmd s k p).restarting = s.restarting ∧
    (dropCmd s k p).watchdogDue = s.watchdogDue ∧ (dropCmd s k p).drainsOwed = s.drainsOwed ∧
    (dropCmd s k p).wrappers = s.wrappers ∧ (dropCmd s k p).bins = s.bins ∧ (dropCmd s k p).replays = s.replays ∧
    (dropCmd s k p).driftAge = s.driftAge ∧ (dropCmd s k p).power = s.power :=
  by and_intros <;> rfl

/-- A transfer is all that `drive` changes. -/
@[simp] theorem drive_others (s : State) (l : List Output) :
    (drive s l).pending = s.pending ∧ (drive s l).gelari = s.gelari ∧ (drive s l).maps = s.maps ∧
    (drive s l).clock = s.clock ∧ (drive s l).dict = s.dict ∧ (drive s l).fnDict = s.fnDict ∧
    (drive s l).routes = s.routes ∧ (drive s l).fns = s.fns ∧ (drive s l).tagKey = s.tagKey ∧
    (drive s l).stations = s.stations ∧ (drive s l).course = s.course ∧ (drive s l).fnQueue = s.fnQueue ∧
    (drive s l).linkWork = s.linkWork ∧ (drive s l).shadowDue = s.shadowDue ∧ (drive s l).keepers = s.keepers ∧
    (drive s l).indexGen = s.indexGen ∧ (drive s l).words = s.words ∧ (drive s l).journal = s.journal ∧
    (drive s l).slices = s.slices ∧ (drive s l).xi = s.xi ∧ (drive s l).seals = s.seals ∧
    (drive s l).links = s.links ∧ (drive s l).bridges = s.bridges ∧ (drive s l).partitions = s.partitions ∧
    (drive s l).fenced = s.fenced ∧ (drive s l).moved = s.moved ∧ (drive s l).coreCmds = s.coreCmds ∧
    (drive s l).advances = s.advances ∧ (drive s l).owner = s.owner ∧ (drive s l).log = s.log ∧
    (drive s l).lossOpen = s.lossOpen ∧ (drive s l).subs = s.subs ∧ (drive s l).transport = s.transport ∧
    (drive s l).window = s.window ∧ (drive s l).entropy = s.entropy ∧ (drive s l).debug = s.debug ∧
    (drive s l).service = s.service ∧ (drive s l).substitute = s.substitute ∧ (drive s l).unitState = s.unitState ∧
    (drive s l).restarting = s.restarting ∧ (drive s l).watchdogDue = s.watchdogDue ∧
    (drive s l).drainsOwed = s.drainsOwed ∧ (drive s l).wrappers = s.wrappers ∧ (drive s l).bins = s.bins ∧
    (drive s l).replays = s.replays ∧ (drive s l).driftAge = s.driftAge ∧ (drive s l).power = s.power :=
  by unfold drive; split <;> and_intros <;> rfl

/-- A core command is all that `coreCommand` changes. -/
@[simp] theorem coreCommand_others (s : State) (c : CoreCmd) (limit : Nat) :
    (coreCommand s c limit).pending = s.pending ∧ (coreCommand s c limit).gelari = s.gelari ∧
    (coreCommand s c limit).maps = s.maps ∧ (coreCommand s c limit).clock = s.clock ∧
    (coreCommand s c limit).dict = s.dict ∧ (coreCommand s c limit).fnDict = s.fnDict ∧
    (coreCommand s c limit).routes = s.routes ∧ (coreCommand s c limit).fns = s.fns ∧
    (coreCommand s c limit).tagKey = s.tagKey ∧ (coreCommand s c limit).stations = s.stations ∧
    (coreCommand s c limit).course = s.course ∧ (coreCommand s c limit).fnQueue = s.fnQueue ∧
    (coreCommand s c limit).linkWork = s.linkWork ∧ (coreCommand s c limit).shadowDue = s.shadowDue ∧
    (coreCommand s c limit).keepers = s.keepers ∧ (coreCommand s c limit).indexGen = s.indexGen ∧
    (coreCommand s c limit).words = s.words ∧ (coreCommand s c limit).journal = s.journal ∧
    (coreCommand s c limit).slices = s.slices ∧ (coreCommand s c limit).xi = s.xi ∧
    (coreCommand s c limit).seals = s.seals ∧ (coreCommand s c limit).links = s.links ∧
    (coreCommand s c limit).bridges = s.bridges ∧ (coreCommand s c limit).partitions = s.partitions ∧
    (coreCommand s c limit).fenced = s.fenced ∧ (coreCommand s c limit).moved = s.moved ∧
    (coreCommand s c limit).advances = s.advances ∧ (coreCommand s c limit).owner = s.owner ∧
    (coreCommand s c limit).log = s.log ∧ (coreCommand s c limit).lossOpen = s.lossOpen ∧
    (coreCommand s c limit).subs = s.subs ∧ (coreCommand s c limit).transport = s.transport ∧
    (coreCommand s c limit).window = s.window ∧ (coreCommand s c limit).entropy = s.entropy ∧
    (coreCommand s c limit).debug = s.debug ∧ (coreCommand s c limit).service = s.service ∧
    (coreCommand s c limit).substitute = s.substitute ∧ (coreCommand s c limit).unitState = s.unitState ∧
    (coreCommand s c limit).restarting = s.restarting ∧ (coreCommand s c limit).watchdogDue = s.watchdogDue ∧
    (coreCommand s c limit).drainsOwed = s.drainsOwed ∧ (coreCommand s c limit).wrappers = s.wrappers ∧
    (coreCommand s c limit).bins = s.bins ∧ (coreCommand s c limit).replays = s.replays ∧
    (coreCommand s c limit).driftAge = s.driftAge :=
  by simp [coreCommand]

/-- A need of entropy is all that `wantEntropy` changes. -/
@[simp] theorem wantEntropy_others (s : State) (w : Need) :
    (wantEntropy s w).pending = s.pending ∧ (wantEntropy s w).outputs = s.outputs ∧
    (wantEntropy s w).gelari = s.gelari ∧ (wantEntropy s w).maps = s.maps ∧ (wantEntropy s w).clock = s.clock ∧
    (wantEntropy s w).dict = s.dict ∧ (wantEntropy s w).fnDict = s.fnDict ∧ (wantEntropy s w).routes = s.routes ∧
    (wantEntropy s w).fns = s.fns ∧ (wantEntropy s w).tagKey = s.tagKey ∧ (wantEntropy s w).stations = s.stations ∧
    (wantEntropy s w).course = s.course ∧ (wantEntropy s w).fnQueue = s.fnQueue ∧
    (wantEntropy s w).linkWork = s.linkWork ∧ (wantEntropy s w).shadowDue = s.shadowDue ∧
    (wantEntropy s w).keepers = s.keepers ∧ (wantEntropy s w).indexGen = s.indexGen ∧
    (wantEntropy s w).words = s.words ∧ (wantEntropy s w).journal = s.journal ∧ (wantEntropy s w).slices = s.slices ∧
    (wantEntropy s w).xi = s.xi ∧ (wantEntropy s w).seals = s.seals ∧ (wantEntropy s w).links = s.links ∧
    (wantEntropy s w).bridges = s.bridges ∧ (wantEntropy s w).partitions = s.partitions ∧
    (wantEntropy s w).fenced = s.fenced ∧ (wantEntropy s w).moved = s.moved ∧
    (wantEntropy s w).coreCmds = s.coreCmds ∧ (wantEntropy s w).advances = s.advances ∧
    (wantEntropy s w).owner = s.owner ∧ (wantEntropy s w).log = s.log ∧ (wantEntropy s w).lossOpen = s.lossOpen ∧
    (wantEntropy s w).subs = s.subs ∧ (wantEntropy s w).transport = s.transport ∧
    (wantEntropy s w).window = s.window ∧ (wantEntropy s w).debug = s.debug ∧ (wantEntropy s w).service = s.service ∧
    (wantEntropy s w).substitute = s.substitute ∧ (wantEntropy s w).unitState = s.unitState ∧
    (wantEntropy s w).restarting = s.restarting ∧ (wantEntropy s w).watchdogDue = s.watchdogDue ∧
    (wantEntropy s w).drainsOwed = s.drainsOwed ∧ (wantEntropy s w).wrappers = s.wrappers ∧
    (wantEntropy s w).bins = s.bins ∧ (wantEntropy s w).replays = s.replays ∧
    (wantEntropy s w).driftAge = s.driftAge ∧ (wantEntropy s w).power = s.power :=
  by and_intros <;> rfl

/-- The start of a home's step is all that `atStep` changes. -/
@[simp] theorem atStep_others (s : State) :
    (atStep s).pending = s.pending ∧ (atStep s).outputs = s.outputs ∧ (atStep s).gelari = s.gelari ∧
    (atStep s).maps = s.maps ∧ (atStep s).clock = s.clock ∧ (atStep s).dict = s.dict ∧ (atStep s).fnDict = s.fnDict ∧
    (atStep s).routes = s.routes ∧ (atStep s).fns = s.fns ∧ (atStep s).tagKey = s.tagKey ∧
    (atStep s).stations = s.stations ∧ (atStep s).course = s.course ∧ (atStep s).fnQueue = s.fnQueue ∧
    (atStep s).linkWork = s.linkWork ∧ (atStep s).keepers = s.keepers ∧ (atStep s).indexGen = s.indexGen ∧
    (atStep s).words = s.words ∧ (atStep s).journal = s.journal ∧ (atStep s).slices = s.slices ∧
    (atStep s).xi = s.xi ∧ (atStep s).seals = s.seals ∧ (atStep s).links = s.links ∧ (atStep s).bridges = s.bridges ∧
    (atStep s).partitions = s.partitions ∧ (atStep s).fenced = s.fenced ∧ (atStep s).moved = s.moved ∧
    (atStep s).coreCmds = s.coreCmds ∧ (atStep s).advances = s.advances ∧ (atStep s).owner = s.owner ∧
    (atStep s).log = s.log ∧ (atStep s).lossOpen = s.lossOpen ∧ (atStep s).subs = s.subs ∧
    (atStep s).transport = s.transport ∧ (atStep s).window = s.window ∧ (atStep s).entropy = s.entropy ∧
    (atStep s).debug = s.debug ∧ (atStep s).service = s.service ∧ (atStep s).substitute = s.substitute ∧
    (atStep s).unitState = s.unitState ∧ (atStep s).restarting = s.restarting ∧
    (atStep s).watchdogDue = s.watchdogDue ∧ (atStep s).drainsOwed = s.drainsOwed ∧ (atStep s).wrappers = s.wrappers ∧
    (atStep s).bins = s.bins ∧ (atStep s).replays = s.replays ∧ (atStep s).driftAge = s.driftAge ∧
    (atStep s).power = s.power :=
  by and_intros <;> rfl

/-- A station reads as it was written. -/
@[simp] theorem station_setStation_same (s : State) (n : Nat) (st : Station) : station (setStation s n st) n = st := by
  simp [station, setStation, tgetD]

/-- Every other station is left alone. -/
theorem station_setStation_other (s : State) (n m : Nat) (st : Station) (h : m ≠ n) :
    station (setStation s n st) m = station s m := by
  simp [station, setStation, tgetD, tget_tput_other _ _ _ _ h]

/-- A station that changes. -/
@[simp] theorem station_onStation_same (s : State) (n : Nat) (f : Station → Station) :
    station (onStation s n f) n = f (station s n) := by simp [onStation]

/-- A change of one station leaves every other alone. -/
theorem station_onStation_other (s : State) (n m : Nat) (f : Station → Station) (h : m ≠ n) :
    station (onStation s n f) m = station s m := station_setStation_other s n m _ h

/-- An object reads as it was written. -/
@[simp] theorem objAt_setObj_same (s : State) (n i : Nat) (o : Obj) : objAt (setObj s n i o) n i = some o := by
  simp [objAt, setObj]

/-- Every other object is left alone. -/
theorem objAt_setObj_other (s : State) (n i m k : Nat) (o : Obj) (h : (m, k) ≠ (n, i)) :
    objAt (setObj s n i o) m k = objAt s m k := by
  by_cases hm : m = n
  · subst hm
    have hk : k ≠ i := fun e => h (by rw [e])
    simp [objAt, setObj, tget_tput_other _ _ _ _ hk]
  · simp [objAt, setObj, station_onStation_other _ _ _ _ hm]

/-- A dictionary value reads as it was written. -/
@[simp] theorem setting_setSetting_same (s : State) (k v : Nat) : setting (setSetting s k v) k = v := by
  simp [setting, setSetting, tgetD]

/-- Every other dictionary value is left alone. -/
theorem setting_setSetting_other (s : State) (k k' v : Nat) (h : k' ≠ k) :
    setting (setSetting s k v) k' = setting s k' := by
  simp [setting, setSetting, tgetD, tget_tput_other _ _ _ _ h]

/-- A function reads as it was written. -/
@[simp] theorem fnOf_setFn_same (s : State) (f : Nat) (x : Fn) : fnOf (setFn s f x) f = x := by
  simp [fnOf, setFn, tgetD]

/-- Every other function is left alone. -/
theorem fnOf_setFn_other (s : State) (f g : Nat) (x : Fn) (h : g ≠ f) : fnOf (setFn s f x) g = fnOf s g := by
  simp [fnOf, setFn, tgetD, tget_tput_other _ _ _ _ h]

/-- A link port reads as it was written. -/
@[simp] theorem linkAt_setLink_same (s : State) (p : Nat) (l : Link) : linkAt (setLink s p l) p = l := by
  simp [linkAt, setLink, tgetD]

/-- A slice reads as it was written. -/
@[simp] theorem sliceAt_setSlice_same (s : State) (j : Nat) (l : Slice) : sliceAt (setSlice s j l) j = l := by
  simp [sliceAt, setSlice, tgetD]

/-- A partition reads as it was changed. -/
@[simp] theorem partAt_onPart_same (s : State) (p : Nat) (f : Partition → Partition) :
    partAt (onPart s p f) p = f (partAt s p) := by simp [partAt, onPart, tgetD]

/-- Transfers are added to the outputs, and nothing else changes. -/
theorem drive_outputs (s : State) (l : List Output) : ∃ o, drive s l = { s with outputs := o } := by
  unfold drive; split
  · exact ⟨s.outputs, rfl⟩
  · exact ⟨_, rfl⟩

/-- Room in the event log is made in the log and its counter alone. -/
theorem logRoom_log {s t : State} (h : logRoom s = some t) : ∃ d l, t = { s with dict := d, log := l } := by
  unfold logRoom at h
  repeat' split at h
  all_goals first | cases h; exact ⟨_, _, rfl⟩ | cases h

/-- An event changes the log and its counters alone. -/
theorem raise_log (s : State) (code : Nat) (record : BitVec 256) :
    ∃ d l b, raise s code record = { s with dict := d, log := l, lossOpen := b } := by
  unfold raise
  split
  · rename_i t h
    obtain ⟨d, l, rfl⟩ := logRoom_log h
    exact ⟨_, _, s.lossOpen, rfl⟩
  · exact ⟨_, s.log, true, rfl⟩

/-- Counting corrected words changes the dictionary and the event log alone. -/
theorem correctedWords_log (kind k : Nat) : ∀ s : State,
    ∃ d l b, correctedWords s kind k = { s with dict := d, log := l, lossOpen := b } := by
  induction k with
  | zero => exact fun s => ⟨s.dict, s.log, s.lossOpen, rfl⟩
  | succ k ih =>
    intro s
    obtain ⟨d, l, b, e⟩ := ih (countCorrected s kind)
    rw [correctedWords, e]
    unfold countCorrected
    dsimp only
    split
    · obtain ⟨d', l', b', e'⟩ := raise_log (bump s (0x410200 + kind)) 0x70
        (generic (correctedSum (bump s (0x410200 + kind))) 0 0 0 0)
      exact ⟨d, l, b, by rw [e']; rfl⟩
    · exact ⟨d, l, b, rfl⟩

/-- A record's reception changes the outputs, the dictionary and the event log alone. -/
theorem recordReceived_log (s : State) (r : OpRec) :
    ∃ o d l b, recordReceived s r = { s with outputs := o, dict := d, log := l, lossOpen := b } := by
  obtain ⟨d, l, b, e⟩ := correctedWords_log 3 r.corrected
    (creditsBack s (.xpRequest r.station (r.initId.toNat % 2)) (if r.wide then 2 else 1))
  obtain ⟨o, e'⟩ := drive_outputs s (List.replicate (if r.wide then 2 else 1)
    (.credit (.xpRequest r.station (r.initId.toNat % 2))))
  exact ⟨o, d, l, b, by rw [recordReceived, e, creditsBack, e']⟩

end Sys2Proof.Machine
end

