-- ==== Sys2Proof/Laws/Handles.lean ====
section
/-!
SUPPORT. The check tag is a free value (log entry 1), so that a record that passes check 6 is made by giving its handle the
tag that the engine gives it: what such a handle and such a record are, said once.
-/

open Sys2Proof Sys2Proof.Machine
namespace Sys2Proof.Machine

/-- A handle with the check tag that the engine gives it in a state (R62). -/
def tagged (s : State) (h : Word) : Word := Handle.hi h ++ (tagOf s (Handle.hi h) ++ h.extractLsb' 0 8)

theorem tagged_toNat (s : State) (h : Word) :
    (tagged s h).toNat = h.toNat / 2 ^ 24 * 2 ^ 24 + (tagOf s (Handle.hi h)).toNat * 2 ^ 8 + h.toNat % 2 ^ 8 := by
  have a := (tagOf s (Handle.hi h)).isLt
  have b := h.isLt
  simp only [tagged, BitVec.toNat_append]
  have l : (h.extractLsb' 0 8).toNat < 2 ^ 8 := BitVec.isLt _
  rw [← Nat.shiftLeft_add_eq_or_of_lt l]
  rw [← Nat.shiftLeft_add_eq_or_of_lt (show _ < 2 ^ (16 + 8) by rw [Nat.shiftLeft_eq]; omega)]
  simp only [Handle.hi, BitVec.extractLsb'_toNat, Nat.shiftRight_eq_div_pow, Nat.shiftLeft_eq]
  omega

theorem tagged_high (s : State) (h : Word) : (tagged s h).toNat / 2 ^ 24 = h.toNat / 2 ^ 24 := by
  have a := (tagOf s (Handle.hi h)).isLt
  rw [tagged_toNat]; omega

theorem tagged_above (s : State) (h : Word) (k : Nat) :
    (tagged s h).toNat / 2 ^ (24 + k) = h.toNat / 2 ^ (24 + k) := by
  rw [Nat.pow_add, ← Nat.div_div_eq_div_mul, ← Nat.div_div_eq_div_mul, tagged_high]

theorem tagged_fields (s : State) (h : Word) :
    Handle.hi (tagged s h) = Handle.hi h ∧ Handle.fn (tagged s h) = Handle.fn h ∧ Handle.cls (tagged s h) = Handle.cls h ∧
    Handle.index (tagged s h) = Handle.index h ∧ Handle.sel (tagged s h) = Handle.sel h ∧
    Handle.tag (tagged s h) = tagOf s (Handle.hi h) := by
  have a := (tagOf s (Handle.hi h)).isLt
  have b := tagged_high s h
  have c := tagged_toNat s h
  refine ⟨?_, ?_, ?_, ?_, ?_, ?_⟩
  · apply BitVec.eq_of_toNat_eq
    simp only [Handle.hi, BitVec.extractLsb'_toNat, Nat.shiftRight_eq_div_pow, b]
  · simp only [Handle.fn, bits]; rw [show (52 : Nat) = 24 + 28 from rfl, tagged_above]
  · simp only [Handle.cls, bits]; rw [show (38 : Nat) = 24 + 14 from rfl, tagged_above]
  · simp only [Handle.index, bits]; rw [b]
  · simp only [Handle.sel, bits]; omega
  · apply BitVec.eq_of_toNat_eq
    simp only [Handle.tag, BitVec.extractLsb'_toNat, Nat.shiftRight_eq_div_pow]
    omega

/-- A record whose handle has the check tag that its object has. -/
def withTag (s : State) (r : OpRec) : OpRec := { r with handle := tagged s r.handle }

theorem tagOf_noticed (s : State) (r : OpRec) (hi : BitVec 40) : tagOf (noticed r s) hi = tagOf s hi := by
  obtain ⟨o, d, l, x, e⟩ := recordReceived_log s r
  have a : (recordReceived s r).tagKey = s.tagKey := by rw [e]
  have b : (recordReceived s r).fns = s.fns := by rw [e]
  simp [tagOf, fnOf, noticed, bump, bumpBy, a, b]

/-- Checks 1 to 6 of a record whose handle has its tag. -/
theorem check_withTag {op : Opcode} {r : OpRec} {s t : State} (ht : ∀ hi, tagOf s hi = tagOf t hi)
    (c : functionRefusal s op r = none) (d : recordRefusal op r = none) (e : op.creates = false) (f : op.cls ≠ .none)
    (g : Handle.fn r.handle = r.fnStamp.toNat) (i : selectorDefined (Handle.cls r.handle) = true ∨ Handle.sel r.handle = 0) :
    checkRefusal s op (withTag t r) = none := by
  obtain ⟨k1, k2, k3, k4, k5, k6⟩ := tagged_fields t r.handle
  have c' : functionRefusal s op (withTag t r) = none := c
  have d' : recordRefusal op (withTag t r) = none := by
    rw [← d]
    simp only [recordRefusal, withTag, k3]
    cases hc : op.cls <;> simp_all
  simp only [checkRefusal, c', d', handleRefusal, e, f]
  have : tagOk s (tagged t r.handle) = true := by
    simp [tagOk, k6, k1, ht]
  rw [show (withTag t r).handle = tagged t r.handle from rfl, this, k2, k3, k5,
    show (withTag t r).fnStamp = r.fnStamp from rfl]
  rcases i with i | i <;> simp [g, i]

theorem ready_withTag {op : Opcode} {r : OpRec} {s : State}
    (h : Reaches r s ∧ IsMine r s ∧ functionRefusal (noticed r s) op r = none ∧ recordRefusal op r = none ∧
      op.creates = false ∧ op.cls ≠ .none ∧ Handle.fn r.handle = r.fnStamp.toNat ∧
      (selectorDefined (Handle.cls r.handle) = true ∨ Handle.sel r.handle = 0) ∧
      256 ≤ bucketNow (noticed r s) r.station r.fnStamp.toNat ∧ r.busy = false ∧
      (station (noticed r s) r.station).budget = [] ∧ (station (noticed r s) r.station).excess = []) :
    Ready op (withTag s r) s := by
  refine ⟨h.1, h.2.1, check_withTag (fun hi => tagOf_noticed s r hi) h.2.2.1 h.2.2.2.1 h.2.2.2.2.1 h.2.2.2.2.2.1 h.2.2.2.2.2.2.1
    h.2.2.2.2.2.2.2.1, h.2.2.2.2.2.2.2.2.1, ?_⟩
  have a : (admOf op (withTag s r)).n = r.station := rfl
  obtain ⟨b, c, d⟩ := h.2.2.2.2.2.2.2.2.2
  have e : noticed (withTag s r) s = noticed r s := rfl
  have f : (withTag s r).busy = false := b
  simp [waitsTurn, a, e, f, c, d]

theorem meetsHere_withTag {op : Opcode} {r : OpRec} {s : State} {o : Obj} (h : Ready op (withTag s r) s)
    (b : homeOf (admitted r s) r.station (Handle.index r.handle) = r.station ∧
      Meets (travelling op r (admitted r s) 0) (opened op (withTag s r) (admitted r s) none) r.station o) :
    MeetsHere op (withTag s r) s o := by
  obtain ⟨k1, k2, k3, k4, k5, k6⟩ := tagged_fields s r.handle
  refine ⟨h, ?_, ?_⟩
  · rw [show (withTag s r).handle = tagged s r.handle from rfl, k4]; exact b.1
  · obtain ⟨m1, m2, m3, m4, m5, m6, m7⟩ := b.2
    simp only [travelling] at m1 m2 m5 m6
    simp only [weirLeaves, travelling] at m7
    generalize hv : opened op (withTag s r) (admitted r s) none = v at m1 m2 m5 m6 m7
    have h1 : (fnOf (v) (Handle.fn (tagged s r.handle))).state = .enabled := by rw [k2]; exact m1
    have h2 : liveObj (v) r.station (tagged s r.handle) = some o := by
      rw [← m2]; simp only [liveObj, k1, k4]
    have h5 : leaving (v) r.station (Handle.index (tagged s r.handle)) = false := by
      rw [k4]; exact m5
    have h6 : coming (v) r.station (Handle.index (tagged s r.handle)) = false := by
      rw [k4]; exact m6
    have h7 : weirLeaves (v) r.station (travelling op (withTag s r) (admitted r s) 0) = false := by
      simp only [weirLeaves, travelling, show (withTag s r).handle = tagged s r.handle from rfl, h2]
      rw [m2] at m7; exact m7
    rw [← hv] at h1 h2 h5 h6 h7
    exact ⟨h1, h2, m3, m4, h5, h6, h7⟩

theorem waitsHere_withTag {op : Opcode} {r : OpRec} {s : State} {o : Obj} (h : Ready op (withTag s r) s)
    (b : WaitRoom r s ∧ homeOf (admitted r s) r.station (Handle.index r.handle) = r.station ∧
      Meets (waitingOp op r s r.station) (waiting op (withTag s r) s r.station) r.station o) :
    WaitsHere op (withTag s r) s o := by
  obtain ⟨k1, k2, k3, k4, k5, k6⟩ := tagged_fields s r.handle
  refine ⟨h, b.1, ?_, ?_⟩
  · rw [show (withTag s r).handle = tagged s r.handle from rfl, k4]; exact b.2.1
  · obtain ⟨m1, m2, m3, m4, m5, m6, m7⟩ := b.2.2
    simp only [waitingOp, travelling] at m1 m2 m5 m6
    simp only [weirLeaves, waitingOp, travelling] at m7
    generalize hv : waiting op (withTag s r) s r.station = v at m1 m2 m5 m6 m7
    have h1 : (fnOf v (Handle.fn (tagged s r.handle))).state = .enabled := by rw [k2]; exact m1
    have h2 : liveObj v r.station (tagged s r.handle) = some o := by
      rw [← m2]; simp only [liveObj, k1, k4]
    have h5 : leaving v r.station (Handle.index (tagged s r.handle)) = false := by rw [k4]; exact m5
    have h6 : coming v r.station (Handle.index (tagged s r.handle)) = false := by rw [k4]; exact m6
    have h7 : weirLeaves v r.station (waitingOp op (withTag s r) s r.station) = false := by
      simp only [weirLeaves, waitingOp, travelling, show (withTag s r).handle = tagged s r.handle from rfl, h2]
      rw [m2] at m7; exact m7
    rw [← hv] at h1 h2 h5 h6 h7
    exact ⟨h1, h2, m3, m4, h5, h6, h7⟩

end Sys2Proof.Machine
end

