-- ==== Sys2Proof/Laws/Hosts.lean ====
section
/-!
SUPPORT. What a host's request does, said once: a request that is taken acts on the state in which its command is asked, and
an owner's write that the entry takes is answered OK.
-/

namespace Sys2Proof.Machine

/-- A request that is taken acts. -/
theorem admitRequest_admits (s : State) (host command : Nat) (regs : Window → Window) (claims : Bool) (f : State → State)
    (h : Admits host s) : admitRequest s host command regs claims f = f (asked s host command regs) := by
  obtain ⟨h1, h2, h3, h4, h5⟩ := h
  have h6 : ¬ (host = 0x200 ∧ ((ownerDue s).window.go = true ∨ requestOpen (ownerDue s) host = true)) := by
    rintro ⟨a, b | b⟩ <;> simp_all
  unfold admitRequest
  rw [if_neg h2, if_neg (by rw [h3]; decide)]
  dsimp only
  rw [if_neg h6, if_neg (by rw [h4]; exact Bool.false_ne_true)]
  rfl

/-- A write of the owner that its entry takes. -/
theorem writesNumber_ok (q : HostReq) (index sub n v : Nat) (s t u : State) (row : EntryRow)
    (h : OwnerWrites q index sub n v s t) (hf : FnTurn t (BitVec.ofNat 16 index).toNat)
    (hr : writeRow t q ⟨BitVec.ofNat 16 index, BitVec.ofNat 8 sub, 0, n⟩ (bytesLE n v) = .inr row)
    (hw : entryWrites t q row ⟨BitVec.ofNat 16 index, BitVec.ofNat 8 sub, 0, n⟩ (bytesLE n v) = (u, some .ok)) :
    fromHost s q.host (fun t => writesNumber t q index sub n v) = .next (settled (wrote q u)) := by
  obtain ⟨h1, h2, _⟩ := h
  unfold writing at h2
  simp only [fromHost, h1.1, if_true, conclude, writesNumber, writes]
  have hb : ((entryFn (BitVec.ofNat 16 index).toNat).isSome && fnBusy t) = false := by
    cases h3 : (entryFn (BitVec.ofNat 16 index).toNat).isSome
    · rfl
    · simpa [h3] using hf h3
  rw [admitRequest_admits _ _ _ _ _ _ h1, ← h2, hr]
  simp only [hb, Bool.false_eq_true, if_false, hw, wrote]

end Sys2Proof.Machine
end

