-- ==== Sys2Proof/Laws/Messages.lean ====
section
/-!
SUPPORT. What the arrival of a course message does, said once: the message leaves the course, the station is at work, and the
meaning of the message's body takes effect.
-/

namespace Sys2Proof.Machine

/-- A message that a station takes has its body's meaning. -/
theorem arrives_takes (s : State) (src dst : Nat) (b : MsgBody) (rest : List Msg) (f : State → MsgBody → Option State)
    (u : State) (c : Nat) (hc : b.cls = c) (h : TakesMsg s src dst b rest) (hf : f (taken s dst rest) b = some u) :
    arrives s src dst c f = .next (settled u) := by
  subst hc
  obtain ⟨h1, h2⟩ := h
  have h3 : f (touch { s with course := rest } dst) b = some u := hf
  simp [arrives, h1, h2, h3, conclude]

/-- The same for a message that does not wake its station. -/
theorem arrives_asleep (s : State) (src dst : Nat) (b : MsgBody) (rest : List Msg) (f : State → MsgBody → Option State)
    (u : State) (c : Nat) (hc : b.cls = c) (h : ReachesMsg s src dst b rest) (hf : f { s with course := rest } b = some u) :
    arrives s src dst c f true = .next (settled u) := by
  subst hc
  obtain ⟨h1, h2⟩ := h
  simp [arrives, h1, h2, hf, conclude]

/-- What an awake station takes reaches it. -/
theorem TakesMsg.reaches (s : State) (src dst : Nat) (b : MsgBody) (rest : List Msg) (h : TakesMsg s src dst b rest) :
    ReachesMsg s src dst b rest := by
  obtain ⟨h1, h2⟩ := h
  refine ⟨?_, h2⟩
  simp only [takesNow, Bool.or_eq_true] at h1 ⊢
  simp_all

/-- A message to an object whose home is here, and which is not moving, is the home's step on it. -/
theorem homeMsg_here (s : State) (n : Nat) (h : Word) (b : MsgBody) (f : State → State) (hh : HomeHere s n h) :
    homeMsg s n h b f = some (homeStep s n (Handle.hi h) f) := by
  obtain ⟨h1, h2, h3⟩ := hh
  simp [homeMsg, atObject, h1, h2, h3]

/-- A home's step is decided by its effect on the state in which the step begins. -/
theorem homeStep_eq (s : State) (n : Nat) (hi : BitVec 40) (f : State → State) :
    homeStep s n hi f = homeStep s n hi fun _ => f (atStep s) := rfl

end Sys2Proof.Machine
end

