-- ==== Sys2Proof/Laws/PerInstr.lean ====
section
/-!
SUPPORT. One lemma per command: each is followed by the state that it was given, or by a settled one.
-/

namespace Sys2Proof.Laws.Answers

open Sys2Proof.Machine

/-- A command leaves the state as it is, or is followed by a settled state: no fault, no refusal. -/
def Statement (i : Instr) : Prop := ∀ s, exec i s = .next s ∨ ∃ u, exec i s = .next (settled u)

/-- The arrival of a course message answers so, whatever the message does. -/
theorem arrives_answers (s : State) (src dst cls : Nat) (f : State → MsgBody → Option State) (asleep : Bool) :
    arrives s src dst cls f asleep = .next s ∨ ∃ u, arrives s src dst cls f asleep = .next (settled u) := by
  unfold arrives
  split
  · split
    · dsimp only
      split
      · exact .inr ⟨_, rfl⟩
      · exact .inl rfl
    · exact .inl rfl
  · exact .inl rfl

/-- A command that is such an arrival answers so. -/
theorem of_arrives {i : Instr} {s : State} {src dst cls : Nat} {f : State → MsgBody → Option State} {asleep : Bool}
    {x : Host.Outcome State Fault Refusal} (h : exec i s = x) (h' : x = arrives s src dst cls f asleep) :
    exec i s = .next s ∨ ∃ u, exec i s = .next (settled u) := by
  rw [h, h']
  exact arrives_answers s src dst cls f asleep

/-- A command about a caravan answers so where it does for one that a link brings and for one that crosses the course. -/
theorem of_carried {f : Carried → Instr} (u : Carried) (h1 : ∀ c, Statement (f (.link c)))
    (h2 : ∀ a b, Statement (f (.course a b))) : Statement (f u) := by
  cases u
  · exact h1 _
  · exact h2 _ _

theorem nop (r) : Statement (.nop r) := fun _ => .inr ⟨_, rfl⟩
theorem cancel (r) : Statement (.cancel r) := fun _ => .inr ⟨_, rfl⟩
theorem destroy (r) : Statement (.destroy r) := fun _ => .inr ⟨_, rfl⟩
theorem ctrCreate (r) : Statement (.ctrCreate r) := fun _ => .inr ⟨_, rfl⟩
theorem ctrAdd (r) : Statement (.ctrAdd r) := fun _ => .inr ⟨_, rfl⟩
theorem ctrSub (r) : Statement (.ctrSub r) := fun _ => .inr ⟨_, rfl⟩
theorem ctrSet (r) : Statement (.ctrSet r) := fun _ => .inr ⟨_, rfl⟩
theorem ctrRead (r) : Statement (.ctrRead r) := fun _ => .inr ⟨_, rfl⟩
theorem ctrAcquire (r) : Statement (.ctrAcquire r) := fun _ => .inr ⟨_, rfl⟩
theorem ctrWaitGe (r) : Statement (.ctrWaitGe r) := fun _ => .inr ⟨_, rfl⟩
theorem weirCreate (r) : Statement (.weirCreate r) := fun _ => .inr ⟨_, rfl⟩
theorem weirArrive (r) : Statement (.weirArrive r) := fun _ => .inr ⟨_, rfl⟩
theorem weirWait (r) : Statement (.weirWait r) := fun _ => .inr ⟨_, rfl⟩
theorem weirArriveWait (r) : Statement (.weirArriveWait r) := fun _ => .inr ⟨_, rfl⟩
theorem weirRead (r) : Statement (.weirRead r) := fun _ => .inr ⟨_, rfl⟩
theorem weirPolicy (r) : Statement (.weirPolicy r) := fun _ => .inr ⟨_, rfl⟩
theorem landCreate (r) : Statement (.landCreate r) := fun _ => .inr ⟨_, rfl⟩
theorem landExpect (r) : Statement (.landExpect r) := fun _ => .inr ⟨_, rfl⟩
theorem landWait (r) : Statement (.landWait r) := fun _ => .inr ⟨_, rfl⟩
theorem landRead (r) : Statement (.landRead r) := fun _ => .inr ⟨_, rfl⟩
theorem landSeal (r) : Statement (.landSeal r) := fun _ => .inr ⟨_, rfl⟩
theorem landRenew (r) : Statement (.landRenew r) := fun _ => .inr ⟨_, rfl⟩
theorem qCreate (r) : Statement (.qCreate r) := fun _ => .inr ⟨_, rfl⟩
theorem qPush (r) : Statement (.qPush r) := fun _ => .inr ⟨_, rfl⟩
theorem qPop (r) : Statement (.qPop r) := fun _ => .inr ⟨_, rfl⟩
theorem qMark (r) : Statement (.qMark r) := fun _ => .inr ⟨_, rfl⟩
theorem qRewind (r) : Statement (.qRewind r) := fun _ => .inr ⟨_, rfl⟩
theorem qRelease (r) : Statement (.qRelease r) := fun _ => .inr ⟨_, rfl⟩
theorem qToll (r) : Statement (.qToll r) := fun _ => .inr ⟨_, rfl⟩
theorem qRead (r) : Statement (.qRead r) := fun _ => .inr ⟨_, rfl⟩
theorem qPolicy (r) : Statement (.qPolicy r) := fun _ => .inr ⟨_, rfl⟩
theorem frCreate (r) : Statement (.frCreate r) := fun _ => .inr ⟨_, rfl⟩
theorem frArm (r) : Statement (.frArm r) := fun _ => .inr ⟨_, rfl⟩
theorem frDisarm (r) : Statement (.frDisarm r) := fun _ => .inr ⟨_, rfl⟩
theorem frRead (r) : Statement (.frRead r) := fun _ => .inr ⟨_, rfl⟩
theorem loadReport (r) : Statement (.loadReport r) := fun _ => .inr ⟨_, rfl⟩
theorem skCreate (r) : Statement (.skCreate r) := fun _ => .inr ⟨_, rfl⟩
theorem skReport (r) : Statement (.skReport r) := fun _ => .inr ⟨_, rfl⟩
theorem skRead (r) : Statement (.skRead r) := fun _ => .inr ⟨_, rfl⟩
theorem skExport (r) : Statement (.skExport r) := fun _ => .inr ⟨_, rfl⟩
theorem skImport (r) : Statement (.skImport r) := fun _ => .inr ⟨_, rfl⟩
theorem skPolicy (r) : Statement (.skPolicy r) := fun _ => .inr ⟨_, rfl⟩
theorem bcnCreate (r) : Statement (.bcnCreate r) := fun _ => .inr ⟨_, rfl⟩
theorem bcnWrite (r) : Statement (.bcnWrite r) := fun _ => .inr ⟨_, rfl⟩
theorem bcnRead (r) : Statement (.bcnRead r) := fun _ => .inr ⟨_, rfl⟩
theorem beaconRead (a) : Statement (.beaconRead a) := fun _ => .inr ⟨_, rfl⟩
theorem apertureError (station) (aux) (initId) (xtag) (why) : Statement (.apertureError station aux initId xtag why) := fun _ => .inr ⟨_, rfl⟩
theorem forwardedOperation (src) (dst) : Statement (.forwardedOperation src dst) := fun _ => of_arrives (x := execForwardedOperation src dst _) rfl rfl
theorem operationResponse (src) (dst) : Statement (.operationResponse src dst) := fun _ => of_arrives (x := execOperationResponse src dst _) rfl rfl
theorem chartCommit (src) (dst) : Statement (.chartCommit src dst) := fun _ => of_arrives (x := execChartCommit src dst _) rfl rfl
theorem wakeRequest (src) (dst) : Statement (.wakeRequest src dst) := fun _ => of_arrives (x := execWakeRequest src dst _) rfl rfl
theorem withdrawal (src) (dst) : Statement (.withdrawal src dst) := fun _ => of_arrives (x := execWithdrawal src dst _) rfl rfl
theorem waitTimeout (station) (wait) : Statement (.waitTimeout station wait) := fun _ => .inr ⟨_, rfl⟩
theorem pushMessage (station) : Statement (.pushMessage station) := fun _ => .inr ⟨_, rfl⟩
theorem pushCreditReturn (station) (agent) (beats) (rsv) (parityBad) : Statement (.pushCreditReturn station agent beats rsv parityBad) := fun _ => .inr ⟨_, rfl⟩
theorem beaconUpdate (src) (dst) : Statement (.beaconUpdate src dst) := fun _ => of_arrives (x := execBeaconUpdate src dst _) rfl rfl
theorem beaconUpdateAck (src) (dst) : Statement (.beaconUpdateAck src dst) := fun _ => of_arrives (x := execBeaconUpdateAck src dst _) rfl rfl
theorem weirSetup (src) (dst) : Statement (.weirSetup src dst) := fun _ => of_arrives (x := execWeirSetup src dst _) rfl rfl
theorem setupAcknowledgement (src) (dst) : Statement (.setupAcknowledgement src dst) := fun _ => of_arrives (x := execSetupAcknowledgement src dst _) rfl rfl
theorem combinedArrival (src) (dst) : Statement (.combinedArrival src dst) := fun _ => of_arrives (x := execCombinedArrival src dst _) rfl rfl
theorem epochCompletion (src) (dst) : Statement (.epochCompletion src dst) := fun _ => of_arrives (x := execEpochCompletion src dst _) rfl rfl
theorem weirSubscribe (src) (dst) : Statement (.weirSubscribe src dst) := fun _ => of_arrives (x := execWeirSubscribe src dst _) rfl rfl
theorem subscribeReply (src) (dst) : Statement (.subscribeReply src dst) := fun _ => of_arrives (x := execSubscribeReply src dst _) rfl rfl
theorem teardown (src) (dst) : Statement (.teardown src dst) := fun _ => of_arrives (x := execTeardown src dst _) rfl rfl
theorem teardownAck (src) (dst) : Statement (.teardownAck src dst) := fun _ => of_arrives (x := execTeardownAck src dst _) rfl rfl
theorem hintOverdue (station) (index) : Statement (.hintOverdue station index) := fun _ => .inr ⟨_, rfl⟩
theorem hintMax (station) : Statement (.hintMax station) := fun _ => .inr ⟨_, rfl⟩
theorem landingReport (p) : Statement (.landingReport p) := fun _ => .inr ⟨_, rfl⟩
theorem reportCredit (src) (dst) : Statement (.reportCredit src dst) := fun _ => of_arrives (x := execReportCredit src dst _) rfl rfl
theorem sealDeposit (src) (dst) : Statement (.sealDeposit src dst) := fun _ => of_arrives (x := execSealDeposit src dst _) rfl rfl
theorem sealRelease (src) (dst) : Statement (.sealRelease src dst) := fun _ => of_arrives (x := execSealRelease src dst _) rfl rfl
theorem sealDiscard (src) (dst) : Statement (.sealDiscard src dst) := fun _ => of_arrives (x := execSealDiscard src dst _) rfl rfl
theorem sealRegister (src) (dst) : Statement (.sealRegister src dst) := fun _ => of_arrives (x := execSealRegister src dst _) rfl rfl
theorem freeNotice (src) (dst) : Statement (.freeNotice src dst) := fun _ => of_arrives (x := execFreeNotice src dst _) rfl rfl
theorem idleTimeout (station) (index) : Statement (.idleTimeout station index) := fun _ => .inr ⟨_, rfl⟩
theorem spillSegment (src) (dst) : Statement (.spillSegment src dst) := fun _ => of_arrives (x := execSpillSegment src dst _) rfl rfl
theorem spillAccepted (src) (dst) : Statement (.spillAccepted src dst) := fun _ => of_arrives (x := execSpillAccepted src dst _) rfl rfl
theorem spillRefused (src) (dst) : Statement (.spillRefused src dst) := fun _ => of_arrives (x := execSpillRefused src dst _) rfl rfl
theorem spillRetry (station) (index) : Statement (.spillRetry station index) := fun _ => .inr ⟨_, rfl⟩
theorem refillRequest (src) (dst) : Statement (.refillRequest src dst) := fun _ => of_arrives (x := execRefillRequest src dst _) rfl rfl
theorem refillSegment (src) (dst) : Statement (.refillSegment src dst) := fun _ => of_arrives (x := execRefillSegment src dst _) rfl rfl
theorem reserveExtent (src) (dst) : Statement (.reserveExtent src dst) := fun _ => of_arrives (x := execReserveExtent src dst _) rfl rfl
theorem extentReserved (src) (dst) : Statement (.extentReserved src dst) := fun _ => of_arrives (x := execExtentReserved src dst _) rfl rfl
theorem releaseExtent (src) (dst) : Statement (.releaseExtent src dst) := fun _ => of_arrives (x := execReleaseExtent src dst _) rfl rfl
theorem ferryIssue (slice) (cls) : Statement (.ferryIssue slice cls) := fun _ => .inr ⟨_, rfl⟩
theorem xiResponse (x) : Statement (.xiResponse x) := fun _ => .inr ⟨_, rfl⟩
theorem ferrySlow (slice) (tag) : Statement (.ferrySlow slice tag) := fun _ => .inr ⟨_, rfl⟩
theorem compactionMove (slice) : Statement (.compactionMove slice) := fun _ => .inr ⟨_, rfl⟩
theorem shadowRecord (src) (dst) : Statement (.shadowRecord src dst) := fun _ => of_arrives (x := execShadowRecord src dst _) rfl rfl
theorem shadowRecordWritten (src) (dst) : Statement (.shadowRecordWritten src dst) := fun _ => of_arrives (x := execShadowRecordWritten src dst _) rfl rfl
theorem register (src) (dst) : Statement (.register src dst) := fun _ => of_arrives (x := execRegister src dst _) rfl rfl
theorem feedRegister (src) (dst) : Statement (.feedRegister src dst) := fun _ => of_arrives (x := execFeedRegister src dst _) rfl rfl
theorem registered (src) (dst) : Statement (.registered src dst) := fun _ => of_arrives (x := execRegistered src dst _) rfl rfl
theorem activate (src) (dst) : Statement (.activate src dst) := fun _ => of_arrives (x := execActivate src dst _) rfl rfl
theorem deactivate (src) (dst) : Statement (.deactivate src dst) := fun _ => of_arrives (x := execDeactivate src dst _) rfl rfl
theorem consume (src) (dst) : Statement (.consume src dst) := fun _ => of_arrives (x := execConsume src dst _) rfl rfl
theorem consumeDormant (src) (dst) : Statement (.consumeDormant src dst) := fun _ => of_arrives (x := execConsumeDormant src dst _) rfl rfl
theorem releaseWatch (src) (dst) : Statement (.releaseWatch src dst) := fun _ => of_arrives (x := execReleaseWatch src dst _) rfl rfl
theorem released (src) (dst) : Statement (.released src dst) := fun _ => of_arrives (x := execReleased src dst _) rfl rfl
theorem met (src) (dst) : Statement (.met src dst) := fun _ => of_arrives (x := execMet src dst _) rfl rfl
theorem lapsed (src) (dst) : Statement (.lapsed src dst) := fun _ => of_arrives (x := execLapsed src dst _) rfl rfl
theorem feedPush (src) (dst) : Statement (.feedPush src dst) := fun _ => of_arrives (x := execFeedPush src dst _) rfl rfl
theorem pushed (src) (dst) : Statement (.pushed src dst) := fun _ => of_arrives (x := execPushed src dst _) rfl rfl
theorem launch (src) (dst) : Statement (.launch src dst) := fun _ => of_arrives (x := execLaunch src dst _) rfl rfl
theorem launchAnswer (src) (dst) : Statement (.launchAnswer src dst) := fun _ => of_arrives (x := execLaunchAnswer src dst _) rfl rfl
theorem arriveAction (src) (dst) : Statement (.arriveAction src dst) := fun _ => of_arrives (x := execArriveAction src dst _) rfl rfl
theorem arriveRetry (station) (index) : Statement (.arriveRetry station index) := fun _ => .inr ⟨_, rfl⟩
theorem loadSubscribe (src) (dst) : Statement (.loadSubscribe src dst) := fun _ => of_arrives (x := execLoadSubscribe src dst _) rfl rfl
theorem digestPeriod (station) : Statement (.digestPeriod station) := fun _ => .inr ⟨_, rfl⟩
theorem digest (src) (dst) : Statement (.digest src dst) := fun _ => of_arrives (x := execDigest src dst _) rfl rfl
theorem migrateWindowEnd (station) : Statement (.migrateWindowEnd station) := fun _ => .inr ⟨_, rfl⟩
theorem migrationCopy (src) (dst) : Statement (.migrationCopy src dst) := fun _ => of_arrives (x := execMigrationCopy src dst _) rfl rfl
theorem copyAccepted (src) (dst) : Statement (.copyAccepted src dst) := fun _ => of_arrives (x := execCopyAccepted src dst _) rfl rfl
theorem rebind (src) (dst) : Statement (.rebind src dst) := fun _ => of_arrives (x := execRebind src dst _) rfl rfl
theorem rebindAck (src) (dst) : Statement (.rebindAck src dst) := fun _ => of_arrives (x := execRebindAck src dst _) rfl rfl
theorem migrationCommit (station) : Statement (.migrationCommit station) := fun _ => .inr ⟨_, rfl⟩
theorem flush (src) (dst) : Statement (.flush src dst) := fun _ => of_arrives (x := execFlush src dst _) rfl rfl
theorem forwardDone (src) (dst) : Statement (.forwardDone src dst) := fun _ => of_arrives (x := execForwardDone src dst _) rfl rfl
theorem caravanSend (port) : Statement (.caravanSend port) := fun _ => .inr ⟨_, rfl⟩
theorem ack (c) : Statement (.ack c) := fun _ => .inr ⟨_, rfl⟩
theorem ackDue (port) : Statement (.ackDue port) := fun _ => .inr ⟨_, rfl⟩
theorem retxTimeout (port) : Statement (.retxTimeout port) := fun _ => .inr ⟨_, rfl⟩
theorem credit (c) : Statement (.credit c) := fun _ => .inr ⟨_, rfl⟩
theorem resync (c) : Statement (.resync c) := fun _ => .inr ⟨_, rfl⟩
theorem bind (u) : Statement (.bind u) := of_carried (f := .bind) u (fun _ _ => .inr ⟨_, rfl⟩) fun a b s => of_arrives (x := caravanCrosses s a b _) rfl rfl
theorem bindReply (u) : Statement (.bindReply u) := of_carried (f := .bindReply) u (fun _ _ => .inr ⟨_, rfl⟩) fun a b s => of_arrives (x := caravanCrosses s a b _) rfl rfl
theorem bindRetry (station) (index) : Statement (.bindRetry station index) := fun _ => .inr ⟨_, rfl⟩
theorem weirUp (u) : Statement (.weirUp u) := of_carried (f := .weirUp) u (fun _ _ => .inr ⟨_, rfl⟩) fun a b s => of_arrives (x := caravanCrosses s a b _) rfl rfl
theorem weirDown (u) : Statement (.weirDown u) := of_carried (f := .weirDown) u (fun _ _ => .inr ⟨_, rfl⟩) fun a b s => of_arrives (x := caravanCrosses s a b _) rfl rfl
theorem op (u) (payload) : Statement (.op u payload) := of_carried (f := fun u => .op u payload) u (fun _ _ => .inr ⟨_, rfl⟩) fun a b s => of_arrives (x := caravanCrosses s a b _) rfl rfl
theorem reply (u) : Statement (.reply u) := of_carried (f := .reply) u (fun _ _ => .inr ⟨_, rfl⟩) fun a b s => of_arrives (x := caravanCrosses s a b _) rfl rfl
theorem tokens (u) : Statement (.tokens u) := of_carried (f := .tokens) u (fun _ _ => .inr ⟨_, rfl⟩) fun a b s => of_arrives (x := caravanCrosses s a b _) rfl rfl
theorem tokenAck (u) : Statement (.tokenAck u) := of_carried (f := .tokenAck) u (fun _ _ => .inr ⟨_, rfl⟩) fun a b s => of_arrives (x := caravanCrosses s a b _) rfl rfl
theorem bridgeOpSend (bridge) : Statement (.bridgeOpSend bridge) := fun _ => .inr ⟨_, rfl⟩
theorem bridgeTokensSend (bridge) : Statement (.bridgeTokensSend bridge) := fun _ => .inr ⟨_, rfl⟩
theorem linkReady (port) : Statement (.linkReady port) := fun _ => .inr ⟨_, rfl⟩
theorem linkNotReady (port) : Statement (.linkNotReady port) := fun _ => .inr ⟨_, rfl⟩
theorem linkLostTimeout (port) : Statement (.linkLostTimeout port) := fun _ => .inr ⟨_, rfl⟩
theorem read (q) (e) : Statement (.read q e) := fun _ => match e with | .entry _ => .inr ⟨_, rfl⟩ | .register _ => .inr ⟨_, rfl⟩
theorem write (q) (e) (data) : Statement (.write q e data) := fun _ => match e with | .entry _ => .inr ⟨_, rfl⟩ | .register _ => .inr ⟨_, rfl⟩
theorem enable (q) (fn) : Statement (.enable q fn) := fun _ => .inr ⟨_, rfl⟩
theorem disable (q) (fn) : Statement (.disable q fn) := fun _ => .inr ⟨_, rfl⟩
theorem shareWrite (q) (fn) (burst) (value) : Statement (.shareWrite q fn burst value) := fun _ => .inr ⟨_, rfl⟩
theorem drainStepDone (fn) : Statement (.drainStepDone fn) := fun _ => .inr ⟨_, rfl⟩
theorem flightWaitEnd (fn) : Statement (.flightWaitEnd fn) := fun _ => .inr ⟨_, rfl⟩
theorem sliceDrainDone (slice) (fn) : Statement (.sliceDrainDone slice fn) := fun _ => .inr ⟨_, rfl⟩
theorem heartbeatRead (partition) : Statement (.heartbeatRead partition) := fun _ => .inr ⟨_, rfl⟩
theorem partitionFreeze (q) (partition) : Statement (.partitionFreeze q partition) := fun _ => .inr ⟨_, rfl⟩
theorem partitionReady (q) (partition) : Statement (.partitionReady q partition) := fun _ => .inr ⟨_, rfl⟩
theorem partitionFault (partition) : Statement (.partitionFault partition) := fun _ => .inr ⟨_, rfl⟩
theorem interfaceReset (q) (phys) : Statement (.interfaceReset q phys) := fun _ => .inr ⟨_, rfl⟩
theorem interfaceResetAck (phys) (block) : Statement (.interfaceResetAck phys block) := fun _ => .inr ⟨_, rfl⟩
theorem interfaceResetTimeout (phys) : Statement (.interfaceResetTimeout phys) := fun _ => .inr ⟨_, rfl⟩
theorem captureEntry (src) (dst) : Statement (.captureEntry src dst) := fun _ => of_arrives (x := execCaptureEntry src dst _) rfl rfl
theorem captureLimit (partition) : Statement (.captureLimit partition) := fun _ => .inr ⟨_, rfl⟩
theorem fence (q) (phys) : Statement (.fence q phys) := fun _ => .inr ⟨_, rfl⟩
theorem fenceAck (phys) : Statement (.fenceAck phys) := fun _ => .inr ⟨_, rfl⟩
theorem fenceTimeout (phys) : Statement (.fenceTimeout phys) := fun _ => .inr ⟨_, rfl⟩
theorem unfence (q) (phys) : Statement (.unfence q phys) := fun _ => .inr ⟨_, rfl⟩
theorem unfenceAck (phys) : Statement (.unfenceAck phys) := fun _ => .inr ⟨_, rfl⟩
theorem prstAck (partition) : Statement (.prstAck partition) := fun _ => .inr ⟨_, rfl⟩
theorem partitionResetTimeout (partition) : Statement (.partitionResetTimeout partition) := fun _ => .inr ⟨_, rfl⟩
theorem reset (q) : Statement (.reset q) := fun _ => .inr ⟨_, rfl⟩
theorem clearOos (q) : Statement (.clearOos q) := fun _ => .inr ⟨_, rfl⟩
theorem engineReset : Statement (.engineReset) := fun _ => .inr ⟨_, rfl⟩
theorem mcWatchdogExpiry : Statement (.mcWatchdogExpiry) := fun _ => .inr ⟨_, rfl⟩
theorem restart (q) : Statement (.restart q) := fun _ => .inr ⟨_, rfl⟩
theorem mcResumed : Statement (.mcResumed) := fun _ => .inr ⟨_, rfl⟩
theorem mctpPacket (bytes) : Statement (.mctpPacket bytes) := fun _ => .inr ⟨_, rfl⟩
theorem setEndpointId (c) (eid) : Statement (.setEndpointId c eid) := fun _ => .inr ⟨_, rfl⟩
theorem getEndpointId (c) : Statement (.getEndpointId c) := fun _ => .inr ⟨_, rfl⟩
theorem getEndpointUuid (c) : Statement (.getEndpointUuid c) := fun _ => .inr ⟨_, rfl⟩
theorem getMctpVersionSupport (c) (messageType) : Statement (.getMctpVersionSupport c messageType) := fun _ => .inr ⟨_, rfl⟩
theorem getMessageTypeSupport (c) : Statement (.getMessageTypeSupport c) := fun _ => .inr ⟨_, rfl⟩
theorem getVendorDefinedMessageSupport (c) (selector) : Statement (.getVendorDefinedMessageSupport c selector) := fun _ => .inr ⟨_, rfl⟩
theorem mpPrivateRead (lastTaken) : Statement (.mpPrivateRead lastTaken) := fun _ => .inr ⟨_, rfl⟩
theorem ibiAnswer (accepted) : Statement (.ibiAnswer accepted) := fun _ => .inr ⟨_, rfl⟩
theorem ibiRetry : Statement (.ibiRetry) := fun _ => .inr ⟨_, rfl⟩
theorem claim (host) (priority) (nonce) : Statement (.claim host priority nonce) := fun _ => .inr ⟨_, rfl⟩
theorem claimWindowEnd : Statement (.claimWindowEnd) := fun _ => .inr ⟨_, rfl⟩
theorem renew (q) : Statement (.renew q) := fun _ => .inr ⟨_, rfl⟩
theorem release (q) : Statement (.release q) := fun _ => .inr ⟨_, rfl⟩
theorem handover (q) (target) : Statement (.handover q target) := fun _ => .inr ⟨_, rfl⟩
theorem accept (host) (offering) : Statement (.accept host offering) := fun _ => .inr ⟨_, rfl⟩
theorem leaseExpiry : Statement (.leaseExpiry) := fun _ => .inr ⟨_, rfl⟩
theorem handoverDeadline : Statement (.handoverDeadline) := fun _ => .inr ⟨_, rfl⟩
theorem subscribe (host) (mask) : Statement (.subscribe host mask) := fun _ => .inr ⟨_, rfl⟩
theorem event : Statement (.event) := fun _ => .inr ⟨_, rfl⟩
theorem eventAck (host) (sequence) : Statement (.eventAck host sequence) := fun _ => .inr ⟨_, rfl⟩
theorem eventSend (host) : Statement (.eventSend host) := fun _ => .inr ⟨_, rfl⟩
theorem eventRetry (host) : Statement (.eventRetry host) := fun _ => .inr ⟨_, rfl⟩
theorem unlock (q) : Statement (.unlock q) := fun _ => .inr ⟨_, rfl⟩
theorem unlockInstruction : Statement (.unlockInstruction) := fun _ => .inr ⟨_, rfl⟩
theorem lock (q) : Statement (.lock q) := fun _ => .inr ⟨_, rfl⟩
theorem lockInstruction : Statement (.lockInstruction) := fun _ => .inr ⟨_, rfl⟩
theorem drain (q) (kind) (number) : Statement (.drain q kind number) := fun _ => .inr ⟨_, rfl⟩
theorem test (q) (kind) (number) : Statement (.test q kind number) := fun _ => .inr ⟨_, rfl⟩
theorem return_ (q) (kind) (number) : Statement (.return_ q kind number) := fun _ => .inr ⟨_, rfl⟩
theorem powerOff (q) (kind) (number) : Statement (.powerOff q kind number) := fun _ => .inr ⟨_, rfl⟩
theorem powerOn (q) (kind) (number) : Statement (.powerOn q kind number) := fun _ => .inr ⟨_, rfl⟩
theorem serviceStepDone (failing) : Statement (.serviceStepDone failing) := fun _ => .inr ⟨_, rfl⟩
theorem serviceStepTimeout : Statement (.serviceStepTimeout) := fun _ => .inr ⟨_, rfl⟩
theorem clear (q) : Statement (.clear q) := fun _ => .inr ⟨_, rfl⟩
theorem aonResetRelease : Statement (.aonResetRelease) := fun _ => .inr ⟨_, rfl⟩
theorem aonReset : Statement (.aonReset) := fun _ => .inr ⟨_, rfl⟩
theorem clamp : Statement (.clamp) := fun _ => .inr ⟨_, rfl⟩
theorem fcAckRise : Statement (.fcAckRise) := fun _ => .inr ⟨_, rfl⟩
theorem fcClockLost : Statement (.fcClockLost) := fun _ => .inr ⟨_, rfl⟩
theorem pdAck (domain) (level) : Statement (.pdAck domain level) := fun _ => .inr ⟨_, rfl⟩
theorem pdAckTimeout (domain) : Statement (.pdAckTimeout domain) := fun _ => .inr ⟨_, rfl⟩
theorem entropyWord (word) : Statement (.entropyWord word) := fun _ => .inr ⟨_, rfl⟩
theorem entropyError : Statement (.entropyError) := fun _ => .inr ⟨_, rfl⟩
theorem entropyRetry : Statement (.entropyRetry) := fun _ => .inr ⟨_, rfl⟩
theorem dozeEntry (station) : Statement (.dozeEntry station) := fun _ => .inr ⟨_, rfl⟩
theorem stationWake (station) : Statement (.stationWake station) := fun _ => .inr ⟨_, rfl⟩
theorem towpathHoldExpiry (station) : Statement (.towpathHoldExpiry station) := fun _ => .inr ⟨_, rfl⟩
theorem scrubBurst (unit) (findings) : Statement (.scrubBurst unit findings) := fun _ => .inr ⟨_, rfl⟩
theorem courseReplay (station) (link) : Statement (.courseReplay station link) := fun _ => .inr ⟨_, rfl⟩
theorem calibrationWindow (khz) : Statement (.calibrationWindow khz) := fun _ => .inr ⟨_, rfl⟩
theorem extentReleased (src) (dst) : Statement (.extentReleased src dst) := fun _ => of_arrives (x := execExtentReleased src dst _) rfl rfl
theorem mcRestartTimeout : Statement (.mcRestartTimeout) := fun _ => .inr ⟨_, rfl⟩
theorem clampRelease : Statement (.clampRelease) := fun _ => .inr ⟨_, rfl⟩
theorem channelCreditReturn (c) : Statement (.channelCreditReturn c) := fun _ => .inr ⟨_, rfl⟩
theorem occupancySample : Statement (.occupancySample) := fun _ => .inr ⟨_, rfl⟩
theorem prstAckFall (partition) : Statement (.prstAckFall partition) := fun _ => .inr ⟨_, rfl⟩

end Sys2Proof.Laws.Answers
end

