-- ==== Sys2Proof/Laws/Records.lean ====
section
/-!
SUPPORT. What a record written to an op window does, said once: the command is the submission of its record; a record that
is ready is admitted; and an operation that meets its object at its own station runs on it there.
-/

namespace Sys2Proof.Machine

/-- A record's command submits it under its opcode. -/
theorem exec_recordCommand (op : Opcode) (r : OpRec) (s : State) :
    exec (recordCommand op r) s = .next (settled (submit s op r)) := by
  cases op <;> rfl

/-- A record that reaches its station is taken there. -/
theorem submit_reaches (op : Opcode) (r : OpRec) (s : State) (h : Reaches r s) :
    submit s op r = acceptOp (recordReceived s r) op r := by
  obtain ⟨h1, h2, h3, h4, h5⟩ := h
  have e : (RxItem.record op r).station = r.station := rfl
  simp [submit, presented, e, portHere, h1, h2, towpathFor, h3, h4, h5, stationTakes]

/-- A record that is its station's to check meets the checks, once it has been noticed. -/
theorem acceptOp_mine (op : Opcode) (r : OpRec) (s : State) (h : IsMine r s) :
    acceptOp (recordReceived s r) op r = match checkRefusal (noticed r s) op r with
      | some st => refuseAdm (noticed r s) (admOf op r) st
      | none => admitShare (noticed r s) (admOf op r) r.busy := by
  obtain ⟨h6, h7⟩ := h
  have e : (admOf op r).agent = r.agent.toNat := rfl
  obtain ⟨o, d, l, x, e0⟩ := recordReceived_log s r
  have e6 : (recordReceived s r).fenced = s.fenced := by rw [e0]
  have e7 : entryOf (recordReceived s r) r.agent.toNat = entryOf s r.agent.toNat := by rw [e0]; rfl
  simp only [entryIsMine] at h7
  simp only [acceptOp, e6, h6, e, entryIsMine, e7, h7, noticed]
  rfl

/-- A record that is ready passes check 8 and acts. -/
theorem submit_ready (op : Opcode) (r : OpRec) (s : State) (h : Ready op r s) :
    submit s op r = proceed (admitted r s) (admOf op r) := by
  obtain ⟨hr, hm, h8, h9, h10⟩ := h
  rw [submit_reaches op r s hr, acceptOp_mine op r s hm]
  have e1 : (admOf op r).n = r.station := rfl
  have e2 : (admOf op r).fn = r.fnStamp.toNat := rfl
  simp only [h8, admitShare, e1, e2, h9, h10, if_true, Bool.false_eq_true, if_false, admitted]

/-- The tracker does not change an object's body. -/
@[simp] theorem track_body (s : State) (o : Obj) (f : FwdOp) : (track s o f).body = o.body := by
  unfold track; split <;> rfl

/-- The tracker does not change an object's identity. -/
@[simp] theorem track_hi (s : State) (o : Obj) (f : FwdOp) : (track s o f).hi = o.hi := by
  unfold track; split <;> rfl

/-- The tracker does not change whether an object has failed. -/
@[simp] theorem track_failed (s : State) (o : Obj) (f : FwdOp) : (track s o f).failed = o.failed := by
  unfold track; split <;> rfl

/-- An operation that meets its object at its home runs on it, in a step of the home. -/
theorem opAtHome_meets (f : FwdOp) (s : State) (n : Nat) (o : Obj) (h : Meets f s n o)
    (hc : f.op.creates = false) (hx : f.op ≠ .cancel) :
    opAtHome s n f = atObjectHome f s n o fun t o' => runOn t n o' f := by
  obtain ⟨h1, h2, h3, h4, h5, h6, h7⟩ := h
  simp only [opAtHome, hc, h5, h6, h7, Bool.false_eq_true, if_false, homeExec, h2, h4, Bool.and_false, Bool.or_self]
  unfold atObjectHome homeStep
  have e1 : stateRefusal { s with shadowDue := [] } (Handle.fn f.handle) = none := by
    have : (fnOf { s with shadowDue := [] } (Handle.fn f.handle)).state = .enabled := h1
    simp only [stateRefusal, this]
  have e2 : liveObj { s with shadowDue := [] } n f.handle = some o := h2
  simp only [runOp, e1, hc, e2, hx, if_false, Bool.false_eq_true]

/-- Opcodes whose operation goes to its object's home and takes no waiter record. -/
def ordinary (op : Opcode) : Bool :=
  !op.creates && !op.waits && op != .nop && op != .loadReport && op != .cancel && op != .weirArrive && op != .skReport

/-- A record of such an opcode that meets its object at its own station runs on it. -/
theorem exec_meetsHere (op : Opcode) (r : OpRec) (s : State) (o : Obj) (ho : ordinary op = true)
    (h : MeetsHere op r s o) :
    exec (recordCommand op r) s = .next (settled (doneHere op r s o fun t o' f => runOn t r.station o' f)) := by
  obtain ⟨h1, h2, h3⟩ := h
  rw [exec_recordCommand, submit_ready op r s h1]
  have key : proceed (admitted r s) (admOf op r) = toHome (admitted r s) (admOf op r) := by
    cases op <;> simp [ordinary, Opcode.creates, Opcode.waits] at ho <;> rfl
  have hc : op.creates = false := by cases op <;> simp [ordinary, Opcode.creates, Opcode.waits] at ho <;> rfl
  have hw : op.waits = false := by cases op <;> simp [ordinary, Opcode.creates, Opcode.waits] at ho <;> rfl
  have hx : op ≠ .cancel := by rintro rfl; simp [ordinary, Opcode.creates, Opcode.waits] at ho
  rw [key]
  have e1 : (admOf op r).op = op := rfl
  have e2 : homeOf (admitted r s) (admOf op r).n (Handle.index (admOf op r).handle) = r.station := h2
  simp only [toHome, e1, hw, Bool.false_eq_true, if_false, forwardAdm, e2]
  have e3 : (admOf op r).n = r.station := rfl
  simp only [e3, if_true]
  exact congrArg _ (congrArg _ (opAtHome_meets _ _ _ _ h3 hc hx))

/-- The same for an opcode that waits at its object's home. -/
theorem exec_waitsHere (op : Opcode) (r : OpRec) (s : State) (o : Obj)
    (ho : op = .ctrAcquire ∨ op = .ctrWaitGe ∨ op = .landWait ∨ op = .qPop ∨ op = .qToll)
    (h : WaitsHere op r s o) :
    exec (recordCommand op r) s = .next (settled (waitedHere op r s o fun t o' f => runOn t r.station o' f)) := by
  obtain ⟨h1, h4, h2, h3⟩ := h
  rw [exec_recordCommand, submit_ready op r s h1]
  have key : proceed (admitted r s) (admOf op r) = toHome (admitted r s) (admOf op r) := by
    rcases ho with rfl | rfl | rfl | rfl | rfl <;> rfl
  have hc : op.creates = false := by rcases ho with rfl | rfl | rfl | rfl | rfl <;> rfl
  have hw : op.waits = true := by rcases ho with rfl | rfl | rfl | rfl | rfl <;> rfl
  have hx : op ≠ .cancel := by rcases ho with rfl | rfl | rfl | rfl | rfl <;> simp
  rw [key]
  have e1 : (admOf op r).op = op := rfl
  have e2 : homeOf (admitted r s) r.station (Handle.index (admOf op r).handle) = r.station := h2
  have e3 : (admOf op r).n = r.station := rfl
  have e4 : (admOf op r).fn = r.fnStamp.toNat := rfl
  simp only [toHome, e1, hw, if_true, e3, e2, e4, h4, forwardAdm]
  exact congrArg _ (congrArg _ (opAtHome_meets _ _ _ _ h3 hc hx))

end Sys2Proof.Machine
end

