-- ==== Sys2Proof/Laws/Steps.lean ====
section
/-!
SUPPORT. What closes a step, said once: a home's step with no shadow record due leaves its effect, and the last three
closing actions leave their mark.
-/

namespace Sys2Proof.Machine

/-- A home's step that makes no shadow record due, on an object that waits for none, is its effect. -/
theorem homeStep_plain (s : State) (n : Nat) (hi : BitVec 40) (f : State → State) (h1 : (f (atStep s)).shadowDue = [])
    (h2 : holdsFor (station (f (atStep s)) n) hi = false) :
    homeStep s n hi f = { f (atStep s) with shadowDue := s.shadowDue } := by
  have h3 : ((f (atStep s)).shadowDue.isEmpty && !holdsFor (station (f (atStep s)) n) hi) = true := by rw [h1, h2]; rfl
  exact if_pos h3

/-- What the engine does of itself is closed by the checks of resets, bridges and the event log. -/
theorem finish_closed (s : State) : ∃ u, finish s = closing u := ⟨_, rfl⟩

/-- So is every step. -/
theorem settled_closed (s : State) : ∃ u, settled s = closing u := ⟨_, rfl⟩

/-- Once the log has been checked, a loss is open only where the log has no room. -/
theorem overflowCheck_marks (s : State) : LossMarked (overflowCheck s) := by
  intro h
  unfold overflowCheck at h ⊢
  split
  · rename_i h1
    rw [if_pos h1] at h
    split
    · rename_i t ht
      rw [ht] at h
      simp [appendEvent, setSetting] at h
    · assumption
  · rename_i h1
    rw [if_neg h1] at h
    exact absurd h h1

end Sys2Proof.Machine
end

