-- ==== Sys2Proof/Machine/Formats.lean ====
section
/-!
DEFINITION. The bits of what the engine sends and receives: the beat and flit codes (R581), header parity (R522), operation
records and response and push beats (Tables 3.2, 3.6, 3.8), the port transfers that an output is (Tables 16.3 to 16.7), and
the flits of a course message (Table 1.4, with the type_field and operand layouts of Tables 5.5, 9.3 and 10.13).
-/

namespace Sys2Proof.Machine

/-! ## The codes (R522, R581) -/

/-- A field element times α, modulo x^8 + x^4 + x^3 + x^2 + 1. -/
def gfDouble (a : Byte) : Byte := if a.msb then (a <<< 1) ^^^ 0x1D else a <<< 1

/-- The product of a field element with the polynomial of a number's low `k` bits. -/
def gfTimes (a : Byte) : Nat → Nat → Byte
  | 0, _ => 0
  | k + 1, n => (if n % 2 = 1 then a else 0) ^^^ gfTimes (gfDouble a) k (n / 2)

/-- The product of two field elements. -/
def gfMul (a b : Byte) : Byte := gfTimes a 8 b.toNat

/-- The product of two polynomials, the lowest coefficient first. -/
def polyMul : List Byte → List Byte → List Byte
  | [], _ => []
  | a :: p, q =>
    let r := 0 :: polyMul p q
    (List.range (max q.length r.length)).map fun i => gfMul a (q.getD i 0) ^^^ r.getD i 0

/-- The generator polynomial: the product of x + α^i for i from 0 to 3, the lowest coefficient first. -/
def generator : List Byte := [1, 2, 4, 8].foldl (fun g a => polyMul g [a, 1]) [1]

/-- The four check symbols after one more data symbol, the highest first: the remainder of the division by the generator. -/
def checkStep (r : Byte × Byte × Byte × Byte) (d : Byte) : Byte × Byte × Byte × Byte :=
  let f := d ^^^ r.1
  let g := fun k => gfMul f (generator.getD k 0)
  (r.2.1 ^^^ g 3, r.2.2.1 ^^^ g 2, r.2.2.2 ^^^ g 1, g 0)

/-- The check group of some data symbols in address order: check symbol j in bits 8j + 7:8j (R523). -/
def checkGroup (l : List Byte) : BitVec 32 :=
  let r := l.foldl checkStep (0, 0, 0, 0)
  r.1 ++ r.2.1 ++ r.2.2.1 ++ r.2.2.2

/-- The beat code's check group of a beat. -/
def beatCheck (d : Beat) : BitVec 32 := checkGroup (bytesBE 32 d.toNat)

/-- The flit code's check group of a flit. -/
def flitCheck (d : Flit) : BitVec 32 := checkGroup (bytesBE 16 d.toNat)

/-- α to a power. -/
def gfExp : Nat → Byte
  | 0 => 1
  | k + 1 => gfDouble (gfExp k)

/-- A field element to a power. -/
def gfPow (a : Byte) : Nat → Byte
  | 0 => 1
  | k + 1 => gfMul a (gfPow a k)

/-- A received word as its symbols, the data in address order and then check symbols 3 to 0: the coefficients of the word's
polynomial, the highest power first (R581). -/
def codeSymbols (l : List Byte) (check : BitVec 32) : List Byte :=
  l ++ [check.extractLsb' 24 8, check.extractLsb' 16 8, check.extractLsb' 8 8, check.extractLsb' 0 8]

/-- Syndrome i: the value of the word's polynomial at α^i, which is 0 of every code word. -/
def syndrome (w : List Byte) (i : Nat) : Byte := w.foldl (fun a d => gfMul a (gfExp i) ^^^ d) 0

/-- The errors of at most two symbols that a word's syndromes tell of, each as the power of x where it stands and its value;
none where no code word is that near. With errors at p and q and d = α^p + α^q, the values times d are u and v. -/
def codeErrors (w : List Byte) : Option (List (Nat × Byte)) :=
  let s := fun i => syndrome w i
  if s 0 = 0 ∧ s 1 = 0 ∧ s 2 = 0 ∧ s 3 = 0 then some [] else
  let ps := List.range w.length
  match ps.find? fun p => [1, 2, 3].all fun i => s i == gfMul (s 0) (gfExp (i * p)) with
  | some p => some [(p, s 0)]
  | none => ps.findSome? fun p => (List.range p).findSome? fun q =>
      let d := gfExp p ^^^ gfExp q
      let u := s 1 ^^^ gfMul (gfExp q) (s 0)
      let v := s 1 ^^^ gfMul (gfExp p) (s 0)
      if [2, 3].all fun i => gfMul d (s i) == gfMul u (gfExp (i * p)) ^^^ gfMul v (gfExp (i * q))
      then some [(p, gfMul u (gfPow d 254)), (q, gfMul v (gfPow d 254))] else none

/-- What a decoder makes of a received word: its data symbols, corrected where at most two symbols are in error, and whether it
corrected any; none where the word is uncorrectable (R582). -/
def decodeCode (l : List Byte) (check : BitVec 32) : Option (List Byte × Bool) :=
  let w := codeSymbols l check
  (codeErrors w).map fun es =>
    (((es.foldl (fun x e => x.modify (w.length - 1 - e.1) (· ^^^ e.2)) w).take l.length), !es.isEmpty)

/-- A beat as a receiver takes it from the wires, or none. -/
def receiveBeat (d : Beat) (check : BitVec 32) : Option (Beat × Bool) :=
  (decodeCode (bytesBE 32 d.toNat) check).map fun x => (BitVec.ofNat 256 (ofBytesBE x.1), x.2)

/-- A flit as a receiver takes it from the wires, or none. -/
def receiveFlit (d : Flit) (check : BitVec 32) : Option (Flit × Bool) :=
  (decodeCode (bytesBE 16 d.toNat) check).map fun x => (BitVec.ofNat 128 (ofBytesBE x.1), x.2)

/-- Even parity of the low `k` bits of a number: whether an odd number of them is 1. -/
def parityBit (n : Nat) : Nat → Bool
  | 0 => false
  | k + 1 => n % 2 == 1 ^^ parityBit (n / 2) k

/-- Even parity over each byte: bit k over bits 8k + 7:8k of a header (R522), of state in flip-flops, or of a transfer of the
always-on control bus (R582). -/
def headerParity (bytes header : Nat) : Nat :=
  ((List.range bytes).map fun k => 2 ^ k * flag (parityBit (header / 2 ^ (8 * k)) 8)).sum

/-! ## Operation records (Tables 3.2 and 16.3) -/

/-- The 512 bits of a record with an opcode's code (R99). -/
def recordBits (code : Nat) (r : OpRec) : BitVec 512 :=
  BitVec.ofNat 512 (field 8 504 code + field 2 502 r.release.toNat + field 2 500 r.acquire.toNat + field 3 497 r.scope.toNat
    + field 1 496 (flag r.hold) + field 1 495 (flag r.payload) + field 1 494 (flag r.supervisor) + field 12 482 r.fnStamp.toNat
    + field 14 468 r.agent.toNat + field 4 464 (r.rsv.toNat / 2 ^ 160) + field 16 448 r.opTag.toNat + field 64 384 r.handle.toNat
    + field 64 320 r.operandA.toNat + field 64 256 r.operandB.toNat + field 64 192 r.cookie.toNat
    + field 32 160 r.waitLimit.toNat + field 160 0 r.rsv.toNat)

/-- The record that 512 bits spell, as a station's port receives it under a request header (Table 16.3). An opcode that Table
3.4 does not define stays in the record, whose check 5.2 refuses it (R103). -/
def recordOf (n : Nat) (header : BitVec 64) (w : BitVec 512) (data : Payload) (busy : Bool) (corrected : Nat) : OpRec where
  station := n
  aux := bit header 31
  initId := header.extractLsb' 19 12
  xtag := header.extractLsb' 32 12
  wide := bits header 62 61 == 3
  busy := busy
  badCode := if (Opcode.ofCode (bits w 511 504)).isSome then none else some (w.extractLsb' 504 8)
  release := w.extractLsb' 502 2
  acquire := w.extractLsb' 500 2
  scope := w.extractLsb' 497 3
  hold := bit w 496
  payload := bit w 495
  supervisor := bit w 494
  fnStamp := w.extractLsb' 482 12
  agent := w.extractLsb' 468 14
  rsv := w.extractLsb' 464 4 ++ w.extractLsb' 0 160
  opTag := w.extractLsb' 448 16
  handle := w.extractLsb' 384 64
  operandA := w.extractLsb' 320 64
  operandB := w.extractLsb' 256 64
  cookie := w.extractLsb' 192 64
  waitLimit := w.extractLsb' 160 32
  data := data
  corrected := corrected

/-- What a link port makes of the flits of a caravan, each with its check group: `bad` counts the uncorrectable ones, `noCredit`
the ones that had no credit (R424, R521, R524). -/
def caravanOf (p : Nat) (noCredit : Nat) (flits : List (Flit × BitVec 32)) : CaravanIn :=
  let got := flits.map fun f => receiveFlit f.1 f.2
  let flit := fun (k : Nat) => match got.getD k none with | some x => x.1 | none => (flits.getD k (0, 0)).1
  { port := p, head := flit 0, bodies := (List.range (flits.length - 1)).map fun k => flit (k + 1)
    bad := (got.filter fun g => g.isNone).length, noCredit := noCredit
    corrected := (got.filter fun g => match g with | some x => x.2 | none => false).length }

/-- What a port makes of a landing report's flit: bits 127:96 above the report of Table 7.2 (R538). -/
def reportOf (port : ReportPort) (noCredit : Bool) (d : Flit) (check : BitVec 32) : ReportIn :=
  let got := receiveFlit d check
  let f := match got with | some x => x.1 | none => d
  { port := port, handle := f.extractLsb' 32 64, fnStamp := f.extractLsb' 20 12
    rsv := f.extractLsb' 96 32 ++ f.extractLsb' 17 3, bytes := f.extractLsb' 0 17
    codeBad := got.isNone, noCredit := noCredit
    corrected := match got with | some x => x.2 | none => false }

/-- The opcode under which a record is presented: its own, and NOP's where Table 3.4 defines none for it. -/
def recordOpcode (w : BitVec 512) : Opcode := (Opcode.ofCode (bits w 511 504)).getD .nop

/-! ## Response and push beats (Tables 3.6 and 3.8) -/

/-- The response beat (Table 3.6). -/
def Rsp.beat (r : Rsp) : Beat :=
  BitVec.ofNat 256 (field 64 192 r.valueA.toNat + field 64 128 r.valueB.toNat + field 16 112 r.opTag.toNat
    + field 8 104 r.status.code + field 1 103 (flag r.invalidate) + field 3 100 r.scope.toNat + field 1 99 (flag r.data.isSome))

/-- The two beats of 64 bytes in address order. -/
def payloadBeats (p : Payload) : List Beat := [p.extractLsb' 256 256, p.extractLsb' 0 256]

/-- The beats of a response, with the crossbar tag and destination of its header, and its error bit (Table 16.4). -/
def RspOut.parts : RspOut → (Bool × BitVec 12 × BitVec 12) × Bool × List Beat
  | .op aux id xtag r =>
    ((aux, id, xtag), false, r.beat :: (match r.data with | some d => payloadBeats d | none => []))
  | .access aux id xtag _ err d => ((aux, id, xtag), err, [d])

/-- The wake message beat, and a launch's with the two beats of its descriptor (Table 3.8, R118). -/
def PushMsg.beats (m : PushMsg) (seq : Nat) : List Beat :=
  BitVec.ofNat 256 (field 64 192 m.cookie.toNat + field 64 128 m.handle.toNat + field 64 64 m.value.toNat
    + field 8 56 m.status.code + field 8 48 m.opcode.code + field 1 47 (flag m.invalidate) + field 3 44 m.scope
    + field 2 42 (flag m.launch.isSome) + field 16 16 seq) ::
  match m.launch with
  | some (_, _, d) => payloadBeats d
  | none => []

/-! ## Port transfers (Tables 16.2, 16.6 and 16.10) -/

/-- A transfer as it stands on the wires of a port, with its header parity and check group. -/
inductive Wire where
  | response (station lane : Nat) (header hpar : Nat) (data : Beat) (check : BitVec 32)
  | push (station lane : Nat) (header hpar : Nat) (data : Beat) (check : BitVec 32)
  | xiRequest (initiator : Nat) (header hpar : Nat)
  | xiWrite (initiator : Nat) (data : Beat) (check mask : BitVec 32)
  | kpTransmit (port : Nat) (head : Bool) (data : Flit) (check : BitVec 32)
  deriving DecidableEq, Repr

/-- The beats of a list, each with its number and whether it is the last. -/
def countedBeats (l : List Beat) : List (Nat × Bool × Beat) := l.mapIdx fun i d => (i, i + 1 == l.length, d)

/-- The response header (Table 16.4). -/
def responseHeader (x : (Bool × BitVec 12 × BitVec 12) × Bool × List Beat) (i : Nat) (last : Bool) : Nat :=
  field 12 20 x.1.2.2.toNat + field 1 19 (flag x.2.1) + field 1 18 (flag last) + field 2 16 i + field 1 15 (flag x.1.1) +
    field 12 3 x.1.2.1.toNat

/-- The push header (Table 16.5). -/
def pushHeader (agent i : Nat) (last : Bool) : Nat :=
  field 14 18 agent + field 1 17 (flag (i == 0)) + field 1 16 (flag last) + field 2 14 i

/-- The xi request header (Table 16.7). -/
def xiHeader (write : Bool) (beats address stamp tag : Nat) : Nat :=
  field 1 127 (flag (!write)) + field 3 124 (beats - 1) + field 58 66 (address / 64) + field 12 54 stamp + field 11 43 tag

/-- The write beats of a transaction: 32 bytes each, with the mask bits of its bytes. -/
def writeBeats (data : List Byte) (mask : Nat) : List (Beat × BitVec 32) :=
  (List.range ((data.length + 31) / 32)).map fun k =>
    (BitVec.ofNat 256 (ofBytesBE ((List.range 32).map fun i => data.getD (32 * k + i) 0)),
      BitVec.ofNat 32 (mask / 2 ^ (32 * k)))

/-- The transfers that an output is on the fast-clock ports; credits and the management transports have no beat or flit. -/
def Output.wires : Output → List Wire
  | .response n lane r =>
    (countedBeats r.parts.2.2).map fun b =>
      let h := responseHeader r.parts b.1 b.2.1
      .response n lane h (headerParity 4 h) b.2.2 (beatCheck b.2.2)
  | .push n lane m seq =>
    (countedBeats (m.beats seq)).map fun b =>
      let h := pushHeader m.agent b.1 b.2.1
      .push n lane h (headerParity 4 h) b.2.2 (beatCheck b.2.2)
  | .xiRequest j write beats address stamp tag =>
    let h := xiHeader write beats address stamp tag
    [.xiRequest j h (headerParity 16 h)]
  | .xiWrite j data mask => (writeBeats data mask).map fun b => .xiWrite j b.1 (beatCheck b.1) b.2
  | .caravan p head bodies => (head :: bodies).mapIdx fun i f => .kpTransmit p (i == 0) f (flitCheck f)
  | _ => []

/-! ## Course messages (R36, R37, R102, Tables 1.4 and 1.5) -/

/-- What a message's head flit and body flits carry, beside its stations and type; a body flit is none where the manual counts
it and does not lay it out. -/
structure CourseFields where
  agent  : Nat
  tag    : Nat
  field  : Nat
  handle : Word
  bodies : List (Option Flit)
  deriving DecidableEq, Repr

/-- The first body flit: operand_a or value_a in bits 127:64, operand_b or value_b in 63:0 (R102, R296). -/
def pairFlit (a b : Word) : Flit := a ++ b

/-- Body flits that the manual lays out. -/
def known (l : List Flit) : List (Option Flit) := l.map some

/-- Body flits that the manual counts and does not lay out. -/
def unlaid (k : Nat) : List (Option Flit) := List.replicate k none

/-- The body flits of two values, and of the 64 bytes that may follow them in address order. -/
def pairBodies (a b : Word) (d : Option Payload) : List (Option Flit) :=
  known (pairFlit a b :: match d with | some p => payloadFlits p | none => [])

/-- The type_field of a type 0x01 message: opcode, release, acquire, scope, hold and payload (R102). -/
def requestField (code release acquire scope : Nat) (hold payload : Bool) : Nat :=
  field 8 9 code + field 2 7 release + field 2 5 acquire + field 3 2 scope + 2 * flag hold + flag payload

/-- A request between homes, stations and slices: opcode, and in operand_a kind, slot, arm_seq or status, with the values that
its table names (R296, R337). A request to the ferry has its payload bit zero, whatever it carries (R296). -/
def kindRequest (code : Nat) (handle : Word) (a b : Nat) (d : Option Payload) : CourseFields :=
  ⟨0, 0, requestField code 0 0 0 false (d.isSome && code != 0x40), handle, pairBodies (BitVec.ofNat 64 a) (BitVec.ofNat 64 b) d⟩

/-- A type 0x02 answer by its kind in type_field bits 80:78 (R296, R337). -/
def kindAnswer (kind : Nat) (handle : Word) (a b : Nat) : CourseFields :=
  ⟨0, 0, field 3 14 kind, handle, known [pairFlit (BitVec.ofNat 64 a) (BitVec.ofNat 64 b)]⟩

/-- A type 0x02 message that carries a status in type_field bits 80:73. -/
def statusField (st : Status) : Nat := field 8 9 st.code

/-- The agent field of a seal message: buffer and entry (R235). -/
def sealAgent (buffer entry : Nat) : Nat := field 6 8 buffer + field 8 0 entry

/-- A seal message (R235). -/
def sealFields (s : State) (r : SealRef) (a : Nat) (b : Word) (d : Option Payload) : CourseFields :=
  ⟨sealAgent r.buffer r.entry, 0, requestField (Opcode.landSeal).code 0 0 0 false false, issue s r.hi r.xgen.toNat,
    pairBodies (BitVec.ofNat 64 a) b d⟩

/-- The type_field of a type 0x03 message (Table 5.5). -/
def upField (parity break_ : Bool) (kind segment last : Nat) : Nat :=
  field 1 16 (flag parity) + field 1 15 (flag break_) + field 2 13 kind + field 6 7 segment + field 6 1 last

/-- The type_field of a type 0x04 message (Table 5.5). -/
def downField (kind outcome : Nat) (parity : Bool) (redOp inFormat : Nat) : Nat :=
  field 2 15 kind + field 2 13 outcome + field 1 12 (flag parity) + field 4 8 redOp + field 3 5 inFormat

/-- The outcome code of a completion (Table 5.5). -/
def outcomeCode : Status → Nat
  | .broken => 1
  | .linklost => 2
  | _ => 0

/-- A chart entry (Table 1.2); none is the entry that is not valid. -/
def chartBits : Option ChartEntry → Nat
  | some e => 2 ^ 15 + field 2 13 e.move + field 7 5 e.home
  | none => 0

/-- The 64 bytes of a digest: two engines a byte (Table 10.13). -/
def digestPayload (first : Nat) (loads : Table Nat) : Payload :=
  payloadOf ((List.range 64).map fun b =>
    BitVec.ofNat 8 (tgetD loads (first + 2 * b) 0 % 16 + 16 * (tgetD loads (first + 2 * b + 1) 0 % 16)))

/-- Eddy references packed 9 bits each, seven to a word (Table 10.13). -/
def refsWord (l : List Nat) : Nat := (l.take 7).foldr (fun r n => r % 512 + 512 * n) 0

/-- A caravan on the course (R422): kind, kind_field, chip, scope, release and function of its head. -/
def caravanFields (out : Bool) (h : Flit) (bodies : List Flit) : CourseFields :=
  ⟨field 10 0 (if out then headDest h else headSrc h), field 3 7 (headScope h) + field 2 5 (headRelease h),
    field 12 5 (headFn h), BitVec.ofNat 64 (field 6 58 (headKind h) + headField h 57 0), known bodies⟩

/-- Whether some station holds a node of a weir that reduces. -/
def reducesAt (s : State) (hi : BitVec 40) : Bool :=
  s.stations.any fun p => p.2.nodes.any fun q => q.2.hi == hi && q.2.params.redOp != 0

/-- The handle of the object at an index, wherever its home is; the index alone where there is none any more. -/
def indexHandle (s : State) (i : Nat) : Word :=
  match s.stations.findSome? fun p => tget p.2.objects i with
  | some o => issue s o.hi 0
  | none => nameOf (handleHi 0 0 0 i)

/-- The type of a message (Table 1.5). DEDUCED (log entry 79): R180 gives a teardown acknowledgement no type; it goes as a
setup acknowledgement does, type 0x03 in class tree up. -/
def MsgBody.type : MsgBody → Nat
  | .response .. | .registeredWait .. | .withdrawn .. | .popGrant .. | .beaconAck .. | .freeNotice .. | .spillAccepted ..
  | .spillRefused .. | .extentReserved .. | .extentRefused .. | .extentReleased .. | .shadowWritten .. | .imagePart ..
  | .launchAnswer .. | .copyAnswer .. | .rolesTaken .. => 0x02
  | .combined .. | .combinedMoved .. | .setupAck .. | .subscribe .. | .teardownAck .. => 0x03
  | .completion .. | .setup .. | .teardown .. | .subscribeReply .. => 0x04
  | .chartCommit .. | .chartClear .. => 0x05
  | .wake .. | .rebind .. => 0x06
  | .report .. => 0x07
  | .copy .. | .roles .. => 0x08
  | .spillSegment .. => 0x09
  | .refillSegment .. => 0x0A
  | .caravan .. => 0x0B
  | .beaconUpdate .. => 0x0C
  | _ => 0x01

/-- What a message carries, flit by flit. Where the manual gives a message a type and leaves fields of it open, a body flit is
none and the head's fields are the model's (DEDUCED, log entry 79). A caravan's OP and OP_PAYLOAD are two messages. -/
def MsgBody.fields (s : State) : MsgBody → List CourseFields
  | .fwdOp f => [⟨f.agent, f.tag, requestField f.op.code f.release f.acquire f.scope f.hold f.data.isSome, f.handle,
      pairBodies f.a f.b f.data⟩]
  | .sealDeposit r a m d => [sealFields s r (a.toNat / 64 * 64) m (some d)]
  | .sealRelease r => [sealFields s r 1 0 none]
  | .sealDiscard r => [sealFields s r 2 0 none]
  | .sealRegister r _ => [sealFields s r 3 0 none]
  | .refillRequest h b => [kindRequest 0x40 h 1 b none]
  | .reserveExtent h l => [kindRequest 0x40 h 2 l none]
  | .releaseExtent h => [kindRequest 0x40 h 3 0 none]
  | .shadowRecord r => [kindRequest 0x40 r.handle 4 0 (some (payloadOf (shadowBytes s r 0)))]
  | .captureEntry e => [kindRequest 0x40 0 6 0 (some e.entry)]
  | .register o slot threshold step rule =>
    [kindRequest 0x50 o (1 + 16 * slot + field 16 16 step + field 32 32 threshold) rule.toNat none]
  | .activate o _ slot armSeq => [kindRequest 0x50 o (2 + 16 * slot + field 8 8 armSeq) 0 none]
  | .consume o _ slot armSeq => [kindRequest 0x50 o (3 + 16 * slot + field 8 8 armSeq) 0 none]
  | .consumeDormant o _ slot armSeq => [kindRequest 0x50 o (4 + 16 * slot + field 8 8 armSeq) 0 none]
  | .deactivate o _ slot => [kindRequest 0x50 o (5 + 16 * slot) 0 none]
  | .releaseWatch o _ slot _ => [kindRequest 0x50 o (6 + 16 * slot) 0 none]
  | .feedRegister o rule => [kindRequest 0x50 o 7 rule.toNat none]
  | .feedPush o _ t => [kindRequest 0x50 o (8 + 64 * flag t.endMark) t.word.toNat none]
  | .registered r st slot _ _ => [kindRequest 0x51 r (match st with
      | none => 1 + 16 * slot
      | some x => 2 + 16 * slot + field 8 16 x.code) 0 none]
  | .met r slot armSeq => [kindRequest 0x51 r (3 + 16 * slot + field 8 8 armSeq) 0 none]
  | .lapsed r slot _ st => [kindRequest 0x51 r (4 + 16 * slot + field 8 16 st.code) 0 none]
  | .released r => [kindRequest 0x51 r 5 0 none]
  | .pushed r st => [kindRequest 0x51 r (match st with | none => 6 | some x => 7 + field 8 16 x.code) 0 none]
  | .launch r engine _ seq d => [{ kindRequest 0x51 r seq 0 (some d) with agent := engine }]
  | .arrive _ w agent e _ _ => [{ kindRequest 0x21 w e.toNat 0 none with agent := agent }]
  | .loadSubscribe on => [kindRequest 0x54 0 (if on then 1 else 2) 0 none]
  | .digest first loads => [kindRequest 0x54 0 first 0 (some (digestPayload first loads))]
  | .rebindAck h => [kindRequest 0x01 h 1 0 none]
  | .flush h => [kindRequest 0x01 (indexHandle s (Handle.index h)) 2 0 none]
  | .forwardDone h => [kindRequest 0x01 h 3 0 none]
  | .report r => [⟨0, 0, field 17 0 r.bytes, r.handle, []⟩]
  | .spillSegment h _ seg d => [⟨0, 0, field 2 15 seg, h, known (payloadFlits d)⟩]
  | .refillSegment h _ seg fail d => [⟨0, 0, field 2 15 seg + field 1 14 (flag fail), h, known (payloadFlits d)⟩]
  | .response tag st a b d => [⟨0, tag, statusField st, 0, pairBodies a b d⟩]
  | .popGrant h ref _ i => [⟨i.agent.getD 0, 2 * ref + 1, statusField i.status + field 1 8 (flag i.agent.isSome), h,
      pairBodies i.a i.b (some (i.data.getD 0))⟩]
  | .beaconAck _ h => [⟨0, 0, 0, h, known [pairFlit 0 0]⟩]
  | .freeNotice buffer entry => [⟨sealAgent buffer entry, 0, 0, 0, known [pairFlit 0 0]⟩]
  | .spillAccepted h b => [kindAnswer 0 h b 0]
  | .spillRefused h b => [kindAnswer 1 h b 0]
  | .extentReserved h => [kindAnswer 2 h 0 0]
  | .extentRefused h => [kindAnswer 3 h 0 0]
  | .extentReleased h => [kindAnswer 4 h 0 0]
  | .shadowWritten h seq => [kindAnswer 7 h seq 0]
  | .launchAnswer r st _ => [⟨0, 0, statusField st, r, known [pairFlit 0 0]⟩]
  | .copyAnswer h (some refs) =>
    let l := refs.map (·.2)
    [kindAnswer 5 h (refsWord l) (refsWord (l.drop 7))]
  | .copyAnswer h none => [kindAnswer 6 h 0 0]
  | .combined h p b l seg last d => [⟨0, 0, upField p (b || l) 0 seg last, h,
      match d with | some x => known (payloadFlits x) | none => []⟩]
  | .combinedMoved h _ p seg last d => [⟨0, 0, upField p false 0 seg last, h,
      match d with | some x => known (payloadFlits x) | none => []⟩]
  | .setupAck h refused => [⟨0, 0, upField false false (if refused then 2 else 1) 0 0, h, []⟩]
  | .subscribe h => [⟨0, 0, upField false false 3 0 0, h, []⟩]
  | .completion h st p r =>
    [⟨0, 0, downField 0 (outcomeCode st) p 0 0, h, if reducesAt s (Handle.hi h) && st == .ok then known (payloadFlits r) else []⟩]
  | .setup h p _ _ => [⟨0, 0, downField 1 0 false p.redOp p.inFormat, h, unlaid 4⟩]
  | .teardown h _ => [⟨0, 0, downField 2 0 false 0 0, h, []⟩]
  | .subscribeReply h .. => [⟨0, 0, downField 3 0 false 0 0, h, unlaid 4⟩]
  | .teardownAck h => [⟨0, 0, upField false false 1 0 0, h, []⟩]
  | .chartCommit i move home j =>
    [⟨0, 0, field 1 16 (flag j) + chartBits (some ⟨move, home⟩), indexHandle s i, []⟩]
  | .chartClear i => [⟨0, 0, chartBits none, indexHandle s i, []⟩]
  | .caravan out _ parts => parts.map fun p => caravanFields out p.1 p.2
  | .wake h ref grant _ waits i => [⟨i.agent.getD 0, 2 * ref, (match grant with
      | some _ => field 1 16 1 + field 12 4 waits.length
      | none => 0), h, []⟩]
  | .rebind h old new home => [⟨0, 2 * new + 1, field 9 8 old + field 7 1 home, h, []⟩]
  | .beaconUpdate w v free _ h => [⟨0, 0, field 9 8 w + field 1 7 (flag free), h, known [pairFlit v 0]⟩]
  | .withdraw _ _ h _ => [⟨0, 0, requestField (Opcode.cancel).code 0 0 0 false false, h, unlaid 1⟩]
  | .validate o agent rule => [{ kindRequest 0x50 o 7 rule.toNat none with agent := agent }]
  | .imageRequest h _ _ _ d => [⟨0, 0, requestField 0x40 0 0 0 false false, h, unlaid (if d.isSome then 5 else 1)⟩]
  | .imagePart h .. => [⟨0, 0, field 3 14 7, h, unlaid 5⟩]
  | .copy _ h _ _ => [⟨0, 0, 0, h, unlaid 4⟩]
  | .roles .. => [⟨0, 0, 0, 0, unlaid 4⟩]
  | .rolesTaken _ => [⟨0, 0, field 3 14 5, 0, unlaid 1⟩]
  | .registeredWait tag ref => [⟨0, tag, statusField .parked, 0, known [pairFlit (BitVec.ofNat 64 ref) 0]⟩]
  | .withdrawn _ removed => [⟨0, 0, statusField (if removed then .ok else .stale), 0, unlaid 1⟩]

/-- The head flit (Table 1.4). -/
def headFlit (dest src type : Nat) (x : CourseFields) : Flit :=
  BitVec.ofNat 128 (field 7 121 dest + field 7 114 src + field 6 108 type + field 3 105 x.bodies.length + field 14 91 x.agent
    + field 10 81 x.tag + field 17 64 x.field + x.handle.toNat)

/-- A flit on a course link (R36, R37): 128 data bits, the sideband's valid, head, class and virtual-channel bits, even parity
over the five, and the flit code's check bits. Data and check bits are none where the manual does not lay the flit out. -/
structure CourseFlit where
  data   : Option Flit
  valid  : Bool
  head   : Bool
  cls    : BitVec 2
  vc     : Bool
  parity : Bool
  check  : Option (BitVec 32)
  deriving DecidableEq, Repr

/-- A flit as it enters the course, on the first virtual channel of its class (R34). -/
def courseFlit (cls : Nat) (head : Bool) (d : Option Flit) : CourseFlit :=
  ⟨d, true, head, BitVec.ofNat 2 cls, false, true ^^ head ^^ parityBit cls 2, d.map flitCheck⟩

/-- Whether a message goes out once with dest 127 (R28, R135, R150, R163, R180). -/
def MsgBody.toAll : MsgBody → Bool
  | .setup .. | .chartCommit .. | .chartClear .. | .beaconUpdate .. => true
  | .teardown _ all => all
  | .wake _ _ _ all _ _ => all
  | _ => false

/-- A message's handle as its head flit carries it, with its check tag: messages of the model name an object by its upper bits.
An operation's handle is its record's own. -/
def MsgBody.wireHandle (s : State) (b : MsgBody) (h : Word) : Word :=
  match b with
  | .fwdOp _ => h
  | _ => if Handle.cls h = 0 then h else issue s (Handle.hi h) (Handle.sel h)

/-- The flits of a message as it leaves its station, head flits first. A message that goes out with dest 127 is one message
in the model for each station that it reaches, each with the same flits. -/
def Msg.flits (s : State) (m : Msg) : List CourseFlit :=
  (m.body.fields s).flatMap fun x =>
    courseFlit m.body.cls true (some (headFlit (if m.body.toAll then 127 else m.dst) m.src m.body.type
      { x with handle := m.body.wireHandle s x.handle })) :: x.bodies.map (courseFlit m.body.cls false)

end Sys2Proof.Machine
end

