-- ==== Sys2Proof/Tests/Slice0.lean ====
section
/-!
SUPPORT. Tests: for the statements about commands, concrete states and operands that meet their hypotheses; the commands
that no port can deliver; and a few results worked out by hand from the manual.
-/

namespace Sys2Proof.Tests

set_option Elab.async false

open Sys2Proof Sys2Proof.Machine

/-! ## A live engine -/

/-- Function 17 is ENABLED in partition 0, which has cores 0 to 127, with an extent region and a share; every station holds
response and push credits. -/
def live : State :=
  let s := setFn State.reset 17 ⟨.enabled, 1, some 0x1234, none, none, 1⟩
  let s := setFnSetting (setFnSetting s 17 0x23 0x9000000000) 17 0x24 65536
  let s := setFnSetting (setSetting s 0x280401 0) 17 0x05 16
  { s with
    maps := { s.maps with partition := [⟨0, 128, 0, 0⟩] }
    stations := s.stations.map fun p => (p.1, { p.2 with rspCredit := (100, 100), pushCredit := (100, 100) }) }

/-- The bits 63:24 of an object of function 17. -/
def hi (cls index : Nat) : BitVec 40 := handleHi 17 0 cls index

/-- Its handle, without a tag. -/
def hd (cls index : Nat) (sel : Nat := 0) : Word := handleOf (hi cls index) 0 sel

/-- A record of agent 0 at station 0. -/
def rec (h a b : Word) : OpRec where
  station := 0
  aux := false
  initId := 0
  xtag := 5
  wide := false
  busy := false
  badCode := none
  release := 0
  acquire := 0
  scope := 1
  hold := false
  payload := false
  supervisor := true
  fnStamp := 17
  agent := 0
  rsv := 0
  opTag := 9
  handle := h
  operandA := a
  operandB := b
  cookie := 0
  waitLimit := 0
  data := 0
  corrected := 0

/-- The same with a payload. -/
def recWide (h a b : Word) (d : Payload) : OpRec := { rec h a b with wide := true, payload := true, data := d }

/-- The template that a creation names. -/
def template (cls : Nat) : Word := BitVec.ofNat 64 (field 12 52 17 + field 4 38 cls)

def obj (cls index : Nat) (b : Body) : Obj := ⟨hi cls index, b, false, [], ⟨0, 0, 0, 0⟩⟩

/-- Two stations' replicas of the chart name an object's home. -/
def charted (s : State) (i home : Nat) : State := chartSet (chartSet s 0 i (some ⟨0, home⟩)) 1 i (some ⟨0, home⟩)

/-- An object at station 0. -/
def withObj (s : State) (o : Obj) : State := charted (setObj s 0 (hiIndex o.hi) o) (hiIndex o.hi) 0

/-- An object whose home is station 1, which holds it. -/
def withFar (s : State) (o : Obj) : State := charted (setObj s 1 (hiIndex o.hi) o) (hiIndex o.hi) 1

def counter : Counter := ⟨10, [⟨1, 100, true, 0, []⟩, ⟨2, 100, false, 0, []⟩], 0⟩
def counterObj : Obj := obj 1 5 (.counter counter)

/-- A weir of cores 0 and 1, counting arrivals without payload, open at epoch 0. -/
def params : WeirParams := ⟨.range 0 2 1, 1, none, 0, 0, 0, false, 0, none⟩
def weir : Weir := ⟨params, 3, 0, [0], [], 0, 0, 0, none, []⟩
def weirObj : Obj := obj 2 6 (.weir weir)
def weirNode : Node := newNode live (hi 2 6) params 0 0 3

def landing : Landing := ⟨100, 100, 1, [⟨3, 200, false, 0, []⟩], [], 0⟩
def landObj : Obj := obj 3 7 (.landing landing)

/-- A queue of capacity 64 with 4 tokens in its tail window, one of them read, 8 tolled. -/
def queue : Queue :=
  { newQueue live ⟨.qCreate, 0, 0, 0, 0, template 4, 64 + 8 * 2 ^ 32, 0, none, 0, 0, 1, false, 0⟩ with
    push := 4, read := 1, rel := 0, mark := 0, markValid := true, marksSince := 0,
    tail := [⟨7, false⟩, ⟨8, false⟩, ⟨9, false⟩, ⟨10, false⟩] }
def queueObj : Obj := obj 4 8 (.queue queue)

def rule : Rule :=
  { newRule 17 (BitVec.ofNat 64 (1 * 2 ^ 58 + 0xFF * 2 ^ 50 + 1 * 2 ^ 23 + 1 * 2 ^ 11)) 0 0 with
    inputs := [⟨hd 1 5, 20, 1⟩] }
def ruleObj : Obj := obj 5 9 (.rule rule)

def keeperOf (s : State) : Keeper := { newKeeper s 4 (policyOf 0) with weirHi := hi 2 11 }
def keeperObj : Obj := obj 6 10 (.keeper (keeperOf live))
def keeperWeirParams : WeirParams := { keeperParams (BitVec.ofNat 64 (1 * 2 ^ 23 + 2 * 2 ^ 11)) 0x10004 with
  keeper := some (hi 6 10, 4) }
def keeperWeirObj : Obj := obj 2 11 (.weir ⟨keeperWeirParams, 0, 0, [0], [], 0, 0, 0, none, []⟩)
def keeperWeirNode : Node := newNode live (hi 2 11) keeperWeirParams 0 0 0

def beaconObj : Obj := obj 7 12 (.beacon ⟨3, 44⟩)

/-- A state with an object of each class at station 0, the nodes of the two weirs, and a counter at station 1. -/
def busy : State :=
  let os := [counterObj, weirObj, landObj, queueObj, ruleObj, keeperObj, keeperWeirObj, beaconObj]
  let chart : Table ChartEntry := ([5, 6, 7, 8, 9, 10, 11, 12].map fun i => (i, ⟨0, 0⟩)) ++ [(20, ⟨0, 1⟩)]
  let s := onStation live 0 fun st => { st with
    objects := os.map fun o => (hiIndex o.hi, o)
    nodes := [(6, weirNode), (11, keeperWeirNode)]
    chart := chart }
  let t := onStation s 1 fun st => { st with objects := [(20, obj 1 20 (.counter counter))], chart := chart }
  { t with words := [(3, 17)] }

/-! ## Records -/

theorem meets {op : Opcode} {r : OpRec} {s : State} {o : Obj}
    (h : (Reaches r s ∧ IsMine r s ∧ functionRefusal (noticed r s) op r = none ∧ recordRefusal op r = none ∧
      op.creates = false ∧ op.cls ≠ .none ∧ Handle.fn r.handle = r.fnStamp.toNat ∧
      (selectorDefined (Handle.cls r.handle) = true ∨ Handle.sel r.handle = 0) ∧
      256 ≤ bucketNow (noticed r s) r.station r.fnStamp.toNat ∧ r.busy = false ∧
      (station (noticed r s) r.station).budget = [] ∧ (station (noticed r s) r.station).excess = []) ∧
      homeOf (admitted r s) r.station (Handle.index r.handle) = r.station ∧
      Meets (travelling op r (admitted r s) 0) (opened op (withTag s r) (admitted r s) none) r.station o) :
    MeetsHere op (withTag s r) s o := meetsHere_withTag (ready_withTag h.1) h.2

theorem waits {op : Opcode} {r : OpRec} {s : State} {o : Obj}
    (h : (Reaches r s ∧ IsMine r s ∧ functionRefusal (noticed r s) op r = none ∧ recordRefusal op r = none ∧
      op.creates = false ∧ op.cls ≠ .none ∧ Handle.fn r.handle = r.fnStamp.toNat ∧
      (selectorDefined (Handle.cls r.handle) = true ∨ Handle.sel r.handle = 0) ∧
      256 ≤ bucketNow (noticed r s) r.station r.fnStamp.toNat ∧ r.busy = false ∧
      (station (noticed r s) r.station).budget = [] ∧ (station (noticed r s) r.station).excess = []) ∧
      WaitRoom r s ∧ homeOf (admitted r s) r.station (Handle.index r.handle) = r.station ∧
      Meets (waitingOp op r s r.station) (waiting op (withTag s r) s r.station) r.station o) :
    WaitsHere op (withTag s r) s o := waitsHere_withTag (ready_withTag h.1) h.2


/-- The same for an operation that leaves its entry station. -/
theorem leaves {op : Opcode} {r : OpRec} {s : State} {home : Nat}
    (h : (Reaches r s ∧ IsMine r s ∧ functionRefusal (noticed r s) op r = none ∧ recordRefusal op r = none ∧
      op.creates = false ∧ op.cls ≠ .none ∧ Handle.fn r.handle = r.fnStamp.toNat ∧
      (selectorDefined (Handle.cls r.handle) = true ∨ Handle.sel r.handle = 0) ∧
      256 ≤ bucketNow (noticed r s) r.station r.fnStamp.toNat ∧ r.busy = false ∧
      (station (noticed r s) r.station).budget = [] ∧ (station (noticed r s) r.station).excess = []) ∧
      homeOf (admitted r s) r.station (Handle.index r.handle) = home ∧ home ≠ r.station) :
    Ready op (withTag s r) s ∧ homeOf (admitted (withTag s r) s) (withTag s r).station
      (Handle.index (withTag s r).handle) = home ∧ home ≠ (withTag s r).station :=
  ⟨ready_withTag h.1, (congrArg (homeOf (admitted r s) r.station) (tagged_fields s r.handle).2.2.2.1).trans h.2.1, h.2.2⟩

/-- The operand and a wait of agent 0 on an eddy and on a weir, by its handle. -/
def waiter (id : Nat) (h : Word) (p : Place) (ph : Phase) : Waiter :=
  ⟨id, 0, 0, h, none, 9, 0, .ctrWaitGe, 0, 1, false, ph, p, .port false 0 5, none, none, none, false⟩

/-- A state with one wait at station 0. -/
def withWait (s : State) (w : Waiter) : State := onStation s 0 fun st => { st with waiters := [w], nextWait := w.id + 1 }

theorem nop_ready : Ready .nop (rec 0 0 0) live := by decide +kernel
theorem loadReport_ready : Ready .loadReport (rec 0 3 0) live ∧ agentAux 0 = false := by decide +kernel

theorem cancel_stale : Ready .cancel (withTag busy (rec (hd 1 5) 0 0)) busy ∧
    cancelled (admitted (withTag busy (rec (hd 1 5) 0 0)) busy) (admOf .cancel (withTag busy (rec (hd 1 5) 0 0))) = none :=
  ⟨ready_withTag (by decide +kernel), by decide +kernel⟩

theorem cancelled_first {s : State} {x : Adm} {w : Waiter} (h : (station s x.n).waiters = [w])
    (k : w.agent = x.agent ∧ w.hold = false ∧ w.cookie = x.a ∧ w.failed = false ∧ w.cancel = none ∧
      (w.phase = .pending ∨ w.phase = .joined)) (e : w.handle = x.handle) : cancelled s x = some w := by
  obtain ⟨a, b, c, d, f, g⟩ := k
  unfold cancelled
  rw [h]
  rcases g with g | g <;> simp [List.find?, a, b, c, d, e, f, g]

/-- The CANCEL of a wait on an object. -/
def cancelRec (s : State) (h : Word) : OpRec := withTag s (rec h 0 0)

theorem cancel_weir : ∃ r s w, Ready .cancel r s ∧ cancelled (admitted r s) (admOf .cancel r) = some w ∧
    (∀ home ref, w.place ≠ .eddy home ref) ∧ w.phase ≠ .pending :=
  ⟨cancelRec live (hd 2 6), withWait live (waiter 3 (tagged live (hd 2 6)) (.weir 6 3) .joined), _,
    ready_withTag (by decide +kernel), cancelled_first rfl (by decide +kernel) rfl, nofun, nofun⟩

theorem cancel_eddy : ∃ r s w home ref, Ready .cancel r s ∧ cancelled (admitted r s) (admOf .cancel r) = some w ∧
    w.place = .eddy home ref ∧ w.phase = .joined :=
  ⟨cancelRec live (hd 1 5), withWait live (waiter 3 (tagged live (hd 1 5)) (.eddy 0 1) .joined), _, 0, 1,
    ready_withTag (by decide +kernel), cancelled_first rfl (by decide +kernel) rfl, rfl, rfl⟩

theorem refused_record : ∃ r, Reaches r busy ∧ IsMine r busy ∧ checkRefusal (noticed r busy) .ctrAdd r = some .privilege :=
  ⟨{ rec (hd 1 5) 7 0 with release := 3 }, by decide +kernel⟩

theorem operation_leaves : ∃ r home, Ready .ctrAdd r busy ∧
    homeOf (admitted r busy) r.station (Handle.index r.handle) = home ∧ home ≠ r.station :=
  ⟨withTag busy (rec (hd 1 20) 7 0), 1, leaves (by decide +kernel)⟩

theorem wait_leaves : ∃ r home, WaitRoom r busy ∧ Ready .ctrWaitGe r busy ∧
    homeOf (admitted r busy) r.station (Handle.index r.handle) = home ∧ home ≠ r.station :=
  ⟨withTag busy (rec (hd 1 20) 7 0), 1, by decide +kernel, leaves (by decide +kernel)⟩

/-- No waiter record is left to function 17. -/
def full : State := setFnSetting busy 17 0x0B 0
theorem wait_without_room : ∃ r home, ¬ WaitRoom r full ∧ Ready .ctrWaitGe r full ∧
    homeOf (admitted r full) r.station (Handle.index r.handle) = home ∧ home ≠ r.station :=
  ⟨withTag full (rec (hd 1 20) 7 0), 1, by decide +kernel, leaves (by decide +kernel)⟩

/-! ## Counters, weirs, landing counters, queues -/

theorem ctr_meets : MeetsHere .ctrAdd (withTag busy (rec (hd 1 5) 7 0)) busy counterObj ∧
    MeetsHere .ctrSub (withTag busy (rec (hd 1 5) 7 0)) busy counterObj ∧
    MeetsHere .ctrSet (withTag busy (rec (hd 1 5) 7 0)) busy counterObj ∧
    MeetsHere .ctrRead (withTag busy (rec (hd 1 5) 0 0)) busy counterObj :=
  ⟨meets (by decide +kernel), meets (by decide +kernel), meets (by decide +kernel), meets (by decide +kernel)⟩

theorem ctr_waits : WaitsHere .ctrAcquire (withTag busy (rec (hd 1 5) 7 0)) busy counterObj ∧
    WaitsHere .ctrWaitGe (withTag busy (rec (hd 1 5) 7 0)) busy counterObj ∧ (7 : Word).toNat ≤ counter.value.toNat :=
  ⟨waits (by decide +kernel), waits (by decide +kernel), by decide⟩

theorem ctr_joins : WaitsHere .ctrAcquire (withTag busy (rec (hd 1 5) 100 0)) busy counterObj ∧
    WaitsHere .ctrWaitGe (withTag busy (rec (hd 1 5) 100 0)) busy counterObj ∧ counter.value.toNat < (100 : Word).toNat ∧
    (counter.eddies.find? fun x => x.acquire == true && x.threshold == 100) = some ⟨1, 100, true, 0, []⟩ ∧
    (counter.eddies.find? fun x => x.acquire == false && x.threshold == 100) = some ⟨2, 100, false, 0, []⟩ :=
  ⟨waits (by decide +kernel), waits (by decide +kernel), by decide⟩

theorem nodeFor_tagged (s t : State) (n : Nat) (h : Word) : nodeFor s n (tagged t h) = nodeFor s n h := by
  simp only [nodeFor, (tagged_fields t h).1, (tagged_fields t h).2.2.2.1]

theorem weir_arrives : ∃ r x, nodeFor (admitted r busy) r.station r.handle = some x ∧ x.params.keeper = none ∧
    arrivalRefusal (atStep (admitted r busy)) r.station x r.agent.toNat (r.operandA.setWidth 32)
      (if r.payload then some r.data else none) = none ∧
    Ready .weirArrive r busy ∧ Ready .weirArriveWait r busy ∧
    recordsFree (atStep (admitted r busy)) r.station r.fnStamp.toNat 1 = true :=
  ⟨withTag busy (rec (hd 2 6) 3 0), weirNode, (nodeFor_tagged _ _ _ _).trans (by decide +kernel), by decide +kernel,
    by decide +kernel, ready_withTag (by decide +kernel), ready_withTag (by decide +kernel), by decide +kernel⟩

theorem weir_waits (e : Word) (h : e = 2 ∨ e = 3) : ∃ r x, Ready .weirWait r busy ∧
    recordsFree (admitted r busy) r.station r.fnStamp.toNat 1 = true ∧
    nodeFor (admitted r busy) r.station r.handle = some x ∧ x.pendingReply = false ∧ x.failed = false ∧ x.broken = false ∧
    r.operandA = e ∧
    (2 ^ 31 ≤ ((e.setWidth 32) - x.open_).toNat ∨ ((e.setWidth 32) - x.open_).toNat < 2) := by
  rcases h with rfl | rfl
  · exact ⟨withTag busy (rec (hd 2 6) 2 0), weirNode, ready_withTag (by decide +kernel), by decide +kernel,
      (nodeFor_tagged _ _ _ _).trans (by decide +kernel), by decide +kernel, by decide +kernel, by decide +kernel, rfl,
      .inl (by decide +kernel)⟩
  · exact ⟨withTag busy (rec (hd 2 6) 3 0), weirNode, ready_withTag (by decide +kernel), by decide +kernel,
      (nodeFor_tagged _ _ _ _).trans (by decide +kernel), by decide +kernel, by decide +kernel, by decide +kernel, rfl,
      .inr (by decide +kernel)⟩

/-- A weir whose home is station 1. -/
def farWeir : State := withFar busy (obj 2 21 (.weir weir))

theorem weir_listens : ∃ r e, Ready .weirWait r farWeir ∧
    recordsFree (admitted r farWeir) r.station r.fnStamp.toNat 2 = true ∧
    nodeFor (admitted r farWeir) r.station r.handle = none ∧
    chartAt (admitted r farWeir) r.station (Handle.index r.handle) = some e :=
  ⟨withTag farWeir (rec (hd 2 21) 3 0), ⟨0, 1⟩, ready_withTag (by decide +kernel), by decide +kernel,
    (nodeFor_tagged _ _ _ _).trans (by decide +kernel),
    (congrArg (chartAt _ _) (tagged_fields _ _).2.2.2.1).trans (by decide +kernel)⟩

/-- A payload from its number, byte 0 lowest. -/
def payload (n : Nat) : Payload := payloadOf (bytesLE 64 n)

theorem weir_policy : MeetsHere .weirRead (withTag busy (rec (hd 2 6) 0 0)) busy weirObj ∧
    MeetsHere .weirPolicy (withTag busy (recWide (hd 2 6) 0 0 (payload (1 + 5 * 2 ^ 16)))) busy weirObj ∧
    payloadNat (payload (1 + 5 * 2 ^ 16)) 8 56 = 0 ∧ payloadNat (payload (1 + 5 * 2 ^ 16)) 0 8 = 1 + 5 * 2 ^ 16 :=
  ⟨meets (by decide +kernel), meets (by decide +kernel), by decide +kernel⟩

theorem landing_meets : MeetsHere .landExpect (withTag busy (rec (hd 3 7 1) 5 0)) busy landObj ∧
    MeetsHere .landExpect (withTag busy (rec (hd 3 7 1) 0 0)) busy landObj ∧
    MeetsHere .landRead (withTag busy (rec (hd 3 7 1) 0 0)) busy landObj ∧
    WaitsHere .landWait (withTag busy (rec (hd 3 7 1) 0 0)) busy landObj ∧
    MeetsHere .landRenew (withTag busy (rec (hd 3 7 1) 0 0)) busy landObj ∧
    Handle.sel (withTag busy (rec (hd 3 7 1) 0 0)).handle = landing.xgen.toNat ∧
    landing.expect.toNat ≤ landing.landed.toNat :=
  ⟨meets (by decide +kernel), meets (by decide +kernel), meets (by decide +kernel), waits (by decide +kernel),
    meets (by decide +kernel), (tagged_fields _ _).2.2.2.2.1, by decide⟩

theorem landing_stale : MeetsHere .landExpect (withTag busy (rec (hd 3 7 2) 5 0)) busy landObj ∧
    MeetsHere .landRead (withTag busy (rec (hd 3 7 2) 0 0)) busy landObj ∧
    MeetsHere .landSeal (withTag busy (recWide (hd 3 7 2) 0x4000 0xFF 1)) busy landObj ∧
    MeetsHere .landRenew (withTag busy (rec (hd 3 7 2) 0 0)) busy landObj ∧
    WaitsHere .landWait (withTag busy (rec (hd 3 7 2) 0 0)) busy landObj ∧
    Handle.sel (withTag busy (rec (hd 3 7 2) 0 0)).handle ≠ landing.xgen.toNat :=
  ⟨meets (by decide +kernel), meets (by decide +kernel), meets (by decide +kernel), meets (by decide +kernel),
    waits (by decide +kernel),
    by rw [show (withTag busy (rec (hd 3 7 2) 0 0)).handle = tagged busy (hd 3 7 2) from rfl, (tagged_fields _ _).2.2.2.2.1]
       decide +kernel⟩

theorem land_seal_meets : ∃ r, Handle.sel r.handle = landing.xgen.toNat ∧ MeetsHere .landSeal r busy landObj ∧
    r.operandB ≠ 0 ∧ r.operandA.toNat % 64 = 0 ∧ r.payload = true :=
  ⟨withTag busy (recWide (hd 3 7 1) 0x4000 0xFF 1), (tagged_fields _ _).2.2.2.2.1, meets (by decide +kernel), by decide +kernel⟩

/-- The queue with no tolled tokens, and the queue with no mark. -/
def untolled : Obj := obj 4 8 (.queue { queue with tollOut := 0 })
def unmarked : Obj := obj 4 8 (.queue { queue with markValid := false })

theorem queue_push : ∃ r toks, MeetsHere .qPush r busy queueObj ∧
    pushTokens (travelling .qPush r (admitted r busy) 0) = some toks ∧ toks.length ≤ queue.tollOut :=
  ⟨withTag busy (rec (hd 4 8) 55 0x101), [⟨55, true⟩], meets (by decide +kernel), by decide +kernel⟩
theorem queue_push_untolled : ∃ r toks, MeetsHere .qPush r (withObj busy untolled) untolled ∧
    pushTokens (travelling .qPush r (admitted r (withObj busy untolled)) 0) = some toks ∧ 0 < toks.length :=
  ⟨withTag (withObj busy untolled) (rec (hd 4 8) 55 1), [⟨55, false⟩], meets (by decide +kernel), by decide +kernel⟩
theorem tail_takes : queue.spillTail = 0 ∧ queue.tail.length + [(⟨1, true⟩ : Token)].length < 16 := by decide +kernel
theorem queue_pop : WaitsHere .qPop (withTag busy { rec (hd 4 8) 1 0 with hold := true }) busy queueObj ∧
    queue.read < queue.push ∧ queue.present = true ∧ queue.holds 0 = true ∧ 0 ≤ queue.capacity ∧ queue.faultAt = none :=
  ⟨waits (by decide +kernel), by decide +kernel⟩
theorem queue_pop_waits : WaitsHere .qPop (withTag busy { rec (hd 4 8) 1 5 with hold := true }) busy queueObj ∧
    queue.holds 5 = false ∧ 5 ≤ queue.capacity ∧ queue.idleDue = false :=
  ⟨waits (by decide +kernel), by decide +kernel⟩
theorem queue_cursors : MeetsHere .qMark (withTag busy (rec (hd 4 8) 0 0)) busy queueObj ∧
    MeetsHere .qRewind (withTag busy (rec (hd 4 8) 0 0)) busy queueObj ∧ queue.markValid = true ∧
    MeetsHere .qRelease (withTag busy (rec (hd 4 8) 0 0)) busy queueObj ∧ queue.rel + (queue.read - queue.rel) ≤ queue.read ∧
    MeetsHere .qRelease (withTag busy (rec (hd 4 8) 5 0)) busy queueObj ∧ queue.read < queue.rel + 5 ∧
    MeetsHere .qRead (withTag busy (rec (hd 4 8) 0 0)) busy queueObj ∧
    MeetsHere .qRewind (withTag (withObj busy unmarked) (rec (hd 4 8) 0 0)) (withObj busy unmarked) unmarked :=
  ⟨meets (by decide +kernel), meets (by decide +kernel), by decide, meets (by decide +kernel), by decide +kernel,
    meets (by decide +kernel), by decide +kernel, meets (by decide +kernel), meets (by decide +kernel)⟩
theorem queue_toll : WaitsHere .qToll (withTag busy (rec (hd 4 8) 4 0)) busy queueObj ∧ 4 ≤ queue.free ∧ 4 ≤ queue.capacity :=
  ⟨waits (by decide +kernel), by decide +kernel⟩
theorem queue_toll_waits : WaitsHere .qToll (withTag busy (rec (hd 4 8) 60 0)) busy queueObj ∧ queue.free < 60 ∧
    60 ≤ queue.capacity := ⟨waits (by decide +kernel), by decide +kernel⟩
theorem queue_policy : MeetsHere .qPolicy (withTag busy (recWide (hd 4 8) 0 0 (payload 100))) busy queueObj ∧
    payloadNat (payload 100) 8 56 = 0 ∧ payloadNat (payload 100) 0 8 = 100 :=
  ⟨meets (by decide +kernel), by decide +kernel⟩
theorem spill_tokens : (List.replicate 16 (⟨3, true⟩ : Token)).length = 16 := by decide

/-! ## Rules, keepers, beacon slots, the page -/

/-- The rule ARMED, and the rule FIRING. -/
def armed : Obj := obj 5 9 (.rule { rule with state := 1, armSeq := 1 })
def firing : Obj := obj 5 9 (.rule { rule with state := 2, armSeq := 1, met := [0], fireSeq := 1 })

theorem rule_meets : MeetsHere .frArm (withTag busy (rec (hd 5 9) 0x105 3)) busy ruleObj ∧
    rule.state = 0 ∧ localityOk (bits (0x105 : Word) 7 0) = true ∧
    MeetsHere .frDisarm (withTag (withObj busy armed) (rec (hd 5 9) 0 0)) (withObj busy armed) armed ∧
    MeetsHere .frDisarm (withTag (withObj busy firing) (rec (hd 5 9) 0 0)) (withObj busy firing) firing ∧
    MeetsHere .frRead (withTag busy (rec (hd 5 9) 0 0)) busy ruleObj :=
  ⟨meets (by decide +kernel), by decide, by decide +kernel, meets (by decide +kernel), meets (by decide +kernel),
    meets (by decide +kernel)⟩

/-- A policy for group 0. -/
def onePolicy : Payload := payload (2 ^ 102)

theorem keeper_meets : MeetsHere .skRead (withTag busy (rec (hd 6 10) 0 0)) busy keeperObj ∧
    ((keeperOf live).view 0 0).isSome = true ∧ Handle.sel (withTag busy (rec (hd 6 10) 0 0)).handle = 0 ∧
    MeetsHere .skPolicy (withTag busy (recWide (hd 6 10) 0 0 onePolicy)) busy keeperObj ∧ policyOk onePolicy = true ∧
    (policyOf onePolicy).count = 1 ∧ (policyOf onePolicy).first + 1 ≤ (keeperOf live).groups.length ∧
    MeetsHere .skExport (withTag busy (rec (hd 6 10) 0x100 0)) busy keeperObj ∧ (keeperOf live).transfer = 0 ∧
    MeetsHere .skImport (withTag busy (recWide (hd 6 10) 0x100 0 (payload ((keeperOf live).length * 2 ^ 32)))) busy keeperObj ∧
    payloadNat (payload ((keeperOf live).length * 2 ^ 32)) 4 4 = (keeperOf live).length ∧
    payloadNat (payload ((keeperOf live).length * 2 ^ 32)) 8 56 = 0 :=
  ⟨meets (by decide +kernel), by decide +kernel, (tagged_fields _ _).2.2.2.2.1.trans (by decide +kernel),
    meets (by decide +kernel), by decide +kernel, by decide +kernel, by decide +kernel, meets (by decide +kernel),
    by decide +kernel, meets (by decide +kernel), by decide +kernel, by decide +kernel⟩

/-- The SK_REPORT of agent 0, of a block of groups. -/
def report (block : Nat) : OpRec := withTag busy (recWide (hd 6 10 block) 0 0 0)

theorem keeper_reports (block : Nat) (h : block = 0 ∨ block = 1) : ∃ x, Ready .skReport (report block) busy ∧
    keeperNode (admitted (report block) busy) 0 (Handle.hi (report block).handle) = some x ∧
    x.params.keeper = some (hi 6 10, 4) ∧ Handle.sel (report block).handle = block ∧
    arrivalRefusal (atStep (admitted (report block) busy)) 0 x 0 (BitVec.ofNat 32 block) (some 0) = none := by
  rcases h with rfl | rfl
  · exact ⟨keeperWeirNode, ready_withTag (by decide +kernel),
      (congrArg (keeperNode _ _) (tagged_fields _ _).1).trans (by decide +kernel), by decide +kernel,
      (tagged_fields _ _).2.2.2.2.1.trans (by decide +kernel), by decide +kernel⟩
  · exact ⟨keeperWeirNode, ready_withTag (by decide +kernel),
      (congrArg (keeperNode _ _) (tagged_fields _ _).1).trans (by decide +kernel), by decide +kernel,
      (tagged_fields _ _).2.2.2.2.1.trans (by decide +kernel), by decide +kernel⟩

theorem reportBad_withTag (s : State) (r : OpRec) (g : Nat) :
    reportBad (admOf .skReport (withTag s r)) g = reportBad (admOf .skReport r) g := by
  have k : (withTag s r).handle = tagged s r.handle := rfl
  simp only [reportBad, admOf, k, (tagged_fields s r.handle).2.2.2.2.1]
  rfl
theorem keeper_report_fits : reportBad (admOf .skReport (report 0)) 4 = false ∧
    reportBad (admOf .skReport (report 1)) 4 = true :=
  ⟨(reportBad_withTag _ _ _).trans (by decide +kernel), (reportBad_withTag _ _ _).trans (by decide +kernel)⟩

theorem beacon_meets : MeetsHere .bcnWrite (withTag busy (rec (hd 7 12) 9 0)) busy beaconObj ∧
    MeetsHere .bcnRead (withTag busy (rec (hd 7 12) 0 0)) busy beaconObj :=
  ⟨meets (by decide +kernel), meets (by decide +kernel)⟩

theorem aperture_here : portHere busy 0 = true ∧ towpathActs busy 0 = false ∧
    beaconFits ⟨0, false, 0, 5, 17, 4, true⟩ = true ∧ beaconFits ⟨0, false, 0, 5, 17, 5, true⟩ = false ∧
    (station busy 0).state ≠ .dozing := by decide +kernel
theorem aperture_asleep : portHere (onStation busy 0 fun st => { st with state := .dozing }) 0 = true ∧
    towpathActs (onStation busy 0 fun st => { st with state := .dozing }) 0 = false ∧
    (station (onStation busy 0 fun st => { st with state := .dozing }) 0).state = .dozing ∧
    portHere (onStation busy 0 fun st => { st with state := .reset }) 0 = true ∧
    towpathActs (onStation busy 0 fun st => { st with state := .reset }) 0 = true := by decide +kernel

/-! ## Creation and destruction -/


/-- The state in which the home's step of a creation begins. -/
def begun (op : Opcode) (r : OpRec) (s : State) : State := atStep (opened op r (admitted r s) none)

/-- What every creation here needs. -/
theorem creates {op : Opcode} {r : OpRec} {s : State} (a : Ready op r s)
    (b : creationHome (admitted r s) (admOf op r) = .inr r.station) (c : (fnOf (begun op r s) (Handle.fn r.handle)).state = .enabled) :
    CreatesHere op r s (begun op r s) := ⟨a, b, rfl, c⟩

theorem simple_creations :
    CreatesHere .ctrCreate (rec (template 1) 7 0) busy (begun .ctrCreate (rec (template 1) 7 0) busy) ∧
    (newObj (begun .ctrCreate (rec (template 1) 7 0) busy) 0 17 1 (.counter ⟨7, [], 0⟩)).isSome = true ∧
    CreatesHere .landCreate (rec (template 3) 0 0) busy (begun .landCreate (rec (template 3) 0 0) busy) ∧
    (newObj (begun .landCreate (rec (template 3) 0 0) busy) 0 17 3 (.landing ⟨0, 0, 0, [], [], 0⟩)).isSome = true ∧
    CreatesHere .bcnCreate (rec (template 7) 0 0) busy (begun .bcnCreate (rec (template 7) 0 0) busy) ∧
    ((takeWord (begun .bcnCreate (rec (template 7) 0 0) busy) 17).any fun p =>
      (newObj p.2 0 17 7 (.beacon ⟨p.1, 0⟩)).isSome) = true ∧
    objectQuota (begun .ctrCreate (rec (template 1) 7 0) busy) 17 2 = true :=
  ⟨creates (by decide +kernel) (by decide +kernel) (by decide +kernel), by decide +kernel,
    creates (by decide +kernel) (by decide +kernel) (by decide +kernel), by decide +kernel,
    creates (by decide +kernel) (by decide +kernel) (by decide +kernel), by decide +kernel, by decide +kernel⟩

/-- A queue of 64 tokens, 8 of them tolled for its creator. -/
def qCreateRec : OpRec := rec (template 4) (64 + 8 * 2 ^ 32) 0
theorem queue_creation : CreatesHere .qCreate qCreateRec busy (begun .qCreate qCreateRec busy) ∧
    queueFieldsOk (begun .qCreate qCreateRec busy) (travelling .qCreate qCreateRec (admitted qCreateRec busy) 0) = true ∧
    windowQuota (begun .qCreate qCreateRec busy) 17 = true ∧
    (newObj (begun .qCreate qCreateRec busy) 0 17 4 (.queue queue)).isSome = true :=
  ⟨creates (by decide +kernel) (by decide +kernel) (by decide +kernel), by decide +kernel, by decide +kernel, by decide +kernel⟩

/-- A weir of cores 0 and 1. -/
def weirCreateRec : OpRec := rec (template 2) (2 * 2 ^ 11 + 2 ^ 23) 4
theorem weir_creation : CreatesHere .weirCreate weirCreateRec busy (begun .weirCreate weirCreateRec busy) ∧
    nodeQuota (begun .weirCreate weirCreateRec busy) 17
      (newNode (begun .weirCreate weirCreateRec busy) 0 (weirParams weirCreateRec.operandA weirCreateRec.operandB none) 0 0 0)
      0 0 = true ∧ bit weirCreateRec.operandB 3 = false ∧
    (startWeir (begun .weirCreate weirCreateRec busy) 0 17
      { weirParams weirCreateRec.operandA weirCreateRec.operandB none with publish := none } 0 0 0).isSome = true :=
  ⟨creates (by decide +kernel) (by decide +kernel) (by decide +kernel), by decide +kernel, by decide +kernel, by decide +kernel⟩

/-- A keeper of 4 groups with the default policy. -/
def skCreateRec : OpRec := recWide (template 6) (2 * 2 ^ 11 + 2 ^ 23) (4 + 4 * 2 ^ 16) 0
theorem keeper_creation : CreatesHere .skCreate skCreateRec busy (begun .skCreate skCreateRec busy) ∧
    nodeQuota (begun .skCreate skCreateRec busy) 17
      (newNode (begun .skCreate skCreateRec busy) 0 (keeperParams skCreateRec.operandA skCreateRec.operandB) 0 0 0)
      0 8 = true ∧
    ((newObj (begun .skCreate skCreateRec busy) 0 17 6 (.keeper (keeperOf busy))).any fun p =>
      (startWeir p.2 0 17 { keeperParams skCreateRec.operandA skCreateRec.operandB with keeper := some (p.1.hi, 4) } 0 0
        0).isSome) = true :=
  ⟨creates (by decide +kernel) (by decide +kernel) (by decide +kernel), by decide +kernel, by decide +kernel⟩

/-- A rule on counter 5 of the function, whose handle has a tag. -/
def ruleData (t : BitVec 16) : Payload :=
  BitVec.ofNat 512 ((1 * 2 ^ 78 + 5 * 2 ^ 64 + t.toNat * 2 ^ 48 + 20 * 2 ^ 16 + 1) * 2 ^ 416)

theorem ruleData_toNat (t : BitVec 16) :
    (ruleData t).toNat = (1 * 2 ^ 78 + 5 * 2 ^ 64 + t.toNat * 2 ^ 48 + 20 * 2 ^ 16 + 1) * 2 ^ 416 := by
  have := t.isLt
  rw [ruleData, BitVec.toNat_ofNat, Nat.mod_eq_of_lt]; omega

theorem ruleData_low (t : BitVec 16) (h l : Nat) (k : h + 1 ≤ 416) : bits (ruleData t) h l = 0 := by
  by_cases hl : h + 1 ≤ l
  · simp [bits, Nat.sub_eq_zero_of_le hl, Nat.mod_one]
  · have e : (416 : Nat) = l + ((h + 1 - l) + (416 - (h + 1))) := by omega
    rw [bits, ruleData_toNat, e, Nat.pow_add, ← Nat.mul_assoc, Nat.mul_right_comm, Nat.mul_div_cancel _ (by positivity),
      Nat.pow_add, ← Nat.mul_assoc, Nat.mul_right_comm, Nat.mul_mod_left]

theorem ruleData_slots (t : BitVec 16) :
    inputSlot (ruleData t) 0 = BitVec.ofNat 96 (1 * 2 ^ 78 + 5 * 2 ^ 64 + t.toNat * 2 ^ 48 + 20 * 2 ^ 16 + 1) ∧
    inputSlot (ruleData t) 1 = 0 ∧ inputSlot (ruleData t) 2 = 0 ∧ inputSlot (ruleData t) 3 = 0 := by
  refine ⟨?_, ?_, ?_, ?_⟩
  · rw [inputSlot, bits, ruleData_toNat, Nat.mul_div_cancel _ (by positivity)]
    apply BitVec.eq_of_toNat_eq
    simp
  all_goals
    rw [inputSlot, ruleData_low _ _ _ (by decide)]; rfl

theorem ruleData_input (t : BitVec 16) :
    ruleInput 17 (inputSlot (ruleData t) 0) = ⟨handleOf (hi 1 5) t 0, 20, 1⟩ := by
  have lt := t.isLt
  rw [(ruleData_slots t).1]
  generalize hv : BitVec.ofNat 96 (1 * 2 ^ 78 + 5 * 2 ^ 64 + t.toNat * 2 ^ 48 + 20 * 2 ^ 16 + 1) = v
  have e : v.toNat = 1 * 2 ^ 78 + 5 * 2 ^ 64 + t.toNat * 2 ^ 48 + 20 * 2 ^ 16 + 1 := by
    rw [← hv, BitVec.toNat_ofNat]; exact Nat.mod_eq_of_lt (by omega)
  have a : bits v 91 82 = 0 := by rw [bits, e]; omega
  have b : bits v 81 78 = 1 := by rw [bits, e]; omega
  have c : bits v 77 64 = 5 := by rw [bits, e]; omega
  have d : bits v 63 48 = t.toNat := by rw [bits, e]; omega
  have f : bits v 47 16 = 20 := by rw [bits, e]; omega
  have g : bits v 15 0 = 1 := by rw [bits, e]; omega
  rw [ruleInput, a, b, c, d, f, g, BitVec.ofNat_toNat, BitVec.setWidth_eq]
  rfl

theorem ruleData_fields (s : State) (a b : Word) (t : BitVec 16) :
    ruleFieldsOk s 17 a b (some (ruleData t)) = ruleFieldsOk s 17 a b (some (ruleData 0)) := by
  have k : ∀ t : BitVec 16, bits (inputSlot (ruleData t) 0) 95 92 = 0 ∧ bits (inputSlot (ruleData t) 0) 81 78 = 1 ∧
      bits (inputSlot (ruleData t) 0) 15 0 = 1 ∧ bits (inputSlot (ruleData t) 0) 47 16 = 20 ∧
      (inputSlot (ruleData t) 0 == 0) = false := by
    intro t
    have lt := t.isLt
    rw [(ruleData_slots t).1]
    generalize hv : BitVec.ofNat 96 (1 * 2 ^ 78 + 5 * 2 ^ 64 + t.toNat * 2 ^ 48 + 20 * 2 ^ 16 + 1) = v
    have e : v.toNat = 1 * 2 ^ 78 + 5 * 2 ^ 64 + t.toNat * 2 ^ 48 + 20 * 2 ^ 16 + 1 := by
      rw [← hv, BitVec.toNat_ofNat]; exact Nat.mod_eq_of_lt (by omega)
    refine ⟨?_, ?_, ?_, ?_, ?_⟩
    · rw [bits, e]; omega
    · rw [bits, e]; omega
    · rw [bits, e]; omega
    · rw [bits, e]; omega
    · rw [beq_eq_false_iff_ne]; intro h; rw [h] at e; simp at e
  have r : List.range 4 = [0, 1, 2, 3] := rfl
  simp only [ruleFieldsOk, r, List.all_cons, List.all_nil, (k t).1, (k t).2.1, (k t).2.2.1, (k t).2.2.2.1, (k t).2.2.2.2,
    (k 0).1, (k 0).2.1, (k 0).2.2.1, (k 0).2.2.2.1, (k 0).2.2.2.2, (ruleData_slots t).2.1, (ruleData_slots t).2.2.1,
    (ruleData_slots t).2.2.2, (ruleData_slots 0).2.1, (ruleData_slots 0).2.2.1, (ruleData_slots 0).2.2.2,
    ruleData_low t 127 0 (by decide), ruleData_low 0 127 0 (by decide), ruleData_low t 127 46 (by decide),
    ruleData_low 0 127 46 (by decide), ruleData_low t 45 32 (by decide), ruleData_low 0 45 32 (by decide)]

theorem handleOf_toNat (h : BitVec 40) (t : BitVec 16) :
    (handleOf h t 0).toNat = h.toNat * 2 ^ 24 + t.toNat * 2 ^ 8 := by
  have a := h.isLt
  have b := t.isLt
  unfold handleOf
  rw [BitVec.toNat_ofNat, Nat.mod_eq_of_lt (by omega)]
  omega

theorem handleOf_fields (h : BitVec 40) (t : BitVec 16) :
    Handle.hi (handleOf h t 0) = h ∧ Handle.tag (handleOf h t 0) = t ∧ Handle.sel (handleOf h t 0) = 0 ∧
    Handle.fn (handleOf h t 0) = bits h 39 28 ∧ Handle.cls (handleOf h t 0) = bits h 17 14 ∧
    Handle.index (handleOf h t 0) = bits h 13 0 := by
  have a := h.isLt
  have b := t.isLt
  have c := handleOf_toNat h t
  generalize handleOf h t 0 = v at c ⊢
  refine ⟨?_, ?_, ?_, ?_, ?_, ?_⟩
  · apply BitVec.eq_of_toNat_eq
    rw [Handle.hi, BitVec.extractLsb'_toNat, Nat.shiftRight_eq_div_pow, c]; omega
  · apply BitVec.eq_of_toNat_eq
    rw [Handle.tag, BitVec.extractLsb'_toNat, Nat.shiftRight_eq_div_pow, c]; omega
  · rw [Handle.sel, bits, c]; omega
  · rw [Handle.fn, bits, bits, c]; omega
  · rw [Handle.cls, bits, bits, c]; omega
  · rw [Handle.index, bits, bits, c]; omega

theorem ruleData_inputs (a : Word) (t : BitVec 16) (n : bits a 60 58 = 1) :
    ruleInputs 17 a (ruleData t) = [⟨handleOf (hi 1 5) t 0, 20, 1⟩] := by
  simp only [ruleInputs, n, show List.range 1 = [0] from rfl, List.map_cons, List.map_nil, ruleData_input]

/-- The home of a rule whose input is known by its tag is the one that its cost gives, whatever the tag is. -/
theorem ruleHome_tag (s : State) (x : Adm) (t : BitVec 16) (o : x.op = .frCreate) (f : x.fn = 17)
    (n : bits x.a 60 58 = 1) (g : ruleHandlesOk s 17 (newRule 17 x.a x.b (ruleData t)) = true)
    (q : objectQuota s 17 = true) :
    creationHome s { x with data := some (ruleData t) } =
      match chooseHome s (fun _ => ⟨1, 1, false, 0⟩) (ruleCost s x.n (newRule 17 x.a x.b (ruleData 0))) with
      | some m =>
        if !recordsFree s m 17 1 then .inl .quota
        else if ruleFieldsOk s 17 x.a x.b (some (ruleData 0)) then .inr m else .inl .privilege
      | none => .inl .quota := by
  have c : ruleCost s x.n (newRule 17 x.a x.b (ruleData t)) = ruleCost s x.n (newRule 17 x.a x.b (ruleData 0)) := by
    funext k
    simp only [ruleCost, newRule, ruleData_inputs x.a _ n, List.map_cons, List.map_nil, (handleOf_fields _ _).2.2.2.2.2,
      ruleData_low t 127 0 (by decide), ruleData_low 0 127 0 (by decide)]
  simp only [creationHome, ledgerOpen, o, f, ruleData_fields s x.a x.b t, Option.getD_some, c, g, q]
  rfl

/-- A rule of one input, which launches on core 0. -/
def frCreateRec (t : BitVec 16) : OpRec :=
  recWide (template 5) (BitVec.ofNat 64 (2 ^ 58 + 0xFF * 2 ^ 50 + 2 ^ 23 + 2 ^ 11)) 0 (ruleData t)

theorem tagOf_admitted (r : OpRec) (s : State) (h : BitVec 40) : tagOf (admitted r s) h = tagOf s h :=
  tagOf_noticed s r h

theorem tagOf_begun (op : Opcode) (r : OpRec) (s : State) (h : BitVec 40) : tagOf (begun op r s) h = tagOf s h :=
  tagOf_noticed s r h

theorem ruleHandle_tagged (s : State) (h : BitVec 40) (f : Nat) (l : List Nat) (a : bits h 39 28 = f)
    (b : l.contains (bits h 17 14) = true) : ruleHandleOk s f l (handleOf h (tagOf s h) 0) = true := by
  obtain ⟨k1, k2, k3, k4, k5, k6⟩ := handleOf_fields h (tagOf s h)
  simp [ruleHandleOk, tagOk, k1, k2, k3, k4, k5, a, List.contains_iff_mem.mp b]

theorem admOf_data (r : OpRec) (d : Payload) (p : r.payload = true) :
    admOf .frCreate { r with data := d } = { admOf .frCreate r with data := some d } := by
  simp only [admOf, p, if_true]

theorem admitted_data (r : OpRec) (s : State) (d : Payload) : admitted { r with data := d } s = admitted r s := rfl

theorem frCreate_inputs (s u : State) (a b : Word) (n : bits a 60 58 = 1) (e : ∀ h, tagOf u h = tagOf s h) :
    (newRule 17 a b (ruleData (tagOf s (hi 1 5)))).inputs.all (fun i => ruleHandleOk u 17 [1, 2, 4] i.handle) = true := by
  have k : (newRule 17 a b (ruleData (tagOf s (hi 1 5)))).inputs = [⟨handleOf (hi 1 5) (tagOf s (hi 1 5)) 0, 20, 1⟩] :=
    ruleData_inputs a _ n
  rw [k, List.all_cons, List.all_nil, Bool.and_true, ← e]
  exact ruleHandle_tagged _ _ _ _ (by decide +kernel) (by decide +kernel)

theorem frCreate_handles (s u : State) (a b : Word) (n : bits a 60 58 = 1) (m : bits a 63 62 = 0)
    (e : ∀ h, tagOf u h = tagOf s h) : ruleHandlesOk u 17 (newRule 17 a b (ruleData (tagOf s (hi 1 5)))) = true := by
  have k : (newRule 17 a b (ruleData (tagOf s (hi 1 5)))).inputs = [⟨handleOf (hi 1 5) (tagOf s (hi 1 5)) 0, 20, 1⟩] :=
    ruleData_inputs a _ n
  have l := frCreate_inputs s u a b n e
  rw [k] at l
  have z : (newRule 17 a b (ruleData (tagOf s (hi 1 5)))).action = 0 := m
  unfold ruleHandlesOk
  rw [k, z]
  exact (Bool.and_true _).trans l

/-- The record whose input has the tag of counter 5. -/
def frRec : OpRec := frCreateRec (tagOf busy (hi 1 5))

theorem frCreate_home (s : State) (r : OpRec) (p : r.payload = true) (f : r.fnStamp.toNat = 17)
    (n : bits r.operandA 60 58 = 1) (m : bits r.operandA 63 62 = 0) (q : objectQuota (admitted r s) 17 = true) :
    creationHome (admitted { r with data := ruleData (tagOf s (hi 1 5)) } s)
      (admOf .frCreate { r with data := ruleData (tagOf s (hi 1 5)) }) =
    match chooseHome (admitted r s) (fun _ => ⟨1, 1, false, 0⟩)
        (ruleCost (admitted r s) r.station (newRule 17 r.operandA r.operandB (ruleData 0))) with
    | some m =>
      if !recordsFree (admitted r s) m 17 1 then .inl .quota
      else if ruleFieldsOk (admitted r s) 17 r.operandA r.operandB (some (ruleData 0)) then .inr m else .inl .privilege
    | none => .inl .quota := by
  rw [admitted_data, admOf_data r _ p]
  exact ruleHome_tag (admitted r s) (admOf .frCreate r) _ rfl f n (frCreate_handles s _ _ _ n m (tagOf_admitted r s)) q

theorem rule_creation_home : creationHome (admitted frRec busy) (admOf .frCreate frRec) = .inr 0 :=
  (frCreate_home busy (frCreateRec 0) rfl (by decide +kernel) (by decide +kernel) (by decide +kernel)
    (by decide +kernel)).trans (by decide +kernel)

theorem rule_creation : CreatesHere .frCreate frRec busy (begun .frCreate frRec busy) ∧
    objectQuota (begun .frCreate frRec busy) 17 = true ∧ recordsFree (begun .frCreate frRec busy) 0 17 1 = true :=
  ⟨creates (by decide +kernel) rule_creation_home (by decide +kernel), by decide +kernel, by decide +kernel⟩

theorem rule_creation_object :
    (newRule 17 frRec.operandA frRec.operandB frRec.data).action = 0 ∧
    (newRule 17 frRec.operandA frRec.operandB frRec.data).inputs.all
      (fun i => ruleHandleOk (begun .frCreate frRec busy) 17 [1, 2, 4] i.handle) = true ∧
    (newObj (begun .frCreate frRec busy) 0 17 5 (.rule (newRule 17 frRec.operandA frRec.operandB frRec.data))).isSome =
      true :=
  ⟨by decide +kernel,
    frCreate_inputs busy _ frRec.operandA frRec.operandB (by decide +kernel) (tagOf_begun .frCreate frRec busy),
    by decide +kernel⟩

theorem destroys : MeetsHere .destroy (withTag busy (rec (hd 1 5) 0 0)) busy counterObj ∧
    MeetsHere .destroy (withTag busy (rec (hd 3 7 1) 0 0)) busy landObj ∧
    MeetsHere .destroy (withTag busy (rec (hd 4 8) 0 0)) busy queueObj ∧ queue.pushing = none ∧
    MeetsHere .destroy (withTag busy (rec (hd 2 6) 0 0)) busy weirObj ∧ weir.params.keeper = none ∧
    MeetsHere .destroy (withTag busy (rec (hd 2 11) 0 0)) busy keeperWeirObj ∧ keeperWeirParams.keeper = some (hi 6 10, 4) ∧
    MeetsHere .destroy (withTag busy (rec (hd 5 9) 0 0)) busy ruleObj ∧
    MeetsHere .destroy (withTag busy (rec (hd 6 10) 0 0)) busy keeperObj ∧
    MeetsHere .destroy (withTag busy (rec (hd 7 12) 0 0)) busy beaconObj :=
  ⟨meets (by decide +kernel), meets (by decide +kernel), meets (by decide +kernel), rfl, meets (by decide +kernel), rfl,
    meets (by decide +kernel), rfl, meets (by decide +kernel), meets (by decide +kernel), meets (by decide +kernel)⟩
theorem destroy_selectors (sel : Nat) (h : sel = 1 ∨ sel = 2) :
    MeetsHere .destroy (withTag busy (rec (hd 3 7 sel) 0 0)) busy landObj ∧
    Handle.sel (withTag busy (rec (hd 3 7 sel) 0 0)).handle = sel := by
  rcases h with rfl | rfl
  · exact ⟨meets (by decide +kernel), (tagged_fields _ _).2.2.2.2.1.trans (by decide +kernel)⟩
  · exact ⟨meets (by decide +kernel), (tagged_fields _ _).2.2.2.2.1.trans (by decide +kernel)⟩

theorem creation_leaves : Ready .ctrCreate (rec (template 1) 7 (BitVec.ofNat 64 (1 * 2 ^ 11 + 32))) busy ∧
    creationHome (admitted (rec (template 1) 7 (BitVec.ofNat 64 (1 * 2 ^ 11 + 32))) busy)
      (admOf .ctrCreate (rec (template 1) 7 (BitVec.ofNat 64 (1 * 2 ^ 11 + 32)))) = .inr 1 := by decide +kernel
theorem creation_refused : Ready .weirCreate (rec (template 2) (2 * 2 ^ 11 + 2 ^ 23) 1) busy ∧
    creationHome (admitted (rec (template 2) (2 * 2 ^ 11 + 2 ^ 23) 1) busy)
      (admOf .weirCreate (rec (template 2) (2 * 2 ^ 11 + 2 ^ 23) 1)) = .inl .scope := by decide +kernel

/-! ## Messages of the operation interface -/

/-- One message on the course. -/
def inFlight (s : State) (src dst : Nat) (b : MsgBody) : State := { s with course := [⟨src, dst, b⟩] }

/-- An operation of agent 32 at station 1. -/
def fwd (op : Opcode) (h a b : Word) (hops : Nat) : FwdOp := ⟨op, 128, 1, 4, 0, h, a, b, none, 0, 0, 1, false, hops⟩

theorem forwarded_meets : TakesMsg (inFlight busy 1 0 (.fwdOp (fwd .ctrAdd (hd 1 5) 7 0 0))) 1 0
      (.fwdOp (fwd .ctrAdd (hd 1 5) 7 0 0)) [] ∧
    (station (taken (inFlight busy 1 0 (.fwdOp (fwd .ctrAdd (hd 1 5) 7 0 0))) 0 []) 0).incoming = none ∧
    homeOf (taken (inFlight busy 1 0 (.fwdOp (fwd .ctrAdd (hd 1 5) 7 0 0))) 0 []) 0 (Handle.index (hd 1 5)) = 0 ∧
    Meets (fwd .ctrAdd (hd 1 5) 7 0 0) (taken (inFlight busy 1 0 (.fwdOp (fwd .ctrAdd (hd 1 5) 7 0 0))) 0 []) 0 counterObj := by
  decide +kernel
theorem forwarded_creates : TakesMsg (inFlight busy 1 0 (.fwdOp (fwd .ctrCreate (template 1) 7 0 0))) 1 0
      (.fwdOp (fwd .ctrCreate (template 1) 7 0 0)) [] ∧
    (fnOf (taken (inFlight busy 1 0 (.fwdOp (fwd .ctrCreate (template 1) 7 0 0))) 0 []) (Handle.fn (template 1))).state =
      .enabled := by decide +kernel
theorem forwarded_on (hops : Nat) (h : hops = 1 ∨ hops = 2) :
    TakesMsg (inFlight busy 1 0 (.fwdOp (fwd .ctrAdd (hd 1 20) 7 0 hops))) 1 0 (.fwdOp (fwd .ctrAdd (hd 1 20) 7 0 hops)) [] ∧
    leaving (taken (inFlight busy 1 0 (.fwdOp (fwd .ctrAdd (hd 1 20) 7 0 hops))) 0 []) 0 (Handle.index (hd 1 20)) = false ∧
    homeOf (taken (inFlight busy 1 0 (.fwdOp (fwd .ctrAdd (hd 1 20) 7 0 hops))) 0 []) 0 (Handle.index (hd 1 20)) = 1 := by
  rcases h with rfl | rfl
  · decide +kernel
  · decide +kernel

/-- An open operation of station 0, and one that waits. -/
def open4 : OpenOp := ⟨4, .ctrAdd, 0, .port false 0 5, 9, 0, 1, 17, none, 0, 0⟩
def open5 : OpenOp := ⟨5, .ctrWaitGe, 0, .port false 0 6, 9, 0, 1, 17, some 3, 0, 0⟩
def opening : State := onStation (withWait busy (waiter 3 (hd 1 20) (.eddy 1 0) .pending)) 0 fun st =>
  { st with openOps := [open4, open5] }

theorem response_taken : TakesMsg (inFlight opening 1 0 (.response 4 .ok 3 0 none)) 1 0 (.response 4 .ok 3 0 none) [] ∧
    ((station (taken (inFlight opening 1 0 (.response 4 .ok 3 0 none)) 0 []) 0).openOps.find? fun x => x.tag == 4) =
      some open4 ∧ open4.wait = none ∧ open4.reply ≠ .closed := by decide +kernel
theorem registration_taken : TakesMsg (inFlight opening 1 0 (.registeredWait 5 2)) 1 0 (.registeredWait 5 2) [] ∧
    ((station (taken (inFlight opening 1 0 (.registeredWait 5 2)) 0 []) 0).openOps.find? fun x => x.tag == 5) =
      some open5 ∧
    waiterAt (onStation (taken (inFlight opening 1 0 (.registeredWait 5 2)) 0 []) 0
      (fun x => { x with openOps := x.openOps.filter fun y => y.tag != 5 })) 0 3 =
      some (waiter 3 (hd 1 20) (.eddy 1 0) .pending) := by decide +kernel

theorem commit_taken (move : Nat) (h : move < 3) :
    TakesMsg (inFlight busy 1 0 (.chartCommit 20 move 1 (move == 2))) 1 0 (.chartCommit 20 move 1 (move == 2)) [] ∧
    leaving (inFlight busy 1 0 (.chartCommit 20 move 1 (move == 2))) 0 20 = false ∧
    (station (inFlight busy 1 0 (.chartCommit 20 move 1 (move == 2))) 0).incoming = none := by
  revert move; decide +kernel

/-- A commit that ends an entry, and one that says that counter 5 has left its old home. -/
def movedOn : State := onStation busy 0 fun st => { st with outgoing := some ⟨5, 1, 5, [], hd 1 5, false, []⟩ }
theorem commit_ends : TakesMsg (inFlight busy 1 0 (.chartClear 20)) 1 0 (.chartClear 20) [] ∧
    TakesMsg (inFlight movedOn 1 0 (.chartCommit 5 0 1 false)) 1 0 (.chartCommit 5 0 1 false) [] ∧
    leaving (chartSet { inFlight movedOn 1 0 (.chartCommit 5 0 1 false) with course := [] } 0 5 (some ⟨0, 1⟩)) 0 5 = true ∧
    objAt (chartSet { inFlight movedOn 1 0 (.chartCommit 5 0 1 false) with course := [] } 0 5 (some ⟨0, 1⟩)) 0 5 =
      some counterObj := by decide +kernel

/-- A joined wait of station 0, on an eddy of station 1 or on weir 6. -/
def joinedWait (p : Place) : Waiter := { waiter 3 (hd 1 20) p .joined with deadline := some 50 }
theorem wake_taken : TakesMsg (inFlight (withWait busy (joinedWait (.eddy 1 2))) 1 0 (.wake (hd 1 20) 2 none false [3] (plain .ok)))
      1 0 (.wake (hd 1 20) 2 none false [3] (plain .ok)) [] ∧
    waiterAt (taken (inFlight (withWait busy (joinedWait (.eddy 1 2))) 1 0 (.wake (hd 1 20) 2 none false [3] (plain .ok))) 0 []) 0 3 =
      some (joinedWait (.eddy 1 2)) := by decide +kernel
theorem withdrawal_taken : TakesMsg (inFlight busy 1 0 (.withdraw 1 3 (hd 1 5) 2)) 1 0 (.withdraw 1 3 (hd 1 5) 2) [] ∧
    HomeHere (taken (inFlight busy 1 0 (.withdraw 1 3 (hd 1 5) 2)) 0 []) 0 (hd 1 5) ∧
    objAt (atStep (taken (inFlight busy 1 0 (.withdraw 1 3 (hd 1 5) 2)) 0 [])) 0 (Handle.index (hd 1 5)) =
      some counterObj := by decide +kernel
theorem timeout_eddy : takesNow (withWait busy (joinedWait (.eddy 1 2))) 0 true = true ∧
    waiterAt (withWait busy (joinedWait (.eddy 1 2))) 0 3 = some (joinedWait (.eddy 1 2)) ∧
    waiterAt (foreground (withWait busy (joinedWait (.eddy 1 2))) 0) 0 3 = some (joinedWait (.eddy 1 2)) := by decide +kernel
theorem timeout_weir : takesNow (withWait busy (joinedWait (.weir 6 3))) 0 true = true ∧
    waiterAt (withWait busy (joinedWait (.weir 6 3))) 0 3 = some (joinedWait (.weir 6 3)) ∧
    waiterAt (foreground (withWait busy (joinedWait (.weir 6 3))) 0) 0 3 = some (joinedWait (.weir 6 3)) := by decide +kernel

/-- A wake that is ready for agent 0, with one mailbox entry in use. -/
def wakeMsg : PushMsg := ⟨0, some 3, 7, hd 1 20, 5, .ok, .ctrWaitGe, false, 1, none⟩
def pushing : State := onStation (withWait busy (joinedWait (.eddy 1 2))) 0 fun st =>
  { st with ready := [wakeMsg], pushUsed := [(0, 1)] }
theorem push_ready : portsLive pushing = true ∧ awake (station pushing 0) = true ∧ towpathActs pushing 0 = false ∧
    entryClosed pushing 0 = false ∧ nextPush pushing 0 [] (station pushing 0).ready = some wakeMsg ∧
    laneFor (station pushing 0).pushCredit wakeMsg.cost = some 0 ∧
    takeFirst (· == wakeMsg) (station pushing 0).ready = some (wakeMsg, []) := by decide +kernel
theorem push_credit : portHere pushing 0 = true ∧ towpathActs pushing 0 = false ∧ agentFieldOk 0 = true ∧
    (1 : BitVec 4).toNat ≤ tgetD (station pushing 0).pushUsed 0 0 := by decide +kernel

theorem beacon_freed : TakesMsg (inFlight busy 1 0 (.beaconUpdate 3 0 true false (hd 7 12))) 1 0
    (.beaconUpdate 3 0 true false (hd 7 12)) [] := by decide +kernel
theorem beacon_updated : TakesMsg (inFlight busy 1 0 (.beaconUpdate 3 9 false false (hd 7 12))) 1 0
    (.beaconUpdate 3 9 false false (hd 7 12)) [] := by decide +kernel

/-- A state with a job at station 0 for an object of a class and index. -/
def withJob (s : State) (cls index : Nat) (k : JobKind) : State := addJob s 0 ⟨hi cls index, k, 0, 4, 0⟩

theorem beacon_acked (l : List Nat) (h : l = [1] ∨ l = [1, 2]) :
    TakesMsg (inFlight (withJob busy 7 12 (.beaconDestroy 3 l)) 1 0 (.beaconAck 3 (hd 7 12))) 1 0 (.beaconAck 3 (hd 7 12)) [] ∧
    HomeHere (taken (inFlight (withJob busy 7 12 (.beaconDestroy 3 l)) 1 0 (.beaconAck 3 (hd 7 12))) 0 []) 0 (hd 7 12) ∧
    jobOf (atStep (taken (inFlight (withJob busy 7 12 (.beaconDestroy 3 l)) 1 0 (.beaconAck 3 (hd 7 12))) 0 [])) 0
      (Handle.hi (hd 7 12)) = some ⟨hi 7 12, .beaconDestroy 3 l, 0, 4, 0⟩ := by
  rcases h with rfl | rfl
  · decide +kernel
  · decide +kernel

/-! ## Messages of weirs -/

/-- The members of a weir of cores 0 and 32, at stations 0 and 1, whose home is station 1. -/
def wide : WeirParams := ⟨.range 0 64 1, 4, none, 0, 0, 0, false, 0, none⟩
theorem setup_taken : TakesMsg (inFlight busy 1 0 (.setup (hd 2 22) wide 1 false)) 1 0 (.setup (hd 2 22) wide 1 false) [] ∧
    (membersOf (taken (inFlight busy 1 0 (.setup (hd 2 22) wide 1 false)) 0 []) wide.parts 1).contains 0 = true ∧
    nodeQuota (taken (inFlight busy 1 0 (.setup (hd 2 22) wide 1 false)) 0 []) (Handle.fn (hd 2 22))
      (newNode (taken (inFlight busy 1 0 (.setup (hd 2 22) wide 1 false)) 0 []) (Handle.hi (hd 2 22)) wide 1 0 0) 0 0 = true := by
  decide +kernel
theorem setup_refused : TakesMsg (inFlight full 1 0 (.setup (hd 2 22) wide 1 false)) 1 0 (.setup (hd 2 22) wide 1 false) [] ∧
    (membersOf (taken (inFlight full 1 0 (.setup (hd 2 22) wide 1 false)) 0 []) wide.parts 1).contains 0 = true ∧
    nodeQuota (taken (inFlight full 1 0 (.setup (hd 2 22) wide 1 false)) 0 []) (Handle.fn (hd 2 22))
      (newNode (taken (inFlight full 1 0 (.setup (hd 2 22) wide 1 false)) 0 []) (Handle.hi (hd 2 22)) wide 1 0 0) 0 0 = false := by
  decide +kernel
/-- The node of a weir whose home moves to station 1: a member's, and a listener's. -/
def listening : State := putNode busy 0 6 { weirNode with role := 0 }
theorem setup_moves (s : State) (h : s = busy ∨ s = listening) :
    TakesMsg (inFlight s 1 0 (.setup (hd 2 6) wide 1 true)) 1 0 (.setup (hd 2 6) wide 1 true) [] ∧
    ((nodeFor (taken (inFlight s 1 0 (.setup (hd 2 6) wide 1 true)) 0 []) 0 (hd 2 6)).map (·.role)).isSome = true ∧
    ((nodeFor (taken (inFlight busy 1 0 (.setup (hd 2 6) wide 1 true)) 0 []) 0 (hd 2 6)).map (·.role)) ≠ some 0 ∧
    ((nodeFor (taken (inFlight listening 1 0 (.setup (hd 2 6) wide 1 true)) 0 []) 0 (hd 2 6)).map (·.role)) = some 0 := by
  rcases h with rfl | rfl <;> decide +kernel
theorem setup_acked (l : List Nat) (h : l = [1] ∨ l = [1, 2]) :
    TakesMsg (inFlight (withJob busy 2 6 (.weirCreate l false)) 1 0 (.setupAck (hd 2 6) false)) 1 0 (.setupAck (hd 2 6) false) [] ∧
    jobOf (atStep (taken (inFlight (withJob busy 2 6 (.weirCreate l false)) 1 0 (.setupAck (hd 2 6) false)) 0 [])) 0
      (Handle.hi (hd 2 6)) = some ⟨hi 2 6, .weirCreate l false, 0, 4, 0⟩ := by
  rcases h with rfl | rfl
  · decide +kernel
  · decide +kernel

theorem report_taken (b : Bool) : TakesMsg (inFlight busy 1 0 (.combined (hd 2 6) true b false 0 0 none)) 1 0
      (.combined (hd 2 6) true b false 0 0 none) [] ∧
    nodeFor (atStep (taken (inFlight busy 1 0 (.combined (hd 2 6) true b false 0 0 none)) 0 [])) 0 (hd 2 6) = some weirNode ∧
    weirNode.broken = false ∧ weirNode.role ≠ 0 := by
  cases b
  · decide +kernel
  · decide +kernel
theorem completion_taken (st : Status) (h : st = .ok ∨ st = .broken) :
    TakesMsg (inFlight busy 1 0 (.completion (hd 2 6) st true 0)) 1 0 (.completion (hd 2 6) st true 0) [] ∧
    nodeFor (taken (inFlight busy 1 0 (.completion (hd 2 6) st true 0)) 0 []) 0 (hd 2 6) = some weirNode := by
  rcases h with rfl | rfl
  · decide +kernel
  · decide +kernel

/-- The weir's node with its hint on, nearly full since the start. -/
def hinting : State := putNode (setSetting busy 0x250200 1) 0 6
  { weirNode with hintEnable := true, overdueFc := 10, hintSince := some 0, bank1 := { weirNode.bank1 with arrived := [0] } }
theorem hint_rises : takesNow hinting 0 true = true ∧
    (nodeAt hinting 0 6).any (fun x => x.hintSince == some 0 && x.nearlyFull (passToFc hinting (0 + x.overdue hinting)) &&
      !(station (passToFc hinting (0 + x.overdue hinting)) 0).hint.level &&
      (station (passToFc hinting (0 + x.overdue hinting)) 0).hint.blockedTill ≤
        (passToFc hinting (0 + x.overdue hinting)).clock.fc) = true := by decide +kernel
def hinted : State := onStation busy 0 fun st => { st with hint := ⟨true, 0, 0, 20⟩ }
theorem hint_falls : takesNow hinted 0 true = true ∧ (station hinted 0).hint.level = true := by decide +kernel

theorem subscribe_taken : TakesMsg (inFlight busy 1 0 (.subscribe (hd 2 6))) 1 0 (.subscribe (hd 2 6)) [] ∧
    liveObj (atStep (taken (inFlight busy 1 0 (.subscribe (hd 2 6))) 0 [])) 0 (hd 2 6) = some weirObj ∧
    weir.listeners.contains 1 = false := by decide +kernel
theorem subscription_taken : TakesMsg (inFlight busy 1 0 (.subscribeReply (hd 2 6) wide 4 0 0)) 1 0
      (.subscribeReply (hd 2 6) wide 4 0 0) [] ∧
    nodeFor (taken (inFlight busy 1 0 (.subscribeReply (hd 2 6) wide 4 0 0)) 0 []) 0 (hd 2 6) = some weirNode ∧
    (weirWaits (taken (inFlight busy 1 0 (.subscribeReply (hd 2 6) wide 4 0 0)) 0 []) 0 6 (hi 2 6)).filter
      (fun w => w.phase == .pending) = [] := by decide +kernel
theorem teardown_taken : TakesMsg (inFlight busy 1 0 (.teardown (hd 2 6) false)) 1 0 (.teardown (hd 2 6) false) [] ∧
    nodeFor (taken (inFlight busy 1 0 (.teardown (hd 2 6) false)) 0 []) 0 (hd 2 6) = some weirNode := by decide +kernel
theorem teardown_acked (l : List Nat) (h : l = [1] ∨ l = [1, 2]) :
    TakesMsg (inFlight (withJob busy 2 6 (.weirDestroy l none none)) 1 0 (.teardownAck (hd 2 6))) 1 0 (.teardownAck (hd 2 6)) [] ∧
    jobOf (atStep (taken (inFlight (withJob busy 2 6 (.weirDestroy l none none)) 1 0 (.teardownAck (hd 2 6))) 0 [])) 0
      (Handle.hi (hd 2 6)) = some ⟨hi 2 6, .weirDestroy l none none, 0, 4, 0⟩ := by
  rcases h with rfl | rfl
  · decide +kernel
  · decide +kernel

/-! ## Landing counters, seals, queues, the ferry -/

/-- Station 1 sends station 0 a message, which station 0 takes, and begins its step. -/
abbrev Gets (s : State) (b : MsgBody) : Prop := TakesMsg (inFlight s 1 0 b) 1 0 b []
def after (s : State) (b : MsgBody) : State := taken (inFlight s 1 0 b) 0 []
def start (s : State) (b : MsgBody) : State := atStep (after s b)

/-- The landing counter at station 0, with nothing that observes it, where the chart has it, or on the move. -/
def landedAt (home : Nat) (m : Option Migration) : State := onStation live 0 fun st => { st with
  objects := [(7, obj 3 7 (.landing ⟨100, 150, 1, [], [], 0⟩))], chart := [(7, ⟨0, home⟩)], outgoing := m }
def landed : State := landedAt 0 none
/-- A report of 64 bytes for it on landing port 0. -/
def reportIn (s : State) : ReportIn := ⟨.landing 0, tagged s (hd 3 7 1), 17, 0, 64, false, false, false⟩

theorem reportRefusal_tagged {s t : State} {p : ReportIn} {h : Word} (k : p.handle = tagged s h)
    (e : t.tagKey = s.tagKey ∧ t.fns = s.fns)
    (c : (p.bytes.toNat ≠ 0 ∧ p.bytes.toNat ≤ 65536 ∧ p.rsv = 0) ∧ (fnOf t p.fnStamp.toNat).state = .enabled ∧
      Handle.fn h = p.fnStamp.toNat ∧ Handle.cls h = 3) : reportRefusal t p = none := by
  obtain ⟨⟨c1, c2, c3⟩, c4, c5, c6⟩ := c
  obtain ⟨k1, k2, k3, k4, k5, k6⟩ := tagged_fields s h
  have g : tagOk t (tagged s h) = true := by simp [tagOk, k1, k6, tagOf, fnOf, e.1, e.2]
  simp only [reportRefusal, k, k2, k3, g]
  simp [c1, c3, c4, c5, c6]
  omega

theorem report_comes {s u : State} (u_eq : u = atStep (foreground s 0))
    (k : portsLive s = true ∧ reportPortHere s (.landing 0) = true ∧ reportStation s (.landing 0) = 0)
    (e : u.tagKey = s.tagKey ∧ u.fns = s.fns) (g : (fnOf u 17).state = .enabled) :
    ReportComes (reportIn s) s ∧ 0 = reportStation s (reportIn s).port ∧ u = atStep (reportTaken (reportIn s) s) ∧
    reportRefusal u (reportIn s) = none ∧ Handle.index (reportIn s).handle = 7 := by
  refine ⟨⟨k.1, k.2.1, rfl, rfl⟩, k.2.2.symm, ?_, ?_, (tagged_fields _ _).2.2.2.1⟩
  · rw [u_eq, ← k.2.2]; rfl
  · exact reportRefusal_tagged rfl e ⟨⟨by simp [reportIn], by simp [reportIn], rfl⟩, g, by simp only [reportIn]; decide +kernel,
      by decide +kernel⟩

theorem report_lands : ∃ (p : ReportIn) (t : State) (o : Obj) (l : Landing), ReportComes p landed ∧
    0 = reportStation landed p.port ∧ t = atStep (reportTaken p landed) ∧ reportRefusal t p = none ∧ LandsAt t 0 p.handle o l := by
  obtain ⟨a, b, c, d, i⟩ := report_comes (s := landed) rfl (by decide +kernel) (by decide +kernel) (by decide +kernel)
  refine ⟨_, _, obj 3 7 (.landing ⟨100, 150, 1, [], [], 0⟩), ⟨100, 150, 1, [], [], 0⟩, a, b, c, d, ?_, ?_, ?_, rfl, rfl, ?_⟩
  · rw [i]; decide +kernel
  · rw [i]; decide +kernel
  · simp only [liveObj, i]; simp only [reportIn, (tagged_fields _ _).1]; decide +kernel
  · exact (tagged_fields _ _).2.2.2.2.1.trans (by decide +kernel)
theorem report_away : ∃ (p : ReportIn) (t : State) (e : ChartEntry), ReportComes p (landedAt 1 none) ∧
    0 = reportStation (landedAt 1 none) p.port ∧ t = atStep (reportTaken p (landedAt 1 none)) ∧ reportRefusal t p = none ∧
    chartAt t 0 (Handle.index p.handle) = some e ∧ e.home ≠ 0 := by
  obtain ⟨a, b, c, d, i⟩ :=
    report_comes (s := landedAt 1 none) rfl (by decide +kernel) (by decide +kernel) (by decide +kernel)
  exact ⟨_, _, ⟨0, 1⟩, a, b, c, d, by rw [i]; decide +kernel, by decide⟩
theorem report_waits (s : State) (h : s = landedAt 0 (some ⟨7, 1, 1, [], hd 3 7, false, []⟩)) :
    ∃ (p : ReportIn) (t : State), ReportComes p s ∧ 0 = reportStation s p.port ∧
    t = atStep (reportTaken p s) ∧ reportRefusal t p = none ∧ chartAt t 0 (Handle.index p.handle) = some ⟨0, 0⟩ ∧
    movingHere (station t 0) (Handle.index p.handle) = true := by
  subst h
  obtain ⟨a, b, c, d, i⟩ := report_comes (s := landedAt 0 (some ⟨7, 1, 1, [], hd 3 7, false, []⟩)) rfl
    (by decide +kernel) (by decide +kernel) (by decide +kernel)
  exact ⟨_, _, a, b, c, d, by rw [i]; decide +kernel, by rw [i]; decide +kernel⟩
theorem report_malformed : ReportComes { reportIn landed with bytes := 0 } landed ∧
    ∀ t, reportRefusal t { reportIn landed with bytes := 0 } = some 0x270202 :=
  ⟨by decide +kernel, fun _ => rfl⟩

/-- A report that its attach station, or another, has sent on. -/
def reportMsg (sel hops : Nat) : MsgBody := .report ⟨hd 3 7 sel, 17, 64, hops, none⟩
theorem report_home (sel : Nat) (h : sel = 1 ∨ sel = 2) : Gets busy (reportMsg sel 0) ∧
    chartAt (start busy (reportMsg sel 0)) 0 7 = some ⟨0, 0⟩ ∧
    movingHere (station (start busy (reportMsg sel 0)) 0) 7 = false ∧
    (fnOf (start busy (reportMsg sel 0)) 17).state = .enabled ∧
    liveObj (start busy (reportMsg sel 0)) 0 (hd 3 7 sel) = some landObj ∧ Handle.sel (hd 3 7 sel) = sel := by
  rcases h with rfl | rfl
  · decide +kernel
  · decide +kernel
theorem report_again (hops : Nat) (h : hops = 1 ∨ hops = 2) : Gets (landedAt 1 none) (reportMsg 1 hops) ∧
    chartAt (start (landedAt 1 none) (reportMsg 1 hops)) 0 7 = some ⟨0, 1⟩ := by
  rcases h with rfl | rfl
  · decide +kernel
  · decide +kernel
theorem report_alone : hostObserved landed 17 = false ∧ 150 < (100 + BitVec.ofNat 64 64 : Word).toNat := by decide +kernel

/-- A seal of the counter in entry 2 of buffer 1. -/
def sealRef : SealRef := ⟨hi 3 7, 1, 1, 2⟩
def sealed (state : Nat) : State := { busy with seals := [(sealKey sealRef, ⟨5, 0xFF, 0x4000, hi 3 7, 1, state, 0⟩)] }
theorem seal_messages : Gets busy (.sealDeposit sealRef 0x4000 0xFF 5) ∧ Gets (sealed 1) (.sealRelease sealRef) ∧
    (tget (after (sealed 1) (.sealRelease sealRef)).seals (sealKey sealRef)).any (fun e => e.state == 1) = true ∧
    Gets (sealed 1) (.sealDiscard sealRef) ∧
    (tget (after (sealed 1) (.sealDiscard sealRef)).seals (sealKey sealRef)).any (fun e => e.state == 1) = true ∧
    Gets (sealed 2) (.sealDiscard sealRef) ∧
    (tget (after (sealed 2) (.sealDiscard sealRef)).seals (sealKey sealRef)).any (fun e => e.state != 1) = true ∧
    Gets busy (.freeNotice 1 2) := by decide +kernel

/-- A seal that a link brought into a link port's buffer. -/
def linkSeal : FwdOp := { fwd .landSeal (hd 3 7 1) 0x4000 0xFF 0 with data := some 5 }
def registerMsg : MsgBody := .sealRegister ⟨hi 3 7, 1, 16, 2⟩ linkSeal
theorem seal_registers : Gets busy registerMsg ∧ HomeHere (after busy registerMsg) 0 linkSeal.handle ∧
    (fnOf (after busy registerMsg) (Handle.fn linkSeal.handle)).state = .enabled ∧
    liveObj (after busy registerMsg) 0 linkSeal.handle = some landObj ∧ Handle.sel linkSeal.handle = 1 ∧
    sealOk linkSeal = true := by decide +kernel

/-- The queue idle since its deadline of ac 50. -/
def idle : State := withObj busy (obj 4 8 (.queue { queue with idleAc := 50, idleDeadline := some 50 }))
theorem queue_idles : takesNow idle 0 true = true ∧ dueAt idle 0 8 Body.idleArmed = true ∧
    objAt (atStep (foreground idle 0)) 0 8 = some (obj 4 8 (.queue { queue with idleAc := 50, idleDeadline := some 50 })) ∧
    movingHere (station (atStep (foreground idle 0)) 0) 8 = false := by decide +kernel

/-- The serving slice has the queue's extent; `spilling` has received some segments of block 2. -/
def extent : Extent := ⟨17, 0, 6, 0, false, 0, 0, none⟩
def stored : State := onSlice busy 0 fun l => { l with extents := [(8, extent)] }
def spilling (segs : Nat) (ok : Bool) : State := onSlice stored 0 fun l => { l with
  spillIn := [⟨hd 4 8, 2, 1, ok, List.replicate segs 0⟩], spillBufs := [(hd 4 8, 2)] }
theorem spill_begins : Gets stored (.spillSegment (hd 4 8) 2 0 7) ∧
    servingSlice (after stored (.spillSegment (hd 4 8) 2 0 7)) 8 = 0 ∧
    (fnOf (after stored (.spillSegment (hd 4 8) 2 0 7)) 17).state = .enabled := by decide +kernel
/-- A name of a queue of function 18, which is not ENABLED. -/
def strangeName : Word := nameOf (handleHi 18 0 4 8)
theorem spill_discarded : Gets stored (.spillSegment strangeName 2 0 7) ∧ Gets stored (.refillRequest strangeName 2) ∧
    (fnOf (after stored (.spillSegment strangeName 2 0 7)) 18).state ≠ .enabled ∧
    (fnOf (after stored (.refillRequest strangeName 2)) 18).state ≠ .enabled := by decide +kernel
theorem spill_goes_on (k : Nat) (ok : Bool) (h : k = 1 ∨ k = 3) : Gets (spilling k ok) (.spillSegment (hd 4 8) 2 k 7) ∧
    (fnOf (after (spilling k ok) (.spillSegment (hd 4 8) 2 k 7)) 17).state = .enabled ∧
    takeFirst (fun y : SpillIn => y.handle == hd 4 8 && y.block == 2)
      (sliceAt (after (spilling k ok) (.spillSegment (hd 4 8) 2 k 7)) 0).spillIn =
      some (⟨hd 4 8, 2, 1, ok, List.replicate k 0⟩, []) := by
  rcases h with rfl | rfl <;> cases ok <;> decide +kernel
theorem refill_asked : Gets stored (.refillRequest (hd 4 8) 2) ∧
    (fnOf (after stored (.refillRequest (hd 4 8) 2)) 17).state = .enabled ∧
    extentAt (after stored (.refillRequest (hd 4 8) 2)) 0 8 = some extent ∧ extent.releasing = none := by decide +kernel

/-- The queue with a tail spill, with a head spill, and with a refill of block 1 that has `k` segments. -/
def tailOut (st : Nat) : Queue := { queue with spillTail := st }
def headOut (st : Nat) : Queue := { queue with spillHead := st, head := some (5, queue.tail) }
def refilling (k : Nat) (bw : List Nat) : Queue := { queue with refills := [(1, List.replicate k 0)], bwBlocks := bw }
def withQueue (q : Queue) : State := withObj busy (obj 4 8 (.queue q))
theorem queue_home : ∀ x ∈ ([(tailOut 1, .spillAccepted (hd 4 8) 0), (headOut 1, .spillAccepted (hd 4 8) 5),
      (tailOut 1, .spillRefused (hd 4 8) 0), (headOut 1, .spillRefused (hd 4 8) 5),
      (refilling 1 [], .refillSegment (hd 4 8) 1 1 false 7), (refilling 3 [1], .refillSegment (hd 4 8) 1 3 false 7),
      (refilling 3 [], .refillSegment (hd 4 8) 1 3 false 7), (refilling 0 [1], .refillSegment (hd 4 8) 1 0 true 7)] :
      List (Queue × MsgBody)),
    Gets (withQueue x.1) x.2 ∧ HomeHere (after (withQueue x.1) x.2) 0 (hd 4 8) ∧
    liveObj (start (withQueue x.1) x.2) 0 (hd 4 8) = some (obj 4 8 (.queue x.1)) := by
  decide +kernel
theorem queue_refills : (refilling 3 [1]).bwBlocks.contains 1 = true ∧ (refilling 3 [1]).hasBlock 1 = false ∧
    (tailOut 1).tailBlock = 0 ∧ (headOut 1).spillTail = 0 := by decide +kernel
theorem spill_again (q : Queue) (h : q = tailOut 2 ∨ q = headOut 2) : takesNow (withQueue q) 0 true = true ∧
    dueAt (withQueue q) 0 8 Body.spillRefused = true ∧
    objAt (foreground (withQueue q) 0) 0 8 = some (obj 4 8 (.queue q)) := by
  rcases h with rfl | rfl <;> decide +kernel

/-- A refill of slice 0 that waits, and the same outstanding with tag 3; a tag of a keeper's image; a seal write with tag 600. -/
def refillX : Xact := ⟨.refill, 17, 0, 8, [], 0, .refill (hd 4 8) 2 0 false⟩
def keeperX : Xact := ⟨.refill, 17, 0x100, 8, [], 0, .keeper (hd 6 10) 0 0 false⟩
def ferrying : State := onSlice stored 0 fun l => { l with
  waiting := [refillX], tags := [⟨3, 90, refillX, [], false, false, false⟩, ⟨4, 90, keeperX, [], false, false, false⟩] }
def response (tag : Nat) (read last : Bool) : XiRsp := ⟨0, tag, read, false, last, false, false, false, 5⟩
theorem ferry_issues : sliceWorks ferrying 0 = true ∧ readyOf ferrying 0 .refill = some refillX ∧
    classOpen ferrying 0 .refill = true := by decide +kernel
theorem ferry_responds : portsLive ferrying = true ∧ 0 < ferrying.gelari.initiators ∧
    (sliceAt (foreground ferrying (sliceStation ferrying 0)) 0).tags.find? (fun g => g.tag == 3) =
      some ⟨3, 90, refillX, [], false, false, false⟩ ∧ refillX.purpose.writes = false ∧
    (sliceAt (foreground ferrying (sliceStation ferrying 0)) 0).tags.find? (fun g => g.tag == 4) =
      some ⟨4, 90, keeperX, [], false, false, false⟩ ∧
    (sliceAt ferrying 0).tags.find? (fun g => g.tag == 3 && !g.slow) =
      some ⟨3, 90, refillX, [], false, false, false⟩ := by decide +kernel
theorem not_a_keeper : ∀ h home n k, refillX.purpose ≠ .keeper h home n k := by intros; nofun
def sealWriting : State := setXi (sealed 2) 0 { xiAt busy 0 with sealsOut := [(600, sealKey sealRef)] }
theorem seal_write_ends : (sliceAt (foreground sealWriting (sliceStation sealWriting 0)) 0).tags.find? (fun g => g.tag == 600) =
      none ∧
    tget (xiAt (foreground sealWriting (sliceStation sealWriting 0)) 0).sealsOut (response 600 false true).tag =
      some (sealKey sealRef) := by decide +kernel

/-- An extent with free blocks below it. -/
def sparse : State := onSlice busy 0 fun l => { l with extents := [(8, { extent with base := 40 })] }
theorem compaction_moves : sliceWorks sparse 0 = true ∧ setting sparse 0x290400 ≠ 0 ∧
    leastBy (fun p : Nat × Extent × Nat => p.2.1.base) (movable sparse (sliceAt sparse 0)) =
      some (8, { extent with base := 40 }, 0) := by decide +kernel

/-- A shadow record of counter 5, for the function or for one that is not ENABLED. -/
def shadowMsg (fn : Nat) : MsgBody := .shadowRecord ⟨handleOf (handleHi fn 0 1 5) 0 0, 1, 2, 3, 2, .ok, 0⟩
theorem shadow_taken : Gets busy (shadowMsg 17) ∧ (fnOf (after busy (shadowMsg 17)) 17).state = .enabled ∧
    Gets busy (shadowMsg 18) ∧ (fnOf (after busy (shadowMsg 18)) 18).state ≠ .enabled ∧
    Gets busy (.shadowWritten (hd 1 5) 1) := by decide +kernel

/-- A part of a keeper's image, asked for and answered. -/
def imageMsg (fn : Nat) : MsgBody := .imageRequest (nameOf (handleHi fn 0 6 10)) 0x100 64 0 none
theorem image_asked : Gets busy (imageMsg 17) ∧ (fnOf (after busy (imageMsg 17)) 17).state = .enabled ∧
    Gets busy (imageMsg 18) ∧ (fnOf (after busy (imageMsg 18)) 18).state ≠ .enabled := by decide +kernel
def exporting (left : Nat) : State := withJob busy 6 10 (.keeperExport left [1, 2, 3, 4])
theorem image_part_comes (left : Nat) (h : left = 1 ∨ left = 2) : Gets (exporting left) (.imagePart (hd 6 10) 0 false []) ∧
    HomeHere (after (exporting left) (.imagePart (hd 6 10) 0 false [])) 0 (hd 6 10) ∧
    jobOf (start (exporting left) (.imagePart (hd 6 10) 0 false [])) 0 (hi 6 10) =
      some ⟨hi 6 10, .keeperExport left [1, 2, 3, 4], 0, 4, 0⟩ ∧
    objAt (start (exporting left) (.imagePart (hd 6 10) 0 false [])) 0 10 = some keeperObj := by
  rcases h with rfl | rfl <;> decide +kernel

theorem extent_asked : Gets busy (.reserveExtent (hd 4 8) 6) ∧
    (firstFit (occupied (sliceAt (after busy (.reserveExtent (hd 4 8) 6)) 0) 17 0 2) (subBlocks busy 17) 6).isSome = true ∧
    Gets busy (.reserveExtent (hd 4 8) 100000000) ∧
    firstFit (occupied (sliceAt (after busy (.reserveExtent (hd 4 8) 100000000)) 0) 17 0 2) (subBlocks busy 17) 100000000 =
      none := by decide +kernel
theorem extent_leaves : Gets busy (.releaseExtent (hd 4 8)) ∧ extentAt (after busy (.releaseExtent (hd 4 8))) 0 8 = none ∧
    Gets stored (.releaseExtent (hd 4 8)) ∧ extentAt (after stored (.releaseExtent (hd 4 8))) 0 8 = some extent := by
  decide +kernel
/-- The state of a release once the extent's work has gone. -/
def releasing (s : State) : State :=
  onSlice (indexLeaves (after s (.releaseExtent (hd 4 8))) 8) 0 fun l => { l with
    extents := tput l.extents 8 { extent with releasing := some 1 } }
theorem extent_leaves_now : servingSlice (releasing stored) 8 = 0 ∧
    extentAt (releasing stored) 0 8 = some { extent with releasing := some 1 } ∧
    (releasing stored).slices.any (fun p => outstanding p.2 8) = false ∧
    servingSlice (releasing ferrying) 8 = 0 ∧ extentAt (releasing ferrying) 0 8 = some { extent with releasing := some 1 } ∧
    (releasing ferrying).slices.any (fun p => outstanding p.2 8) = true := by decide +kernel

def creating : State := withJob busy 4 8 .queueCreate
theorem extent_answers : Gets creating (.extentReserved (hd 4 8)) ∧ Gets creating (.extentRefused (hd 4 8)) ∧
    HomeHere (after creating (.extentReserved (hd 4 8))) 0 (hd 4 8) ∧
    HomeHere (after creating (.extentRefused (hd 4 8))) 0 (hd 4 8) ∧
    jobOf (start creating (.extentReserved (hd 4 8))) 0 (hi 4 8) = some ⟨hi 4 8, .queueCreate, 0, 4, 0⟩ ∧
    jobOf (start creating (.extentRefused (hd 4 8))) 0 (hi 4 8) = some ⟨hi 4 8, .queueCreate, 0, 4, 0⟩ ∧
    liveObj (start creating (.extentReserved (hd 4 8))) 0 (hd 4 8) = some queueObj ∧
    Gets (withJob busy 4 8 .queueDestroy) (.extentReleased (hd 4 8)) ∧
    jobOf (start (withJob busy 4 8 .queueDestroy) (.extentReleased (hd 4 8))) 0 (hi 4 8) =
      some ⟨hi 4 8, .queueDestroy, 0, 4, 0⟩ := by decide +kernel

/-! ## Fire rules, launches, loads -/

/-- The counter with a watch, and the queue with a feed, of rule 30, whose home is station 1. -/
def watched : Obj := { counterObj with watches := [⟨false, hi 5 30, 0, 1, 20, 5, 0, 1, false⟩] }
def fed : Obj := { queueObj with watches := [⟨true, hi 5 30, 0, 0, 0, 0, 0, 0, false⟩] }
def observed : State :=
  let s := withObj (withObj busy watched) fed
  charted s 30 1
theorem watch_messages : ∀ x ∈ ([.activate (hd 1 5) (hd 5 30) 0 2, .deactivate (hd 1 5) (hd 5 30) 0,
      .consume (hd 1 5) (hd 5 30) 0 2, .consumeDormant (hd 1 5) (hd 5 30) 0 2, .releaseWatch (hd 1 5) (hd 5 30) 0 false,
      .register (hd 1 5) 1 20 5 (hd 5 30)] : List MsgBody),
    Gets observed x ∧ HomeHere (after observed x) 0 (hd 1 5) ∧ liveObj (start observed x) 0 (hd 1 5) = some watched ∧
    RecordRoom (start observed x) 0 watched ∧ lapseStatus watched = none ∧ watched.body.isQueue = false := by
  decide +kernel
theorem queue_watch_messages : ∀ x ∈ ([.register (hd 4 8) 1 2 5 (hd 5 30), .feedRegister (hd 4 8) (hd 5 30),
      .feedPush (hd 4 8) (hd 5 30) ⟨6, true⟩] : List MsgBody),
    Gets observed x ∧ HomeHere (after observed x) 0 (hd 4 8) ∧ liveObj (start observed x) 0 (hd 4 8) = some fed ∧
    RecordRoom (start observed x) 0 fed ∧ lapseStatus fed = none ∧ 2 ≤ queue.capacity := by
  decide +kernel

/-- The rule in a state, of an action, with two inputs. -/
def ruleIn (st action : Nat) : Rule :=
  { rule with state := st, armSeq := 1, action := action, inputs := [⟨hd 1 5, 20, 1⟩, ⟨hd 1 20, 5, 1⟩], lastTarget := 0 }
def withRule (r : Rule) : State := withObj busy (obj 5 9 (.rule r))
theorem rule_messages : ∀ x ∈ ([(ruleIn 0 0, .met (hd 5 9) 0 1), (ruleIn 1 0, .met (hd 5 9) 0 1),
      ({ ruleIn 1 0 with met := [1] }, .met (hd 5 9) 0 1), (ruleIn 1 0, .lapsed (hd 5 9) 0 false .badhandle),
      (ruleIn 1 1, .lapsed (hd 5 9) 0 true .badhandle), (ruleIn 2 0, .lapsed (hd 5 9) 0 false .badhandle),
      (ruleIn 2 1, .pushed (hd 5 9) none), (ruleIn 2 1, .pushed (hd 5 9) (some .badhandle)),
      (ruleIn 2 0, .launchAnswer (hd 5 9) .ok 0), (ruleIn 2 0, .launchAnswer (hd 5 9) .fenced 0),
      (ruleIn 2 2, .launchAnswer (hd 5 9) .ok 0), (ruleIn 2 2, .launchAnswer (hd 5 9) .broken 0),
      (ruleIn 2 2, .launchAnswer (hd 5 9) .ahead 0)] : List (Rule × MsgBody)),
    Gets (withRule x.1) x.2 ∧ HomeHere (after (withRule x.1) x.2) 0 (hd 5 9) ∧
    liveObj (start (withRule x.1) x.2) 0 (hd 5 9) = some (obj 5 9 (.rule x.1)) := by
  decide +kernel

/-- A rule being created or destroyed. -/
theorem rule_jobs : ∀ x ∈ ([(.ruleCreate 2 none [], .registered (hd 5 9) none 0 1 false),
      (.ruleCreate 1 none [], .registered (hd 5 9) none 0 1 false),
      (.ruleCreate 1 none [], .registered (hd 5 9) (some .quota) 0 1 false),
      (.ruleDestroy 1, .released (hd 5 9)), (.ruleDestroy 2, .released (hd 5 9))] : List (JobKind × MsgBody)),
    Gets (withJob busy 5 9 x.1) x.2 ∧ HomeHere (after (withJob busy 5 9 x.1) x.2) 0 (hd 5 9) ∧
    jobOf (start (withJob busy 5 9 x.1) x.2) 0 (hi 5 9) = some ⟨hi 5 9, x.1, 0, 4, 0⟩ ∧
    liveObj (start (withJob busy 5 9 x.1) x.2) 0 (hd 5 9) = some ruleObj := by
  decide +kernel

theorem arrive_retries : takesNow (withRule { ruleIn 2 2 with retry := true }) 0 true = true ∧
    dueAt (withRule { ruleIn 2 2 with retry := true }) 0 9 Body.arriveWaits = true ∧
    objAt (foreground (withRule { ruleIn 2 2 with retry := true }) 0) 0 9 =
      some (obj 5 9 (.rule { ruleIn 2 2 with retry := true })) := by decide +kernel

/-- Core 0 is fenced. -/
def fencedCore : State := { busy with fenced := [0] }
theorem launch_taken : Gets busy (.launch (hd 5 30) 0 1 1 5) ∧ agentFenced (after busy (.launch (hd 5 30) 0 1 1 5)) 0 = false ∧
    Gets fencedCore (.launch (hd 5 30) 0 1 1 5) ∧
    agentFenced (after fencedCore (.launch (hd 5 30) 0 1 1 5)) 0 = true := by decide +kernel
def arriveMsg : MsgBody := .arrive (hd 5 30) (hd 2 6) 0 3 0 1
theorem arrive_taken : Gets busy arriveMsg ∧ (fnOf (start busy arriveMsg) (Handle.fn (hd 2 6))).state = .enabled ∧
    nodeFor (start busy arriveMsg) 0 (hd 2 6) = some weirNode ∧ weirNode.params.keeper = none ∧
    arrivalRefusal (start busy arriveMsg) 0 weirNode 0 3 none = none := by decide +kernel

/-- Agent 0 has load 3; station 1 subscribes to station 0's loads. -/
def loaded : State := onStation busy 0 fun st => { st with loads := [(0, 3)], subscribers := [1], digestDue := [(1, [0])] }
theorem loads_taken : Gets busy (.loadSubscribe true) ∧
    (station (after busy (.loadSubscribe true)) 0).subscribers.contains 1 = false ∧ Gets loaded (.loadSubscribe false) ∧
    ((station (after loaded (.loadSubscribe false)) 0).subscribers.erase 1).contains 1 = false ∧
    takesNow loaded 0 true = true ∧ (station loaded 0).digestDue.isEmpty = false ∧
    Gets busy (.digest 128 [(128, 3)]) := by decide +kernel

/-! ## Migration -/

/-- Migration is on. -/
def migrating : State := setSetting busy 0x2A0400 1
theorem window_ends : takesNow migrating 0 true = true ∧ setting migrating 0x2A0400 ≠ 0 ∧
    (station migrating 0).objects.isEmpty = false ∧ setting (foreground migrating 0) 0x2A0400 ≠ 0 := by decide +kernel

/-- Counter 31 on its way from station 1 to station 0. -/
def copyMsg : MsgBody := .copy ⟨obj 1 31 (.counter counter), none⟩ (hd 1 31) 1 1
def copying : State := onStation busy 0 fun st => { st with incoming := some ⟨31, 1, [], none⟩ }
theorem copy_taken : Gets busy copyMsg ∧ moveGoes (after busy copyMsg) (hi 1 31) = true ∧ (station (after busy copyMsg) 0).incoming = none ∧
    holds (after busy copyMsg) 0 (copyTakes ⟨obj 1 31 (.counter counter), none⟩) = true ∧ Gets copying copyMsg ∧
    (station (after copying copyMsg) 0).incoming.isSome = true ∧
    holds (after busy copyMsg) 0 (copyTakes ⟨obj 5 31 (.rule (ruleIn 0 0)), none⟩) = true := by decide +kernel
theorem rule_copy_taken : Gets busy (.copy ⟨obj 5 31 (.rule (ruleIn 0 0)), none⟩ (hd 5 31) 1 1) := by decide +kernel
theorem copy_goes_on : Gets busy (.copy ⟨obj 1 31 (.counter counter), none⟩ (hd 1 31) 0 1) := by decide +kernel

/-- Counter 5, or weir 6, of station 0 goes to station 1. -/
def leavingTo (index step : Nat) (waiting : List Nat) : Migration := ⟨index, 1, step, waiting, hd 1 index, false, []⟩
def moving (o : Obj) (index step : Nat) (waiting : List Nat) : State :=
  onStation (withObj busy o) 0 fun st => { st with outgoing := some (leavingTo index step waiting) }
/-- The counter with a wait of station 1 on its eddy. -/
def joinedCounter : Obj := obj 1 5 (.counter { counter with eddies := [⟨1, 100, true, 0, [(1, 3)]⟩] })
theorem migration_messages : ∀ x ∈ ([(counterObj, 2, [], .copyAnswer (hd 1 5) none),
      (joinedCounter, 2, [], .copyAnswer (hd 1 5) (some [(1, 4)])), (counterObj, 2, [], .copyAnswer (hd 1 5) (some [])),
      (joinedCounter, 3, [1, 2], .rebindAck (hd 1 5)), (joinedCounter, 3, [1], .rebindAck (hd 1 5)),
      (counterObj, 5, [1, 2], .flush (hd 1 5)), (counterObj, 5, [1], .flush (hd 1 5))] :
      List (Obj × Nat × List Nat × MsgBody)),
    Gets (moving x.1 5 x.2.1 x.2.2.1) x.2.2.2 ∧
    (station (after (moving x.1 5 x.2.1 x.2.2.1) x.2.2.2) 0).outgoing = some (leavingTo 5 x.2.1 x.2.2.1) ∧
    objAt (after (moving x.1 5 x.2.1 x.2.2.1) x.2.2.2) 0 5 = some x.1 ∧
    moveGoes (after (moving x.1 5 x.2.1 x.2.2.1) x.2.2.2) (hi 1 5) = true := by
  decide +kernel
theorem rebind_taken : Gets busy (.rebind (hd 1 20) 1 2 2) := by decide +kernel

/-- The journal has the record of station 0's migration, ready to commit. -/
def journaled (o : Obj) (index : Nat) : State := { moving o index 4 [] with journal := [(0, (17, index, 0, 1, 0))] }
theorem commits (o : Obj) (index : Nat) (h : (o = counterObj ∧ index = 5) ∨ (o = weirObj ∧ index = 6)) :
    takesNow (journaled o index) 0 true = true ∧
    (station (foreground (journaled o index) 0) 0).outgoing = some (leavingTo index 4 []) ∧
    commitReady (foreground (journaled o index) 0) 0 (leavingTo index 4 []) = true ∧
    moveGoes (foreground (journaled o index) 0) (hi 1 index) = true ∧
    (homeNode (foreground (journaled o index) 0) 0 o).isSome = (index == 6) := by
  rcases h with ⟨rfl, rfl⟩ | ⟨rfl, rfl⟩ <;> decide +kernel

/-- An object has come from station 1, or from station 2. -/
def arrived (o : Obj) (src : Nat) : State := onStation (withObj busy o) 0 fun st => { st with
  incoming := some ⟨hiIndex o.hi, src, [], none⟩ }
theorem forwards_done : ∀ x ∈ ([(counterObj, 2), (counterObj, 1), (keeperObj, 1), (weirObj, 1)] :
      List (Obj × Nat)),
    Gets (arrived x.1 x.2) (.forwardDone (nameOf x.1.hi)) ∧
    (station (after (arrived x.1 x.2) (.forwardDone (nameOf x.1.hi))) 0).incoming = some ⟨hiIndex x.1.hi, x.2, [], none⟩ ∧
    objAt (after (arrived x.1 x.2) (.forwardDone (nameOf x.1.hi))) 0 (hiIndex x.1.hi) = some x.1 := by
  decide +kernel

/-! ## Links -/

/-- Link 0 is UP and holds nothing; table 0 leads chip 0's caravans here and chip 3's to port 0. -/
def upLink : Link := { Link.initial.fresh with ready := true, flitCredit := 64, budget := 3200 }
def linked (s : State) (l : Link) : State :=
  setLink { s with routes := tput s.routes 0 (rput (rput (tgetD s.routes 0 []) 0 0x1E) 3 0) } 0 l
/-- A caravan of chip 3 to this one. -/
def caravan (kind kf : Nat) (bodies : List Flit) : CaravanIn :=
  ⟨0, BitVec.ofNat 128 (field 6 122 kind + field 10 102 3 + field 12 90 17 + field 3 58 bodies.length + field 58 0 kf), bodies, 0, 0, 0⟩
def unitOf (kind kf : Nat) : CaravanOut := ⟨[((caravan kind kf []).head, [])], false, none⟩
/-- The same with nothing left of its budget. -/
def spent : Link := { upLink with opWait := [unitOf 0x20 0], budget := 0 }

theorem link_sends : portsLive (linked busy upLink) = true ∧
    NothingHeld { upLink with control := [((caravan 1 0 []).head, [])] } ∧
    Link.flitsOk { upLink with control := [((caravan 1 0 []).head, [])] } ((caravan 1 0 []).head, []) = true ∧
    ({ upLink with weirWait := [unitOf 0x12 0] } : Link).weirReady = true ∧
    ({ upLink with opWait := [unitOf 0x20 0] } : Link).weirReady = false ∧
    ({ upLink with opWait := [unitOf 0x20 0] } : Link).opReady = true ∧
    budgetOk (linked busy { upLink with opWait := [unitOf 0x20 0] }) 0 = true ∧
    budgetOk (linked busy spent) 0 = false ∧ linkAt (linked busy spent) 0 = spent ∧ NothingHeld spent ∧
    spent.control = [] ∧ spent.opReady = true := by decide +kernel
def resending : Link := { upLink with held := [(0, (caravan 0x12 0 []).head, [])], resend := [(0, (caravan 0x12 0 []).head, [])] }
theorem link_resends : portsLive (linked busy resending) = true ∧ linkAt (linked busy resending) 0 = resending ∧
    resending.state = .up ∧ resending.midUnit = none ∧ headKind (caravan 0x12 0 []).head ≠ 0x21 ∧
    resending.flitsOk ((caravan 0x12 0 []).head, []) = true ∧ budgetOk (linked busy resending) 0 = true ∧
    resending.held ≠ [] := by decide +kernel
theorem link_takes (kind : Nat) (h : kind ≤ 2) : ComesIn (caravan kind 0 []) kind (linked busy upLink) ∧
    (linkAt (cameIn (linked busy upLink) (caravan kind 0 [])) 0).state = .up := by
  rcases (show kind = 0 ∨ kind = 1 ∨ kind = 2 by omega) with rfl | rfl | rfl <;> decide +kernel
theorem link_acks : ({ upLink with ackDue := true } : Link).flitsOk
    (mkCaravan (linked busy { upLink with ackDue := true }) 0x00 upLink.peer 0 0 0 0 []) = true := by decide +kernel
theorem link_states : ∀ x ∈ ([{ upLink with ready := false, state := .lost },
      { upLink with ready := false, state := .down }, Link.initial] : List Link),
    (linked busy x).power.phase ≠ 1 ∧ linkAt (linked busy x) 0 = x ∧ x.ready = false ∧ linkOut (linked busy x) 0 = false := by
  decide +kernel

/-! ## System weirs -/

/-- A weir of up to four child chips, number 0x41 among those of function 17. -/
def sysObj (r : SysRecord) : Obj := obj 2 6 (.weir { weir with params := { params with remote := 4 }, state := 1, sys := some r })
def sysState (r : SysRecord) : State := linked (withObj busy (sysObj r)) upLink
/-- Its record: the root of the tree, or waiting for its parent, chip 3, or bound to it. -/
def rootRecord : SysRecord := ⟨0x41, 0xFFFF, 0, 2, false, [], none⟩
def unbound : SysRecord := ⟨0x41, 3, 0, 0, false, [], some 0⟩
def bound : SysRecord := ⟨0x41, 3, 7, 1, false, [(3, 9)], none⟩
theorem served : ∀ x ∈ ([(0x10, 0x42 * 2 ^ 42, rootRecord),
      (0x10, 0x41 * 2 ^ 42, rootRecord), (0x11, 6 * 2 ^ 8, unbound), (0x12, 6 * 2 ^ 34, bound), (0x13, 6 * 2 ^ 34, bound)] :
      List (Nat × Nat × SysRecord)),
    ServedHere (caravan x.1 x.2.1 []) x.1 (sysState x.2.2)
      (returnUnit (cameIn (sysState x.2.2) (caravan x.1 x.2.1 [])) 0 ⟨[((caravan x.1 x.2.1 []).head, [])], false, none⟩) := by
  decide +kernel
/-- The state in which a caravan of a kind is served. -/
def serving (s : State) (kind kf : Nat) (bodies : List Flit) : State :=
  returnUnit (cameIn s (caravan kind kf bodies)) 0 ⟨[((caravan kind kf bodies).head, bodies)], false, none⟩
def sysWeir (r : SysRecord) : Weir := { weir with params := { params with remote := 4 }, state := 1, sys := some r }
def withChild : Obj := sysObj { rootRecord with children := [(3, 9)] }
theorem bind_taken :
    weirOfNum (serving (sysState rootRecord) 0x10 (0x42 * 2 ^ 42) []) 17 0x42 = none ∧
    weirOfNum (serving (sysState rootRecord) 0x10 (0x41 * 2 ^ 42) []) 17 0x41 =
      some (0, sysObj rootRecord, sysWeir rootRecord) ∧
    (sendBindReply (setObj (atStep (serving (sysState rootRecord) 0x10 (0x41 * 2 ^ 42) [])) 0 6
      (sysObj { rootRecord with children := [(3, 0)] })) 0 3 17 0 (refOf (hi 2 6)) 0).2 = true := by decide +kernel

/-- A caravan on the course, from its attach station to the home of its object, or from the home to the attach station. -/
def inward (kind kf : Nat) (bodies : List Flit) : MsgBody := .caravan false false [((caravan kind kf bodies).head, bodies)]
def outward (kind : Nat) : MsgBody := .caravan true false [(BitVec.ofNat 128 (field 6 122 kind + field 10 112 3 + field 12 90 17), [])]
theorem reaches (kind kf : Nat) (bodies : List Flit) (s : State) (h : Gets s (inward kind kf bodies) ∧
      headKind (caravan kind kf bodies).head = kind ∧
      HomeHere (after s (inward kind kf bodies)) 0 (caravanName (after s (inward kind kf bodies)) (caravan kind kf bodies).head) ∧
      (fnOf (after s (inward kind kf bodies)) (headFn (caravan kind kf bodies).head)).state = .enabled) :
    ReachesHome 1 0 kind (caravan kind kf bodies).head bodies (inFlight s 1 0 (inward kind kf bodies))
      (after s (inward kind kf bodies)) :=
  ⟨false, [], h.1, rfl, h.2⟩
theorem reply_binds (k : Nat) (h : k = 0 ∨ k = 1) : ∃ s t,
    ReachesHome 1 0 0x11 (caravan 0x11 (k * 2 ^ 56 + 6 * 2 ^ 8) []).head [] s t ∧
    weirOfRef t 0 17 6 = some (sysObj unbound, sysWeir unbound) ∧ unbound.bind = 0 ∧
    headField (caravan 0x11 (k * 2 ^ 56 + 6 * 2 ^ 8) []).head 57 56 = k := by
  rcases h with rfl | rfl <;> exact ⟨_, _, reaches _ _ _ (sysState unbound) (by decide +kernel), by decide +kernel⟩
theorem bind_retries : takesNow (sysState unbound) 0 true = true ∧ bindWaits (sysState unbound) 0 6 = true ∧
    weirAt (foreground (sysState unbound) 0) 0 6 = some (sysObj unbound, sysWeir unbound) ∧
    (0 + 2 ^ 32 - (foreground (sysState unbound) 0).now % 2 ^ 32) % 2 ^ 32 < 2 ^ 31 ∧
    unbound.bind = 0 ∧ (sysWeir unbound).state = 1 := by decide +kernel
theorem child_reports : ∃ s t, ReachesHome 1 0 0x12 (caravan 0x12 (6 * 2 ^ 34) []).head [] s t ∧
    weirOfRef t 0 17 6 = some (sysObj bound, sysWeir bound) ∧ ((sysWeir bound).record.children.any fun y => y.1 == 3) = true ∧
    nodeAt (atStep t) 0 6 = some weirNode ∧ weirNode.broken = false :=
  ⟨_, _, reaches _ _ _ (sysState bound) (by decide +kernel), by decide +kernel⟩
theorem parent_completes (k : Nat) (h : k = 0 ∨ k = 2) : ∃ s t,
    ReachesHome 1 0 0x13 (caravan 0x13 (6 * 2 ^ 34 + k * 2 ^ 31) []).head [] s t ∧
    weirOfRef t 0 17 6 = some (sysObj bound, sysWeir bound) ∧ (sysWeir bound).isRoot = false ∧ (sysWeir bound).state = 1 ∧
    headField (caravan 0x13 (6 * 2 ^ 34 + k * 2 ^ 31) []).head 32 31 = k := by
  rcases h with rfl | rfl <;> exact ⟨_, _, reaches _ _ _ (sysState bound) (by decide +kernel), by decide +kernel⟩
/-- A caravan of this chip's own, to chip 3, reaches the attach station of port 0. -/
theorem caravan_leaves : ∀ x ∈ [0x10, 0x11, 0x12, 0x13, 0x20, 0x22, 0x23, 0x24],
    Gets (linked busy upLink) (outward x) ∧
    (match outward x with | .caravan _ _ l => (l.map fun x => (headKind x.1, headDest x.1)) | _ => []) = [(x, 3)] ∧
    originPort (after (linked busy upLink) (outward x)) 3 = some 0 ∧
    linkAttach (after (linked busy upLink) (outward x)) 0 = 0 ∧
    (linkAt (after (linked busy upLink) (outward x)) 0).state = .up := by
  decide +kernel

/-! ## Bridges and remote operations -/

/-- A flit of two words. -/
def flit (x y : Word) : Flit := x ++ y
theorem flit_high (x y : Word) : (flit x y).extractLsb' 64 64 = x := by
  apply BitVec.eq_of_toNat_eq
  have l := y.isLt
  simp only [flit, BitVec.extractLsb'_toNat, BitVec.toNat_append, ← Nat.shiftLeft_add_eq_or_of_lt l]
  simp only [Nat.shiftRight_eq_div_pow, Nat.shiftLeft_eq]
  have := x.isLt
  omega
theorem flit_low (x y : Word) : (flit x y).extractLsb' 0 64 = y := by
  apply BitVec.eq_of_toNat_eq
  have l := y.isLt
  simp only [flit, BitVec.extractLsb'_toNat, BitVec.toNat_append, ← Nat.shiftLeft_add_eq_or_of_lt l]
  simp only [Nat.shiftRight_eq_div_pow, Nat.shiftLeft_eq]
  omega

/-- A bridge's entry: mode, window 4, the chip 3 and its queue, with no peer. -/
def bridgeOn (mode : Nat) (items : List BridgeItem) : State :=
  let o := obj 4 8 (.queue { queue with packets := 1, tail := [⟨7, false⟩, ⟨8, false⟩, ⟨9, false⟩, ⟨10, true⟩] })
  onBridge (setSetting (linked (withObj busy o) upLink) 0x2D0500
    ((hd 4 8).toNat * 2 ^ 128 + 3 * 2 ^ 54 + mode * 2 ^ 52 + 4 * 2 ^ 47)) 0 fun x => { x with items := items }

/-- A NOP, and the state in which it is served. -/
def nopKf : Nat := 1 * 2 ^ 50
theorem op_served : ServedHere (caravan 0x20 nopKf [0, 0]) 0x20 (linked busy upLink)
      (serving (linked busy upLink) 0x20 nopKf [0, 0]) ∧ bit (caravan 0x20 nopKf [0, 0]).head 49 = false ∧
    (linkAt (cameIn (linked busy upLink) (caravan 0x20 nopKf [0, 0])) 0).opPart = none ∧
    Opcode.ofCode (headField (caravan 0x20 nopKf [0, 0]).head 57 50) = some .nop ∧
    LinkReadyOp (wakeStation (serving (linked busy upLink) 0x20 nopKf [0, 0]) 0) .nop
      (linkOpOf (serving (linked busy upLink) 0x20 nopKf [0, 0]) (caravan 0x20 nopKf [0, 0]) none) := by decide +kernel

/-- A LAND_SEAL of landing 7 with a zero payload, in two caravans. -/
def sealFlit : Flit := flit (tagged busy (hd 3 7)) 0
def sealOp (h : Flit) : CaravanIn := caravan 0x20 (0x34 * 2 ^ 50 + 2 ^ 49) [h, 0]
def sealData : CaravanIn :=
  { caravan 0x21 0 [0, 0, 0, 0] with head := stampHead (caravan 0x21 0 [0, 0, 0, 0]).head 1 0 }
/-- The state that has the OP and waits for its payload, and the one that has both. -/
def sealPart (h : Flit) : State := onLink (cameIn (linked busy upLink) (sealOp h)) 0 fun l => { l with
  opPart := some ((sealOp h).head, (sealOp h).bodies) }
def sealTaken (h : Flit) : State := onLink (cameIn (sealPart h) sealData) 0 fun l => { l with opPart := none }
def sealServed (h : Flit) : State := wakeStation (returnUnit (sealTaken h) 0
  ⟨[((sealOp h).head, (sealOp h).bodies), (sealData.head, sealData.bodies)], false, none⟩) 0
theorem seal_served : ComesIn (sealOp sealFlit) 0x20 (linked busy upLink) ∧ bit (sealOp sealFlit).head 49 = true ∧
    (linkAt (cameIn (linked busy upLink) (sealOp sealFlit)) 0).opPart = none ∧ ComesIn sealData 0x21 (sealPart sealFlit) ∧
    arrivalRoute (sealTaken sealFlit) 0 (sealOp sealFlit).head = .here ∧
    (fnOf (returnUnit (sealTaken sealFlit) 0
      ⟨[((sealOp sealFlit).head, (sealOp sealFlit).bodies), (sealData.head, sealData.bodies)], false, none⟩) 17).state =
      .enabled ∧
    Opcode.ofCode (headField (sealOp sealFlit).head 57 50) = some .landSeal := by decide +kernel
theorem seal_half : (linkAt (cameIn (sealPart sealFlit) sealData) 0).opPart = some ((sealOp sealFlit).head, (sealOp sealFlit).bodies) :=
  rfl
theorem seal_ready : LinkReadyOp (sealServed sealFlit) .landSeal (linkOpOf (sealServed sealFlit) (sealOp sealFlit) (some 0)) := by
  have e : linkOpOf (sealServed sealFlit) (sealOp sealFlit) (some 0) =
      withTag busy (linkOpOf (sealServed 0) (sealOp (flit (hd 3 7) 0)) (some 0)) := by
    simp only [linkOpOf, sealOp, caravan, List.headD, sealFlit, flit_high, flit_low]
    rfl
  refine ⟨?_, by decide +kernel⟩
  rw [e]
  exact check_withTag (fun hi => rfl) (by decide +kernel) (by decide +kernel) rfl (by decide) (by decide +kernel) (by decide +kernel)

/-- One token for queue 8. -/
def tokensOp (h : Flit) : CaravanIn := caravan 0x23 (2 ^ 55) [h, 0, 0, 0]
def tokensServed (h : Flit) : State := wakeStation (serving (linked busy upLink) 0x23 (2 ^ 55) [h, 0, 0, 0]) 0
def tokensFlit : Flit := flit (tagged busy (hd 4 8)) 0
theorem tokens_served : ServedHere (tokensOp tokensFlit) 0x23 (linked busy upLink)
    (serving (linked busy upLink) 0x23 (2 ^ 55) [tokensFlit, 0, 0, 0]) := by decide +kernel
theorem tokens_ready : LinkReadyOp (tokensServed tokensFlit) .qToll (linkTollOf (tokensServed tokensFlit) (tokensOp tokensFlit)) := by
  have e : linkTollOf (tokensServed tokensFlit) (tokensOp tokensFlit) =
      withTag busy (linkTollOf (tokensServed 0) (tokensOp (flit (hd 4 8) 0))) := by
    simp only [linkTollOf, tokensOp, caravan, List.headD, tokensFlit, flit_high]
    rfl
  refine ⟨?_, by decide +kernel⟩
  rw [e]
  exact check_withTag (fun hi => rfl) (by decide +kernel) (by decide +kernel) rfl (by decide) (by decide +kernel) (by decide +kernel)

theorem reply_served : ServedHere (caravan 0x22 0 [0]) 0x22 (bridgeOn 1 [⟨0, 4, 3⟩]) (serving (bridgeOn 1 [⟨0, 4, 3⟩]) 0x22 0 [0]) ∧
    ServedHere (caravan 0x24 0 []) 0x24 (bridgeOn 2 [⟨0, 2, 3⟩]) (serving (bridgeOn 2 [⟨0, 2, 3⟩]) 0x24 0 []) := by
  decide +kernel
theorem reply_ends : ∃ s t, ReachesHome 1 0 0x22 (caravan 0x22 0 [0]).head [0] s t ∧
    bridgeOf t 0 (caravan 0x22 0 [0]).head = true ∧
    takeFirst (fun x : BridgeItem => x.opTag == 0 && x.dest == 3) (bridgeAt t 0).items = some (⟨0, 4, 3⟩, []) ∧
    bridgeMode t 0 = 1 := ⟨_, _, reaches _ _ _ (bridgeOn 1 [⟨0, 4, 3⟩]) (by decide +kernel), by decide +kernel⟩
theorem token_ack_ends (k : Nat) (h : k = 0 ∨ k = 1) : ∃ s t,
    ReachesHome 1 0 0x24 (caravan 0x24 (k * 2 ^ 47) []).head [] s t ∧
    bridgeOf t 0 (caravan 0x24 (k * 2 ^ 47) []).head = true ∧ bridgeMode t 0 = 2 ∧ (bridgeAt t 0).items = [⟨0, 2, 3⟩] ∧
    headField (caravan 0x24 (k * 2 ^ 47) []).head 54 47 = k := by
  rcases h with rfl | rfl <;> exact ⟨_, _, reaches _ _ _ (bridgeOn 2 [⟨0, 2, 3⟩]) (by decide +kernel), by decide +kernel⟩
theorem bridge_sends (m : Nat) (h : m = 1 ∨ m = 2) : portsLive (bridgeOn m []) = true ∧
    ((bridgeHome (bridgeOn m []) 0).any fun x => x.1 == 0 && x.2.2.takeTokens false 1 x.2.2.read != [] &&
      x.2.2.faultAt.isNone && x.2.2.pushing.isNone) = true ∧
    takesNow (bridgeOn m []) 0 true = true ∧
    bridgeHome (foreground (bridgeOn m []) 0) 0 = bridgeHome (bridgeOn m []) 0 ∧
    (queueOf (gatherPacket 40 (foreground (bridgeOn m []) 0) 0)
      (bridgeQueue (gatherPacket 40 (foreground (bridgeOn m []) 0) 0) 0)).isSome = true ∧
    bridgeMode (foreground (bridgeOn m []) 0) 0 = m ∧ bridgeWindow (foreground (bridgeOn m []) 0) 0 = 4 ∧
    originRoute (foreground (bridgeOn m []) 0) 3 = some 0 ∧ bridgeChip (foreground (bridgeOn m []) 0) 0 = 3 := by
  rcases h with rfl | rfl <;> decide +kernel
theorem packet_read : ((bridgeAt (gatherPacket 40 (foreground (bridgeOn 1 []) 0) 0) 0).partial_.getLast?.map (·.endMark)).getD false =
    true := by decide +kernel

/-! ## Management -/

/-- The host of the window owns the engine. -/
def owned (s : State) : State :=
  { s with owner := { s.owner with state := .owned, host := 0x200, epoch := 4, deadline := 1000000 } }
def me : HostReq := ⟨0x200, 4⟩
/-- Its write of a value to an entry is taken, in a state of interest. -/
theorem entry_access :
    Admits 0x200 (owned busy) ∧
    (readEntry (asked (owned busy) 0x200 0x01 (Window.access ⟨0x2D01, 0, 0, 2⟩ 4 [])) ⟨0x2D01, 0, 0, 2⟩).1 = .ok ∧
    (match writeRow (asked (owned busy) 0x200 0x02 (Window.access ⟨0x2A04, 0, 0, 1⟩ 4 [1])) me ⟨0x2A04, 0, 0, 1⟩
        [1] with
      | .inr row => (entryWrites (asked (owned busy) 0x200 0x02 (Window.access ⟨0x2A04, 0, 0, 1⟩ 4 [1])) me row
          ⟨0x2A04, 0, 0, 1⟩ [1]).2 == some .ok
      | .inl _ => false) = true := by decide +kernel

/-- An enable of function 18, asked for by an earlier owner, waits for its key: a request on functions waits its turn. -/
def enabling : State := setFn (owned busy) 18 { fnOf busy 18 with enabling := some ⟨0x110, 3⟩ }
theorem turns : fnBusy (owned busy) = false ∧ fnBusy enabling = true ∧ (entryFn 0x3011).isSome = true ∧ Admits 0x200 enabling ∧
    (match writeRow (asked enabling 0x200 0x02 (Window.access ⟨0x3011, 0x1E, 0, 2⟩ 4 [1, 0])) me ⟨0x3011, 0x1E, 0, 2⟩ [1, 0] with
      | .inr _ => fnBusy (asked enabling 0x200 0x02 (Window.access ⟨0x3011, 0x1E, 0, 2⟩ 4 [1, 0]))
      | .inl _ => false) = true := by decide +kernel

/-- Function 18 is DISABLED. -/
theorem enabled : OwnerWrites me 0x3012 0x01 1 1 (owned busy) (writing (owned busy) me 0x3012 0x01 1 1) ∧
    (fnOf (writing (owned busy) me 0x3012 0x01 1 1) 18).state = .disabled ∧ fnBusy (writing (owned busy) me 0x3012 0x01 1 1) = false ∧
    (fnOf (writing (owned busy) me 0x3012 0x01 1 1) 18).enabling = none ∧
    (fnOf (writing (owned busy) me 0x3012 0x01 1 1) 18).generation ≠ 0xFFFFFFFF ∧
    (partAt (writing (owned busy) me 0x3012 0x01 1 1) (fnPartition (writing (owned busy) me 0x3012 0x01 1 1) 18)).state = .ready ∧
    enableFits (writing (owned busy) me 0x3012 0x01 1 1) 18 = true ∧
    (writing (owned busy) me 0x3012 0x01 1 1).power.resetting = false ∧
    (writing (owned busy) me 0x3012 0x01 1 1).power.engineOos = false ∧
    (writing (owned busy) me 0x3012 0x01 1 1).debug ≠ .zeroising := by decide +kernel
theorem disabled : OwnerWrites me 0x3011 0x01 1 0 (owned busy) (writing (owned busy) me 0x3011 0x01 1 0) ∧
    (fnOf (writing (owned busy) me 0x3011 0x01 1 0) 17).state = .enabled := by decide +kernel
theorem share_written (burst : Bool) : OwnerWrites me 0x3011 (if burst then 0x05 else 0x04) 1 16 (owned busy)
      (writing (owned busy) me 0x3011 (if burst then 0x05 else 0x04) 1 16) ∧
    sharesFit (writing (owned busy) me 0x3011 (if burst then 0x05 else 0x04) 1 16) 17
      (if burst then fnSetting (writing (owned busy) me 0x3011 (if burst then 0x05 else 0x04) 1 16) 17 0x04 else 16)
      (if burst then 16 else fnSetting (writing (owned busy) me 0x3011 (if burst then 0x05 else 0x04) 1 16) 17 0x05)
      (fnOf (writing (owned busy) me 0x3011 (if burst then 0x05 else 0x04) 1 16) 17).live = true := by
  cases burst <;> decide +kernel

/-- A drain of function 17 at a step, with nothing of it left. -/
def drainAt (step : Nat) (slices : List Nat) : State :=
  setFn live 17 { fnOf live 17 with state := .draining, drain := some ⟨step, false, true, slices, 0, []⟩ }
theorem drains : purged (drainAt 2 []) 17 ⟨2, false, true, [], 0, []⟩ = true ∧ ((drainAt 3 []).journal.any fun p => p.2.1 == 17) = false ∧
    destroyed (drainAt 4 []) 17 = true ∧ sliceQuiet (drainAt 5 [0]) 0 17 = true ∧
    (fnOf (drainAt 5 [0]) 17).drain = some ⟨5, false, true, [0], 0, []⟩ ∧
    (fnOf (drainAt 7 []) 17).drain = some ⟨7, false, true, [], 0, []⟩ := by decide +kernel

/-! ## Faults -/

/-- Partition 0 names counter 5 as its heartbeat. -/
def beating (last : Option Word) : State :=
  onPart (setSetting busy 0x2E0200 (hd 1 5).toNat) 0 fun x => { x with lastBeat := last, beatDue := 5 }
theorem heartbeat_read : (counterOf (beating (some 10)) (BitVec.ofNat 64 (setting (beating (some 10)) 0x2E0200))).map (·.value) =
      some 10 ∧ BitVec.ofNat 64 (setting (beating (some 10)) 0x2E0200) ≠ 0 ∧
    fnPartition (beating (some 10)) (Handle.fn (BitVec.ofNat 64 (setting (beating (some 10)) 0x2E0200))) = 0 ∧
    (partAt (beating (some 10)) 0).lastBeat = some 10 ∧ (partAt (beating none) 0).lastBeat ≠ some 10 ∧
    (counterOf (beating none) (BitVec.ofNat 64 (setting (beating none) 0x2E0200))).map (·.value) = some 10 := by decide +kernel

/-- Partition 0 in a state, with the reset wire as given. -/
def partIn (st : PartState) (step : Nat) (entries : List Nat) (req : Bool) : State :=
  owned (onPart busy 0 fun x => { x with state := st, step := step, entries := entries, req := req })
theorem partition_states : OwnerWrites me 0x2E07 0 1 1 (partIn .ready 0 [] false) (writing (partIn .ready 0 [] false) me 0x2E07 0 1 1) ∧
    OwnerWrites me 0x2E07 0 1 0 (partIn .outOfService 0 [] false) (writing (partIn .outOfService 0 [] false) me 0x2E07 0 1 0) ∧
    (partAt (writing (partIn .outOfService 0 [] false) me 0x2E07 0 1 0) 0).state = .outOfService ∧
    (partAt (writing (partIn .outOfService 0 [] false) me 0x2E07 0 1 0) 0).req = false ∧
    busy.power.phase ≠ 1 ∧ (partAt busy 0).state = .ready ∧ (partAt (partIn .ready 0 [] true) 0).req = true ∧
    (partAt (partIn .resetting 5 [0, 0, 0, 0, 0, 0, 0, 0, 0, 0, 0, 0, 0, 0, 0, 0] true) 0).req = true ∧
    setting (partIn .resetting 5 [0, 0, 0] true) 0x2E0801 ≤
      ((partAt (partIn .resetting 5 [0, 0, 0, 0, 0, 0, 0, 0, 0, 0, 0, 0, 0, 0, 0, 0] true) 0).entries.filter fun a =>
        decide ((partAt (partIn .resetting 5 [0, 0, 0, 0, 0, 0, 0, 0, 0, 0, 0, 0, 0, 0, 0, 0] true) 0).entries.foldl max 0 <
          a + setting (partIn .resetting 5 [] true) 0x2E0802)).length ∧
    (partAt (partIn .resetting 4 [] true) 0).step ≠ 5 := by decide +kernel

/-- A capture of partition 0 at slice 0, with entries to come. -/
def captured (left : Nat) : State := onSlice busy 0 fun x => { x with capture := some ⟨0, 1, 0, [], 0, 0, left, 0, false, false, 0⟩ }
theorem captures : TakesMsg (inFlight (captured 2) 1 0 (.captureEntry ⟨0, 7⟩)) 1 0 (.captureEntry ⟨0, 7⟩) [] ∧
    ((taken (inFlight (captured 2) 1 0 (.captureEntry ⟨0, 7⟩)) 0 []).slices.find? (capturing
      (taken (inFlight (captured 2) 1 0 (.captureEntry ⟨0, 7⟩)) 0 []) 0 0)).any (fun x => x.1 == 0 && x.2.capture ==
        some ⟨0, 1, 0, [], 0, 0, 2, 0, false, false, 0⟩) = true ∧
    captureSlice (captured 2) 0 = some (0, ⟨0, 1, 0, [], 0, 0, 2, 0, false, false, 0⟩) := by decide +kernel

/-- A command to core 3 that waits for its answer. -/
def commanded (kind : Nat) (p l : Option Nat) : State := { owned busy with coreCmds := [⟨kind, 3, none, l, p, 9⟩] }
def fencedThree : State := { owned busy with fenced := [3] }
theorem core_commands :
    OwnerWrites me 0x2E0A 0x04 4 (1 + 2 ^ 16 * 3) (owned busy) (writing (owned busy) me 0x2E0A 0x04 4 (1 + 2 ^ 16 * 3)) ∧
    physKnown (writing (owned busy) me 0x2E0A 0x04 4 (1 + 2 ^ 16 * 3)) 3 = true ∧
    coreCommandFits (writing (owned busy) me 0x2E0A 0x04 4 (1 + 2 ^ 16 * 3)) 1 3 = true ∧
    OwnerWrites me 0x2E0A 0x04 4 (2 + 2 ^ 16 * 3) (owned busy) (writing (owned busy) me 0x2E0A 0x04 4 (2 + 2 ^ 16 * 3)) ∧
    coreCommandFits (writing (owned busy) me 0x2E0A 0x04 4 (2 + 2 ^ 16 * 3)) 2 3 = true ∧
    OwnerWrites me 0x2E0A 0x04 4 (3 + 2 ^ 16 * 3) fencedThree (writing fencedThree me 0x2E0A 0x04 4 (3 + 2 ^ 16 * 3)) ∧
    physKnown (writing fencedThree me 0x2E0A 0x04 4 (3 + 2 ^ 16 * 3)) 3 = true ∧
    coreCommandFits (writing fencedThree me 0x2E0A 0x04 4 (3 + 2 ^ 16 * 3)) 3 3 = true := by decide +kernel
theorem core_answers : cmdOf (commanded 1 (some 0) (some 3)) 1 3 = some ⟨1, 3, none, some 3, some 0, 9⟩ ∧
    cmdOf (commanded 1 none (some 3)) 1 3 = some ⟨1, 3, none, some 3, none, 9⟩ ∧
    cmdOf (commanded 2 none none) 2 3 = some ⟨2, 3, none, none, none, 9⟩ ∧
    cmdOf (commanded 3 none none) 3 3 = some ⟨3, 3, none, none, none, 9⟩ ∧
    logicalOf (dropCmd { commanded 3 none none with fenced := [] } 3 3) 3 = some 3 ∧
    cmdOf (declare (dropCmd (passToAc (commanded 1 (some 0) (some 3)) 9) 1 3) 0 4 0 0 (4 * 3) 3 1) 2 3 = none ∧
    (declare (dropCmd (passToAc (commanded 1 (some 0) (some 3)) 9) 1 3) 0 4 0 0 (4 * 3) 3 1).fenced.contains 3 = false ∧
    (declare (dropCmd (passToAc { commanded 1 (some 0) (some 3) with fenced := [3] } 9) 1 3) 0 4 0 0 (4 * 3) 3 1).fenced.contains 3 =
      true := by
  decide +kernel

/-! ## The transport -/

/-- The engine's endpoint is 0x20; host 0x110 has sent the first packet of a message with tag 2. -/
def endpoint : State :=
  let s := setSetting (owned busy) 0x200300 0x20
  { s with transport := { s.transport with
      assembly := [⟨0x10, 2, 1, [0x7F, 1]⟩]
      txQueue := [[1, 2]]
      ibiReq := true
      ibiRetryAt := some 3 } }
theorem transport_states : endpoint.power.phase ≠ 1 ∧ endpoint.restarting = none ∧ (0x20 : Byte).toNat = setting endpoint 0x200300 ∧
    (0x21 : Byte).toNat ≠ setting endpoint 0x200300 ∧ (0x01 : Byte).toNat % 16 = 1 ∧
    (0x1A : Byte).toNat / 8 % 2 = 1 ∧ (0x1A : Byte).toNat / 64 % 2 = 0 ∧ (0x1A : Byte).toNat / 128 = 0 ∧
    endpoint.transport.assembly.find? (fun x => x.src == (0x10 : Byte).toNat && x.tag == (0x1A : Byte).toNat % 8) =
      some ⟨0x10, 2, 1, [0x7F, 1]⟩ ∧ (0x1A : Byte).toNat / 16 % 4 = 1 ∧
    endpoint.transport.txQueue ≠ [] ∧ endpoint.transport.ibiReq = true ∧ endpoint.transport.ibiRetryAt = some 3 := by
  decide +kernel

/-! ## Ownership and events -/

def ownerIn (st : OwnerState) (claims : List Claim) : State :=
  { owned busy with owner := { (owned busy).owner with state := st, claims := claims, target := 0x200 } }
/-- Host 0x110 owns the engine, and is handing it to the window's host or not. -/
def other (st : OwnerState) : State :=
  { owned busy with owner := { (owned busy).owner with state := st, host := 0x110, target := 0x200 } }
theorem claims : ∀ x ∈ ([(ownerIn .unowned [], .unowned), (owned busy, .owned),
      (other .owned, .owned)] : List (State × OwnerState)),
    HostAsks 0x200 0x10 x.1.window.epoch.toNat 5 7 x.1 (asked x.1 0x200 0x10 (Window.args x.1.window.epoch.toNat 5 7)) ∧
    (asked x.1 0x200 0x10 (Window.args x.1.window.epoch.toNat 5 7)).owner.state = x.2 := by
  decide +kernel
theorem election_ends : (ownerIn .electing [⟨0x200, 5, 7⟩]).owner.state = .electing ∧
    bestClaim (passToAc (ownerIn .electing [⟨0x200, 5, 7⟩]) 1000000).owner.claims = some ⟨0x200, 5, 7⟩ := by decide +kernel
theorem owner_asks (a b : Nat) (command : Nat)
    (h : (command, a, b) ∈ ([(0x11, 0, 0), (0x12, 0, 0), (0x13, 0x110, 0)] : List (Nat × Nat × Nat))) :
    HostAsks 0x200 command 4 a b (owned busy) (asked (owned busy) 0x200 command (Window.args 4 a b)) ∧
    ownerRefusal (asked (owned busy) 0x200 command (Window.args 4 a b)) me = none ∧ hostDefined 0x110 = true ∧
    (owned busy).window.arg0.toNat = 0 ∧ (owned busy).window.arg1.toNat = 0 := by
  simp only [List.mem_cons, List.not_mem_nil, Prod.mk.injEq, or_false] at h
  rcases h with ⟨rfl, rfl, rfl⟩ | ⟨rfl, rfl, rfl⟩ | ⟨rfl, rfl, rfl⟩ <;> decide +kernel
theorem accepts : HostAsks 0x200 0x14 (other .handing).window.epoch.toNat 0x110 (other .handing).window.arg1.toNat (other .handing)
      (asked (other .handing) 0x200 0x14 (Window.args (other .handing).window.epoch.toNat 0x110 (other .handing).window.arg1.toNat)) ∧
    (asked (other .handing) 0x200 0x14
      (Window.args (other .handing).window.epoch.toNat 0x110 (other .handing).window.arg1.toNat)).owner.state = .handing ∧
    (asked (other .handing) 0x200 0x14
      (Window.args (other .handing).window.epoch.toNat 0x110 (other .handing).window.arg1.toNat)).owner.target = 0x200 := by
  decide +kernel

/-- The window's host has slot 0, host 0x110 slot 1, and the log an event for both. -/
def anEvent : Event := ⟨9, 0x61, false, 0, 0⟩
def allEvents : BitVec 128 := BitVec.ofNat 128 (2 ^ 128 - 1)
def subscribed (outstanding : Option Nat) (sends : Nat) : State :=
  { setSetting busy 0x200300 0x20 with log := [anEvent], subs := [(0, ⟨0x200, allEvents, 9, none, 0, 0⟩),
    (1, ⟨0x110, allEvents, 9, outstanding, sends, 0⟩)] }
theorem events_served : Admits 0x200 (subscribed none 0) ∧
    slotOf (asked (subscribed none 0) 0x200 0x21 id) 0x200 = some (0, ⟨0x200, allEvents, 9, none, 0, 0⟩) ∧
    slotOf (asked (subscribed none 0) 0x200 0x20 id) 0x200 = some (0, ⟨0x200, allEvents, 9, none, 0, 0⟩) ∧
    (⟨0x200, allEvents, 9, none, 0, 0⟩ : Sub).oldest (asked (subscribed none 0) 0x200 0x21 id) = some anEvent ∧
    Admits 0x200 busy ∧ slotOf (asked busy 0x200 0x20 id) 0x200 = none ∧
    leastFrom (fun k => (tget (asked busy 0x200 0x20 id).subs k).isNone) 8 0 < 8 ∧
    HostAsks 0x110 0x22 (subscribed (some 9) 1).window.epoch.toNat 9 (subscribed (some 9) 1).window.arg1.toNat (subscribed (some 9) 1)
      (asked (subscribed (some 9) 1) 0x110 0x22 id) ∧
    slotOf (asked (subscribed (some 9) 1) 0x110 0x22 id) 0x110 = some (1, ⟨0x110, allEvents, 9, some 9, 1, 0⟩) ∧
    (⟨0x110, allEvents, 9, some 9, 1, 0⟩ : Sub).open_ (asked (subscribed (some 9) 1) 0x110 0x22 id) = some 9 := by decide +kernel
theorem events_sent : slotOf (subscribed none 0) 0x110 = some (1, ⟨0x110, allEvents, 9, none, 0, 0⟩) ∧
    (subscribed none 0).restarting = none ∧
    (⟨0x110, allEvents, 9, none, 0, 0⟩ : Sub).oldest (subscribed none 0) = some anEvent ∧
    slotOf (subscribed (some 9) 8) 0x110 = some (1, ⟨0x110, allEvents, 9, some 9, 8, 0⟩) ∧
    (⟨0x110, allEvents, 9, some 9, 8, 0⟩ : Sub).current (subscribed (some 9) 8) = some anEvent ∧
    setting (passToAc (subscribed (some 9) 8) 0) 0x200502 ≤ 8 ∧ 1 < setting (passToAc (subscribed (some 9) 1) 0) 0x200502 ∧
    (⟨0x110, allEvents, 9, some 9, 1, 0⟩ : Sub).current (subscribed (some 9) 1) = some anEvent := by decide +kernel

/-! ## Debug access, service, power and upkeep -/

theorem debug_states : OwnerWrites me 0x2008 0x00 1 0 (owned busy) (writing (owned busy) me 0x2008 0x00 1 0) ∧
    OwnerWrites me 0x2008 0x00 1 1 (owned busy) (writing (owned busy) me 0x2008 0x00 1 1) ∧
    OwnerWrites me 0x4140 0x00 1 0 (owned busy) (writing (owned busy) me 0x4140 0x00 1 0) ∧
    busy.power.phase = 0 ∧ busy.debug ≠ .zeroising ∧ ({ busy with debug := .unlocked } : State).debug = .unlocked := by
  decide +kernel

/-- Station 25, which has no unit attached, in a state. -/
def stationIn (st : StationState) : State := onStation (owned live) 25 fun x => { x with state := st }
theorem services : ∀ x ∈ ([(stationIn .active, 1), (stationIn .fenced, 2),
      (stationIn .fenced, 3), (stationIn .fenced, 4), (stationIn .off, 5)] : List (State × BitVec 8)),
    x.1.service = none ∧ OwnerWrites me 0x4110 0x00 4 (1 + 2 ^ 8 * 25 + 2 ^ 16 * x.2.toNat) x.1
      (writing x.1 me 0x4110 0x00 4 (1 + 2 ^ 8 * 25 + 2 ^ 16 * x.2.toNat)) ∧
    (writing x.1 me 0x4110 0x00 4 (1 + 2 ^ 8 * 25 + 2 ^ 16 * x.2.toNat)).service = none ∧
    serviceDefined (writing x.1 me 0x4110 0x00 4 (1 + 2 ^ 8 * 25 + 2 ^ 16 * x.2.toNat)) 1 25 x.2.toNat = true ∧
    serviceFits (writing x.1 me 0x4110 0x00 4 (1 + 2 ^ 8 * 25 + 2 ^ 16 * x.2.toNat)) 1 25 x.2.toNat = true := by
  decide +kernel
theorem service_steps : stationEmpty (station live 3) = true ∧
    ({ live with service := some ⟨1, 3, 1, 4, false, 0, 0⟩ } : State).service = some ⟨1, 3, 1, 4, false, 0, 0⟩ := by decide +kernel

theorem resets : OwnerWrites me 0x2E08 0x06 1 0 (owned busy) (writing (owned busy) me 0x2E08 0x06 1 0) ∧
    OwnerWrites me 0x2E08 0x06 1 1 { owned busy with power := { busy.power with engineOos := true } }
      (writing { owned busy with power := { busy.power with engineOos := true } } me 0x2E08 0x06 1 1) ∧
    (writing { owned busy with power := { busy.power with engineOos := true } } me 0x2E08 0x06 1 1).power.engineOos = true ∧
    OwnerWrites me 0x4120 0x00 1 0 (owned busy) (writing (owned busy) me 0x4120 0x00 1 0) ∧
    ({ busy with restarting := some (1, 0) } : State).restarting = some (1, 0) := by decide +kernel

/-- Wires of the power controller. -/
def powered (p : Power) : State := { busy with power := p }
theorem power_states : (powered { busy.power with phase := 1 }).power.phase = 1 ∧ busy.power.phase ≠ 1 ∧
    busy.power.fcAck = true ∧ busy.power.fcReq = true ∧ busy.power.pdReq.contains 3 = true ∧ busy.power.pdAck.contains 3 = true ∧
    handshakeOpen (powered { busy.power with pdAck := [], pdDue := [(3, 5)] }) 3 = true ∧
    (domainTimesOut (powered { busy.power with pdAck := [], pdDue := [(3, 5)] }) 3).service = none := by decide +kernel

def needing (n : Need) (req : Bool) : State :=
  { busy with entropy := { busy.entropy with needs := [n], words := [1], req := req, fails := 0 } }
theorem entropy_states : (needing .uuid true).entropy.words.length + 1 = Need.words .uuid ∧
    (needing .uuid true).entropy.words.length + 1 = Need.words .tagKey ∧
    (needing (.fnKey 17) true).entropy.words.length + 1 < Need.words (.fnKey 17) ∧
    (needing .uuid true).entropy.req = true ∧ (needing .uuid false).entropy.req = false := by decide +kernel

/-- Station 3 dozes, with a record waiting or not. -/
def dozing (held passed : Bool) : State := onStation busy 3 fun x =>
  { x with state := .dozing, holdPassed := passed, rx := if held then [.record .nop { rec 0 0 0 with station := 3 }] else [] }
theorem dozes : (station busy 3).state = .active ∧ setting busy 0x210401 ≠ 0 ∧ hasWork busy 3 = false ∧
    towpathActs busy 3 = false ∧ (station (dozing true false) 3).state = .dozing ∧ hasWork (dozing true false) 3 = true ∧
    (station (dozing true false) 3).rx ≠ [] ∧ (station (dozing true false) 3).holdPassed = false ∧
    (station (dozing true true) 3).holdPassed = true ∧ (station (dozing true true) 3).rx ≠ [] := by decide +kernel
theorem upkeep_states : unitClocked busy 0 = true ∧ (tget busy.stations 0).isSome = true ∧
    1 < setting (bump { busy with replays := tput busy.replays 0 (1, 0) } 0x410301) 0x410302 ∧ portsLive busy = true ∧
    (station busy 0).state ≠ .absent ∧ busy.power.phase ≠ 1 ∧
    1000 * (max busy.gelari.fastKhz busy.gelari.fastKhz - min busy.gelari.fastKhz busy.gelari.fastKhz) ≤
      setting busy 0x413002 * busy.gelari.fastKhz ∧
    setting busy 0x413002 * busy.gelari.fastKhz < 1000 * (max (2 * busy.gelari.fastKhz) busy.gelari.fastKhz -
      min (2 * busy.gelari.fastKhz) busy.gelari.fastKhz) := by decide +kernel

/-! ## The whole machine -/

theorem queue_states : live.pending = [] ∧ portsLive (powered { busy.power with fcAck := false }) = false := by decide +kernel

/-- A bridge on, with its queue and its function, keeps the invariant; a state without one is quiet. -/
theorem invariant_states : StepInv (bridgeOn 1 []) ∧ StepInv live ∧
    (match step { live with pending := [.nop (rec 0 0 0)] } with | .next _ => true | _ => false) = true := by decide +kernel
theorem quiet_state : Quiet live := by
  refine ⟨rfl, rfl, by decide +kernel, by decide +kernel, ?_, by decide +kernel, by decide +kernel, rfl, rfl, by decide +kernel⟩
  intro p h d e
  rw [show live.fns = [(17, ⟨.enabled, 1, some 0x1234, none, none, 1⟩)] by decide +kernel] at h
  simp only [List.mem_singleton] at h
  subst h
  cases e

/-- An FP32 sum of two contributions, in two orders. -/
def sumParams : WeirParams := { params with redOp := 1, inFormat := 1, outFormat := 1 }
def leafA : MergeTree := .leaf 0x3F800000 0
def leafB : MergeTree := .leaf 0x4B800000 1
theorem merge_orders : redOk sumParams 2 = true ∧ sumParams.redOp ≠ 0 ∧ sumParams.inFormat ≤ 7 ∧
    (MergeTree.node leafA leafB).leaves.Perm (MergeTree.node leafB leafA).leaves ∧
    ((MergeTree.node leafA leafB).leaves.map (·.2)).Nodup ∧ (MergeTree.node leafA leafB).leaves.length ≤ 16384 ∧
    ∀ x ∈ (MergeTree.node leafA leafB).leaves, x.2 < 16384 := by
  refine ⟨by decide, by decide, by decide, List.Perm.swap _ _ _, by decide, by decide, by decide⟩

/-! ## Commands that no port can deliver -/

/-- One ill-formed command for each check, and a well-formed one of each kind. -/
theorem refused_commands (i : Instr) (h : i ∈ ([
    .nop { rec 0 0 0 with station := 66 }, .nop { rec 0 0 0 with agent := 0x2040 },
    .beaconRead ⟨66, false, 0, 0, 17, 0, false⟩, .beaconRead ⟨0, false, 0, 0, 17, 512, false⟩,
    .beaconRead ⟨0, false, 0, 0, 17, 2, true⟩, .met 0 66, .met 66 0, .hintMax 66,
    .landingReport ⟨.landing 32, 0, 17, 0, 1, false, false, false⟩, .landingReport ⟨.link 16, 0, 17, 0, 1, false, false, false⟩,
    .compactionMove 16, .xiResponse ⟨16, 0, true, false, true, false, false, false, 0⟩, .xiResponse ⟨0, 4096, true, false, true, false, false, false, 0⟩,
    .ackDue 16, .ack ⟨16, 0, [], 0, 0, 0⟩,
    .ack ⟨0, 0, [0, 0, 0, 0, 0], 0, 0, 0⟩, .op (.link ⟨0, 0, [], 0, 0, 0⟩) (some ⟨16, 0, [], 0, 0, 0⟩),
    .op (.course 0 1) (some ⟨0, 0, [], 0, 0, 0⟩), .weirUp (.course 0 66), .read ⟨0x108, 0⟩ (.register 0),
    .write ⟨0x200, 0⟩ (.register 0) [1],
    .bridgeOpSend 64, .read ⟨0x107, 0⟩ (.entry ⟨0, 0, 0, 1⟩), .read ⟨0x1FF, 0⟩ (.entry ⟨0, 0, 0, 1⟩), .read ⟨0x200, 2 ^ 32⟩ (.entry ⟨0, 0, 0, 1⟩),
    .read ⟨0x200, 0⟩ (.entry ⟨0, 0, 0, 1025⟩), .read ⟨0x200, 0⟩ (.entry ⟨0, 0, 2 ^ 32, 1⟩), .write ⟨0x200, 0⟩ (.entry ⟨0, 0, 0, 2⟩) [1],
    .mctpPacket (List.replicate 70 0), .claim 0x1FF 0 0, .accept 0x200 0, .pdAck 66 true, .scrubBurst 82 [],
    .scrubBurst 0 [⟨.scrub, 0, 16, 0, true, false⟩], .scrubBurst 0 [⟨.scrub, 126, 0, 0, true, false⟩],
    .scrubBurst 0 [⟨.course, 0, 0, 0, false, false⟩], .courseReplay 0 4,
    .channelCreditReturn (.xpResponse 0 2), .channelCreditReturn (.xpPush 66 0), .channelCreditReturn (.xiRequest 16),
    .channelCreditReturn (.xiWrite 16), .channelCreditReturn (.kpTransmit 16)] : List Instr)) : i.wellFormed = false := by
  revert i
  decide +kernel
theorem accepted_commands (i : Instr) (h : i ∈ ([
    .nop (rec 0 0 0), .nop { rec 0 0 0 with agent := 0x203F }, .beaconRead ⟨65, false, 0, 0, 17, 508, true⟩, .met 0 65,
    .landingReport ⟨.landing 31, 0, 17, 0, 1, false, false, false⟩, .landingReport ⟨.link 15, 0, 17, 0, 1, false, false, false⟩,
    .compactionMove 15, .xiResponse ⟨15, 4095, true, false, true, false, false, false, 0⟩, .ack ⟨15, 0, [0, 0, 0, 0], 0, 0, 0⟩,
    .weirUp (.course 65 0), .write ⟨0x200, 0⟩ (.register 8) [0, 0, 0, 128],
    .bridgeOpSend 63, .read ⟨0x108, 0⟩ (.entry ⟨0, 0, 0, 1024⟩), .write ⟨0x1FE, 0⟩ (.entry ⟨0, 0, 0, 2⟩) [1, 2],
    .mctpPacket (List.replicate 69 0), .pdAck 65 true, .scrubBurst 81 [], .scrubBurst 127 [⟨.scrub, 127, 15, 0, true, false⟩],
    .courseReplay 65 3, .channelCreditReturn (.xpPush 65 1)] : List Instr)) : i.wellFormed = true := by
  revert i
  decide +kernel

/-! ## Results of the manual's own examples -/

/-- Table 6.7. -/
theorem test_riffle : riffle 0 0 0 0 = 0x80C7F07969E07BDF ∧ riffle 0x0123456789ABCDEF 5 41 3 = 0x27F530F761AD1894 := by decide
/-- Table 6.9. -/
theorem test_conversions :
    ([(1, 1), (1, 0x3F800000), (2, 1), (3, 1), (3, 0x3C00), (5, 1), (4, 0x38), (4, 0x7E)].map fun p =>
      ((floatFmt p.1).map fun f => f.exact p.2).getD 0) =
    [1, 2 ^ 149, 2 ^ 16, 2 ^ 125, 2 ^ 149, 2 ^ 133, 2 ^ 149, 7 * 2 ^ 155] ∧
    ((floatFmt 1).map fun f => f.exact 0x7F7FFFFF) = some ((2 ^ 24 - 1) * 2 ^ 253) ∧
    ((floatFmt 5).map fun f => f.isInf 0xFC) = some true ∧ ((floatFmt 4).map fun f => f.isNan 0xFF) = some true := by decide +kernel
/-- Table 6.10. -/
theorem test_rounding :
    (([(1, 0, false, 0), (1, 2 ^ 149 + 19 * 2 ^ 137, false, 0), (2, 2 ^ 149 + 19 * 2 ^ 137, false, 0),
      (2, 2 ^ 149 + 19 * 2 ^ 137, true, 0x61AD1894), (2, 1, false, 0), (2, 1, true, 0xFFFF0000), (2, -3 * 2 ^ 15, false, 0),
      (4, 464 * 2 ^ 149, false, 0), (1, (2 ^ 24 - 1) * 2 ^ 254, false, 0), (4, (2 ^ 24 - 1) * 2 ^ 254, false, 0)] :
      List (Nat × Int × Bool × Nat)).map fun x => ((floatFmt x.1).map fun f => finishLane x.2.1 f x.2.2.1 x.2.2.2).getD 0) =
    [0, 0x3F809800, 0x3F81, 0x3F80, 0, 1, 0x8002, 0x7E, 0x7F800000, 0x7E] := by decide +kernel
/-- The example of chapter 6: four participants in two stations, stochastic to BF16. -/
theorem test_confluence_example :
    let p : WeirParams := ⟨.range 0 4 1, 2, none, 1, 1, 2, true, 0, none⟩
    let lane3 : Nat → Payload := fun x => BitVec.ofNat 512 (ofBytesBE (List.replicate 12 0 ++ bytesLE 4 x ++ List.replicate 48 0))
    let t : MergeTree := .node (.node (.leaf (lane3 0x4B800000) 0) (.leaf (lane3 0x3F800000) 1))
      (.node (.leaf (lane3 0xCB800000) 2) (.leaf (lane3 0x3B980000) 3))
    let r := finishPartial p (t.partial_ 1 1) 0x0123456789ABCDEF 5 41
    (payloadBytes r.1).take 8 = [0, 0, 0, 0, 0, 0, 0x80, 0x3F] ∧ r.2 = 0 := by decide +kernel
/-- The handle of the example of chapter 3: function 0x011, generation 3, class 1, index 0x0123, check tag 0x5A3C. -/
theorem test_handle : Handle.fn 0x01100C41235A3C00 = 0x11 ∧ Handle.gen 0x01100C41235A3C00 = 3 ∧
    Handle.cls 0x01100C41235A3C00 = 1 ∧ Handle.index 0x01100C41235A3C00 = 0x123 ∧
    (Handle.tag 0x01100C41235A3C00).toNat = 0x5A3C := by decide +kernel
/-- Table 18.2: the check groups of flits and beats whose last bytes are given. -/
theorem test_codes : flitCheck 0 = 0 ∧ flitCheck 1 = 0x0F367840 ∧ flitCheck 2 = 0x1E6CF080 ∧ flitCheck 0x100 = 0x6357D2E7 ∧
    flitCheck 0x101 = 0x6C61AAA7 ∧ beatCheck 1 = 0x0F367840 ∧ beatCheck 0x100 = 0x6357D2E7 := by decide +kernel
/-- A code word with two symbols in error is corrected, and one with three that no code word is near is uncorrectable (R582). -/
theorem test_decoder : receiveFlit 0x0200000000000000000000000000A501 0x0F367840 = some (1, true) ∧
    receiveFlit 1 0x0F367840 = some (1, false) ∧ receiveFlit 0x010203 0 = none := by decide +kernel
/-- A record's 512 bits (Table 3.2, R99): opcode, tag, handle and operands stand at the bits of the table. -/
theorem test_record_bits : recordBits 0x10 { rec 5 6 7 with cookie := 8, waitLimit := 9, scope := 2 } =
    BitVec.ofNat 512 (0x10 * 2 ^ 504 + 2 * 2 ^ 497 + 2 ^ 494 + 17 * 2 ^ 482 + 9 * 2 ^ 448 + 5 * 2 ^ 384 + 6 * 2 ^ 320 +
      7 * 2 ^ 256 + 8 * 2 ^ 192 + 9 * 2 ^ 160) ∧
    (recordOf 0 0 (BitVec.ofNat 512 (0x10 * 2 ^ 504 + 3 * 2 ^ 384)) 0 false 0).handle = 3 ∧
    recordOpcode (BitVec.ofNat 512 (0x10 * 2 ^ 504)) = .ctrCreate := by decide +kernel
/-- CRC-32C of the digits 1 to 9 (the check value of the code that R371 names). -/
theorem test_crc : crc32c [0x31, 0x32, 0x33, 0x34, 0x35, 0x36, 0x37, 0x38, 0x39] = 0xE3069283 := by decide +kernel

/-- Groups 0 to 5 of the example of chapter 11 before step 1,999, with the sums of a step. -/
def exampleGroup (s : Int) (clean uf silent : Nat) : Group :=
  { ((newKeeper live 6 (policyOf 0)).groups.headD ((keeperOf live).groups.headD
      ⟨0, 0, 0, 0, 0, 0, 0, 0, 0, 0, true, 0, 0, 0, 0, 0, 0, 0, false, false⟩)) with
    s := s, cleanRun := clean, ufCount := uf, silentCount := silent, anchored := true, autoRaise := true, ufEvent := true }
def exampleKeeper : Keeper := { newKeeper live 6 (policyOf 0) with groups := [exampleGroup 16 1999 0 0, exampleGroup 16 400 0 0,
  exampleGroup 12 0 63 0, exampleGroup 16 0 0 1022, exampleGroup 20 0 0 0, exampleGroup 20 0 0 0] }
/-- Table 11.9: the two steps. -/
theorem test_keeper_example :
    let k1 := (decideStep ((exampleKeeper.latch 0 [0, 12, 81920, 0, 3, 0, 40955, 0, 0, 910, 39990, 0, 0, 0, 0, 0]).latch 1
      [0, 0, 20000, 0, 0, 0, 20000, 0])).1
    let k2 := (decideStep ((k1.latch 0 [0, 10, 81922, 0, 0, 2, 40958, 0, 0, 900, 40000, 0, 0, 0, 0, 0]).latch 1
      [0, 0, 20000, 0, 0, 0, 20000, 0])).1
    k1.groups.map (fun g => (g.s, g.cleanRun)) = [(16, 1999), (15, 0), (12, 0), (16, 0), (20, 0), (20, 0)] ∧
    k1.groups.map (·.silentCount) = [0, 0, 0, 1023, 0, 0] ∧ (k1.groups.map (·.ufCount)).getD 2 0 = 63 ∧ k1.lastSkipped = true ∧
    k2.groups.map (·.s) = [17, 15, 13, 16, 20, 20] ∧ k2.groups.map (·.silentCount) = [0, 0, 0, 0, 0, 0] ∧
    (k2.groups.map (·.cleanRun)).getD 1 0 = 1 ∧ (k2.groups.map (·.ufCount)).getD 2 9 = 0 ∧ k2.lastSkipped = false := by
  decide +kernel

/-- Free space and the rewind of the example of chapter 8: step 1, step 4 and step 5. -/
theorem test_queue_example :
    ({ queue with capacity := 48, push := 0, read := 0, rel := 0, tollOut := 0 } : Queue).free = 48 ∧
    ({ queue with capacity := 48, push := 8, read := 8, rel := 0, tollOut := 16 } : Queue).free = 24 ∧
    ({ queue with capacity := 48, push := 8, read := 8, rel := 8, tollOut := 16 } : Queue).free = 32 ∧
    ({ queue with push := 8, read := 0, packets := 1, marksSince := 0, markValid := true } : Queue).popped
      [⟨1, false⟩, ⟨2, false⟩, ⟨3, false⟩, ⟨4, false⟩, ⟨5, false⟩, ⟨6, false⟩, ⟨7, false⟩, ⟨8, true⟩] =
      { queue with push := 8, read := 8, packets := 0, marksSince := 1, markValid := true } := by decide +kernel

/-- NOP answers OK with both values zero (R112). -/
theorem test_nop : (match exec (.nop (rec 0 0 0)) live with
    | .next t => t.outputs.any fun o => match o with
      | .response 0 0 (.op _ _ _ r) => r.status == .ok && r.opTag == 9 && r.valueA == 0 && r.valueB == 0
      | _ => false
    | _ => false) = true := by decide +kernel
/-- A NOP of a DISABLED function answers NOFUNC. -/
theorem test_nofunc : (match exec (.nop { rec 0 0 0 with fnStamp := 18 }) live with
    | .next t => t.outputs.any fun o => match o with
      | .response 0 0 (.op _ _ _ r) => r.status == .nofunc
      | _ => false
    | _ => false) = true := by decide +kernel
/-- The aperture reads the value of a beacon word, its least significant byte first in the beat (R523). -/
theorem test_beacon_read : (match exec (.beaconRead ⟨0, false, 0, 7, 17, 3, false⟩)
      (onStation busy 0 fun st => { st with beacon := [(3, 44)] }) with
    | .next t => t.outputs.any fun o => match o with
      | .response 0 _ (.access _ _ x _ err data) => x == 7 && !err && data.toNat == 44 * 2 ^ 248
      | _ => false
    | _ => false) = true := by decide +kernel

/-! ## Records that wait their turn, refusals, first waits -/

/-- A NOP of agent 0 waits in the budget queue of station 0. -/
def inLine : State := onStation live 0 fun st => { st with budget := [(0, admOf .nop (rec 0 0 0))] }
/-- Function 17 has no operation in its buckets, and some NOPs of agent 0 are in the excess buffer. -/
def dry (k : Nat) : State := onStation (setFnSetting live 17 0x05 0) 0 fun st => { st with
  excess := List.replicate k (admOf .nop (rec 0 0 0)) }
theorem waits_in_line : Passes .nop (rec 0 0 0) inLine ∧ 256 ≤ bucketNow (noticed (rec 0 0 0) inLine) 0 17 ∧
    waitsTurn (noticed (rec 0 0 0) inLine) (admOf .nop (rec 0 0 0)) false = true := by decide +kernel
theorem overflows : ∀ k ∈ ([0, 1, 64] : List Nat), Passes .nop (rec 0 0 0) (dry k) ∧
    bucketNow (noticed (rec 0 0 0) (dry k)) 0 17 < 256 ∧
    waitsTurn (noticed (rec 0 0 0) (dry k)) (admOf .nop (rec 0 0 0)) false = (k != 0) ∧
    (station (noticed (rec 0 0 0) (dry k)) 0).excess.length = k := by decide +kernel
theorem next_in_line : (station inLine 0).state = .active ∧ towpathActs inLine 0 = false ∧
    (station inLine 0).budget = [] ++ (0, admOf .nop (rec 0 0 0)) :: [] ∧ remotePath inLine (admOf .nop (rec 0 0 0)) = false ∧
    (station (dry 1) 0).state = .active ∧ towpathActs (dry 1) 0 = false ∧ (station (dry 1) 0).budget = [] ∧
    (station (dry 1) 0).excess = [] ++ admOf .nop (rec 0 0 0) :: [] ∧
    remotePath (dry 1) (admOf .nop (rec 0 0 0)) = false := by decide +kernel

/-- A counter with eight eddies. -/
def crowded : Obj := obj 1 5 (.counter ⟨10, (List.range 8).map (fun k => ⟨k, BitVec.ofNat 64 (100 + k), true, 0, [(0, k)]⟩), 0⟩)
theorem ctr_forms : WaitsHere .ctrAcquire (withTag busy (rec (hd 1 5) 50 0)) busy counterObj ∧
    WaitsHere .ctrWaitGe (withTag busy (rec (hd 1 5) 50 0)) busy counterObj ∧ counter.value.toNat < (50 : Word).toNat ∧
    (∀ a, counter.eddies.find? (fun x => x.acquire == a && x.threshold == 50) = none) ∧ counter.eddies.length < 8 ∧
    recordsFree busy 0 17 4 = true :=
  ⟨waits (by decide +kernel), waits (by decide +kernel), by decide +kernel⟩
theorem ctr_crowded : WaitsHere .ctrAcquire (withTag (withObj busy crowded) (rec (hd 1 5) 50 0)) (withObj busy crowded) crowded ∧
    ∀ c, crowded.body = .counter c → (c.eddies.find? fun x => x.acquire == true && x.threshold == 50) = none ∧
      8 ≤ c.eddies.length :=
  ⟨waits (by decide +kernel), by rintro c h; cases h; decide +kernel⟩

/-- The node of weir 6 at station 0 as given. -/
def nodeIs (x : Node) : State := onStation busy 0 fun st => { st with nodes := [(6, x)] }
theorem nodeFor_refused {s : State} {x : Node} {r : OpRec} (h : nodeFor (admitted r s) 0 (hd 2 6) = some x) :
    nodeFor (admitted (withTag s r) s) 0 (tagged s (hd 2 6)) = some x := (nodeFor_tagged _ _ _ _).trans h
theorem arrivals_refused : ∀ p ∈ ([(weirNode, 5, false), (weirNode, 2, false), (weirNode, 3, true),
      ({ weirNode with failed := true }, 3, false), ({ weirNode with broken := true, lost := true }, 3, false),
      (weirNode.setBank true { weirNode.bank true with arrived := [0] }, 3, false)] : List (Node × Word × Bool)),
    Ready .weirArrive (withTag (nodeIs p.1) { rec (hd 2 6) p.2.1 0 with wide := p.2.2, payload := p.2.2 }) (nodeIs p.1) ∧
    Ready .weirArriveWait (withTag (nodeIs p.1) { rec (hd 2 6) p.2.1 0 with wide := p.2.2, payload := p.2.2 }) (nodeIs p.1) := by
  intro p h
  simp only [List.mem_cons, List.not_mem_nil, or_false] at h
  rcases h with rfl | rfl | rfl | rfl | rfl | rfl <;>
    exact ⟨ready_withTag (by decide +kernel), ready_withTag (by decide +kernel)⟩
theorem arrivals_refused_why (s : State) (a : agentHere s 0 weirNode 0 = true) (b : agentHere s 0 weirNode 12 = false)
    (c : agentHere s 0 (weirNode.setBank true { weirNode.bank true with arrived := [0] }) 0 = true) :
    ArrivalRefused s 0 weirNode 0 5 none ⟨.ahead, 3, 0, none, none⟩ ∧
    ArrivalRefused s 0 weirNode 0 2 none ⟨.stale, 3, 0, none, none⟩ ∧
    ArrivalRefused s 0 weirNode 0 3 (some 0) ⟨.privilege, 0, 0, none, none⟩ ∧
    ArrivalRefused s 0 weirNode 12 3 none ⟨.privilege, 0, 0, none, none⟩ ∧
    ArrivalRefused s 0 { weirNode with failed := true } 0 3 none ⟨.integrity, 0, 0, none, none⟩ ∧
    ArrivalRefused s 0 { weirNode with broken := true, lost := true } 0 3 none ⟨.linklost, 3, 0, none, none⟩ ∧
    ArrivalRefused s 0 (weirNode.setBank true { weirNode.bank true with arrived := [0] }) 0 3 none
      ⟨.stale, 3, 0, none, none⟩ :=
  ⟨.ahead rfl rfl a rfl (by decide) (by decide), .past rfl rfl a rfl (by decide), .payload rfl rfl a (by decide),
    .stranger rfl rfl b, .failed rfl, .broken rfl rfl, .again rfl rfl c rfl (by decide) (by decide)⟩
theorem agents_here : agentHere busy 0 weirNode 0 = true ∧ agentHere busy 0 weirNode 12 = false ∧
    agentHere busy 0 (weirNode.setBank true { weirNode.bank true with arrived := [0] }) 0 = true := by decide +kernel
theorem arrive_wait_full : Ready .weirArriveWait (withTag full (rec (hd 2 6) 3 0)) full ∧
    recordsFree (atStep (admitted (withTag full (rec (hd 2 6) 3 0)) full)) 0 17 1 = false ∧
    nodeFor (admitted (withTag full (rec (hd 2 6) 3 0)) full) 0 (tagged full (hd 2 6)) = some weirNode :=
  ⟨ready_withTag (by decide +kernel), by decide +kernel, nodeFor_refused (by decide +kernel)⟩

theorem weir_waits_refused : ∀ p ∈ ([(weirNode, 5), ({ weirNode with failed := true }, 3),
      ({ weirNode with broken := true }, 3)] : List (Node × Word)),
    Ready .weirWait (withTag (nodeIs p.1) (rec (hd 2 6) p.2 0)) (nodeIs p.1) ∧
    nodeFor (admitted (withTag (nodeIs p.1) (rec (hd 2 6) p.2 0)) (nodeIs p.1)) 0 (tagged (nodeIs p.1) (hd 2 6)) = some p.1 ∧
    p.1.pendingReply = false := by
  intro p h
  simp only [List.mem_cons, List.not_mem_nil, or_false] at h
  rcases h with rfl | rfl | rfl <;> exact ⟨ready_withTag (by decide +kernel), nodeFor_refused (by decide +kernel), by decide +kernel⟩
/-- No waiter record is left to function 17, and the weir's home is station 1. -/
def fullFar : State := setFnSetting farWeir 17 0x0B 0
theorem weir_waits_full : Ready .weirWait (withTag full (rec (hd 2 6) 3 0)) full ∧
    recordsFree (admitted (withTag full (rec (hd 2 6) 3 0)) full) 0 17 1 = false ∧
    Ready .weirWait (withTag fullFar (rec (hd 2 21) 3 0)) fullFar ∧
    recordsFree (admitted (withTag fullFar (rec (hd 2 21) 3 0)) fullFar) 0 17 2 = false ∧
    nodeFor (admitted (withTag fullFar (rec (hd 2 21) 3 0)) fullFar) 0 (tagged fullFar (hd 2 21)) = none ∧
    chartAt (admitted (withTag fullFar (rec (hd 2 21) 3 0)) fullFar) 0 (Handle.index (tagged fullFar (hd 2 21))) = some ⟨0, 1⟩ :=
  ⟨ready_withTag (by decide +kernel), by decide +kernel, ready_withTag (by decide +kernel), by decide +kernel,
    (nodeFor_tagged _ _ _ _).trans (by decide +kernel), (congrArg (chartAt _ _) (tagged_fields _ _).2.2.2.1).trans (by decide +kernel)⟩
theorem landing_waits : WaitsHere .landWait (withTag busy (rec (hd 3 7 1) 500 0)) busy landObj ∧
    landing.landed.toNat < (500 : Word).toNat :=
  ⟨waits (by decide +kernel), by decide⟩

/-- The queue once its idle time has passed; with its next token in no window; with tokens that a grant brought back. -/
def idled : Obj := obj 4 8 (.queue { queue with idleDue := true })
def awaiting : Obj := obj 4 8 (.queue { queue with push := 20, tailBlock := 1, bwBlocks := [0] })
def brought : Obj := obj 4 8 (.queue { queue with returned := [(0, ⟨7, false⟩)] })
theorem queue_pops : ∀ p ∈ ([(idled, 2), (awaiting, 0), (brought, 2)] : List (Obj × Word)),
    WaitsHere .qPop (withTag (withObj busy p.1) { rec (hd 4 8) 1 p.2 with hold := true }) (withObj busy p.1) p.1 := by
  intro p h
  simp only [List.mem_cons, List.not_mem_nil, or_false] at h
  rcases h with rfl | rfl | rfl <;> exact waits (by decide +kernel)
theorem queue_pops_why : ∀ q, (idled.body = .queue q → q.returned = [] ∧ (decide (q.read < q.push) && q.present) = true ∧
      q.holds 2 = false ∧ q.idleDue = true) ∧
    (awaiting.body = .queue q → q.returned = [] ∧ (decide (q.read < q.push) && q.present) = false) ∧
    (brought.body = .queue q → q.returned = (0, ⟨7, false⟩) :: []) := by
  intro q
  refine ⟨?_, ?_, ?_⟩ <;> (intro h; cases h; decide +kernel)
theorem toll_bounds (n : Word) (h : n = 0 ∨ n = 65) : WaitsHere .qToll (withTag busy (rec (hd 4 8) n 0)) busy queueObj ∧
    (n = 0 ∨ queue.capacity < n.toNat) := by
  rcases h with rfl | rfl <;> exact ⟨waits (by decide +kernel), by decide +kernel⟩
theorem policy_bounds (v : Nat) (h : v = 0 ∨ v = 2 ^ 32) :
    MeetsHere .qPolicy (withTag busy (recWide (hd 4 8) 0 0 (payload v))) busy queueObj ∧
    payloadNat (payload v) 8 56 = 0 ∧ payloadNat (payload v) 0 8 = v := by
  rcases h with rfl | rfl <;> exact ⟨meets (by decide +kernel), by decide +kernel⟩

/-! ## Messages at a dozing station, page words, feeds, copies, links -/

/-- Station 0 dozes. -/
def asleep : State := onStation busy 0 fun st => { st with state := .dozing }
theorem reached_asleep : ∀ b ∈ ([.chartCommit 20 0 1 false, .chartClear 20, .beaconUpdate 3 0 true false (hd 7 12),
      .beaconUpdate 3 9 false false (hd 7 12), .beaconUpdate 9 4 false true (hd 2 6), .beaconUpdate 9 4 false true (hd 2 21)] :
      List MsgBody), ReachesMsg (inFlight asleep 1 0 b) 1 0 b [] := by decide +kernel
theorem page_nodes : nodeFor asleep 0 (hd 2 6) = some weirNode ∧ nodeFor asleep 0 (hd 2 21) = none := by decide +kernel
theorem feed_alone : Gets busy (.feedPush (hd 4 8) 0 ⟨5, false⟩) ∧ lapseStatus queueObj = none := by decide +kernel
theorem beacon_copied : Gets busy (.copy ⟨obj 7 31 (.beacon ⟨5, 44⟩), none⟩ (hd 7 31) 1 1) ∧
    moveGoes (after busy (.copy ⟨obj 7 31 (.beacon ⟨5, 44⟩), none⟩ (hd 7 31) 1 1)) (hi 7 31) = true ∧
    holds (after busy (.copy ⟨obj 7 31 (.beacon ⟨5, 44⟩), none⟩ (hd 7 31) 1 1)) 0
      (copyTakes ⟨obj 7 31 (.beacon ⟨5, 44⟩), none⟩) = true := by decide +kernel
theorem link_timers : portsLive (linked busy { upLink with ackDue := true, ackBy := 9 }) = true ∧
    ({ upLink with ackDue := true, ackBy := 9 } : Link).flitsOk
      (mkCaravan (passToFc (linked busy { upLink with ackDue := true, ackBy := 9 }) 9) 0x00 upLink.peer 0 0 0 0 []) = true ∧
    ({ upLink with held := [(0, (caravan 0x12 0 []).head, [])], retxDue := 9 } : Link).held ≠ [] := by decide +kernel

/-! ## Recovery, service, power -/

theorem declarations : (partAt busy 0).state = .ready ∧ (partAt (partIn .frozen 1 [] false) 0).state ≠ .ready ∧
    resetRuns (partIn .frozen 1 [] false) 0 = true ∧ (partAt (partIn .outOfService 0 [] false) 0).state ≠ .ready ∧
    resetRuns (partIn .outOfService 0 [] false) 0 = false := by decide +kernel
theorem fences : physOf (fencedNow (commanded 2 (some 0) (some 3)) 3) 3 = 3 ∧
    corePartition (fencedNow (commanded 2 (some 0) (some 3)) 3) 3 = 0 ∧
    corePartition (fencedNow { commanded 2 none (some 3) with maps := { busy.maps with partition := [] } } 3) 3 = 255 ∧
    (⟨2, 3, some 200, some 3, none, 9⟩ : CoreCmd).spare = some 200 := by decide +kernel
theorem fenced_waits (hold : Bool) : { waiter 3 (hd 1 20) (.eddy 1 0) .joined with hold := hold }.cancel = none := rfl

/-- A drain of station 25 at a step, its roles on their way or not, with station 9 its substitute or none. -/
def draining (step roles : Nat) (sub : Option Nat) : State :=
  { live with
    service := some ⟨1, 25, 1, step, false, 0, roles⟩
    substitute := match sub with | some b => [(25, b)] | none => [] }
theorem drain_steps : (attached live 25).all (fun k => unitAt live k.1 k.2 == 2) = true ∧
    (attached live 0).all (fun k => unitAt live k.1 k.2 == 2) = false ∧ live.power.fcAck = true ∧
    tget (draining 3 2 (some 9)).substitute 25 = some 9 ∧
    agentsQuiet (withdrawAgents (draining 3 2 (some 9)) 25 (entrySlots (draining 3 2 (some 9)) 25)) 25
      (entrySlots (draining 3 2 (some 9)) 25) = true ∧
    nodesFit (moveEntry (withdrawAgents (draining 3 2 (some 9)) 25 (entrySlots (draining 3 2 (some 9)) 25)) 25 9
      (entrySlots (draining 3 2 (some 9)) 25)) 9 = true ∧
    stationEmpty (station (draining 4 2 (some 9)) 25) = true ∧ stationEmpty (station busy 0) = false := by decide +kernel
theorem waits_stay : agentsQuiet (withWait live (waiter 3 (hd 2 6) (.weir 6 3) .withdrawing)) 0 [0] = false := by decide +kernel
theorem nothing_received : ∀ n, (station live n).rx = [] := by
  intro n
  by_cases h : n < 32
  · exact (show ∀ n < 32, (station live n).rx = [] by decide +kernel) n h
  · have e : tget live.stations n = none := by
      have a : ∀ p ∈ live.stations, p.1 < 32 := by decide +kernel
      generalize live.stations = l at a
      induction l with
      | nil => rfl
      | cons p l ih =>
        have b : ¬ p.1 = n := by have := a p (by simp); omega
        simp [tget, b]
        exact ih fun q hq => a q (by simp [hq])
    simp [station, tgetD, e]; rfl
theorem clock_states : portsLive (engineResets { busy with power := { busy.power with fcAck := true } }) = true ∧
    portsLive (engineResets { powered { busy.power with clamp := true } with course := [] }) = false ∧
    (powered { busy.power with resetting := true, pdAck := [] }).power.resetting = true ∧
    busy.power.resetting = false := by decide +kernel
theorem owed_drains : (owned busy).drainsOwed.filter (fun n => Machine.serving (station (owned busy) n)) = (owned busy).drainsOwed ∧
    ({ live with drainsOwed := [25] } : State).drainsOwed.find? (fun n => serviceFits { live with drainsOwed := [25] } 1 n 1) = some 25 ∧
    ({ live with drainsOwed := [25] } : State).drainsOwed.filter (fun n => Machine.serving (station { live with drainsOwed := [25] } n)) = [25] := by
  decide +kernel
theorem findings : (station busy 0).objects[0]? = some (5, counterObj) ∧ counterObj.failed = false ∧ objAt busy 0 5 = some counterObj ∧
    nodeAt (failObj busy 0 6) 0 6 = some { weirNode with failed := true } := by decide +kernel
theorem replay_bounds : setting busy 0x410302 < 9 ∧ 1 ≤ setting busy 0x410302 ∧
    (busy.clock.fc ≤ (tgetD (tput busy.replays 0 (8, 0)) 0 (0, 0)).2 + 2 * (busy.gelari.stages + 1) + 16) := by decide +kernel
theorem measured : busy.power.fcAck = true ∧ 400000 ≤ (800000 : BitVec 32).toNat ∧ (800000 : BitVec 32).toNat ≤ 2000000 := by
  decide +kernel

/-! ## Bounds -/

theorem bounded : CursorsOrdered queue ∧ CursorsOrdered { queue with push := queue.push + 3 } ∧
    (newObj busy 0 17 1 (.counter counter)).isSome = true ∧ (joinEddies counter.eddies 8 9 true 50 (0, 1)).isSome = true ∧
    recordsFree busy 0 17 4 = true ∧
    Link.turn { upLink with control := [((caravan 1 0 []).head, [])] } = .control ((caravan 1 0 []).head, []) [] ∧
    numbered (headKind (caravan 1 0 []).head) = true ∧ Link.turn { upLink with opWait := [unitOf 0x20 0] } = .unit false := by
  decide +kernel

end Sys2Proof.Tests
end

/-!
PROOFS of the architecture: an operation on its way from its entry station to the home of its object, the creations, and the
commits of the chart.
-/

section
namespace Sys2Proof.Machine

/-! ## From the entry station to the home (R26) -/

/-- An admitted operation that takes no waiter record leaves for a home elsewhere, its transaction open. -/
theorem forwardAdm_elsewhere (op : Opcode) (r : OpRec) (s : State) (home : Nat) (h : home ≠ r.station) :
    forwardAdm s (admOf op r) home none =
      send (opened op r s none) r.station home (.fwdOp (travelling op r s 0)) := if_neg h

/-- Where its entry station is the home, an admitted operation is executed as an operation at its home. -/
theorem forwardAdm_here (op : Opcode) (r : OpRec) (s : State) :
    forwardAdm s (admOf op r) r.station none = opAtHome (opened op r s none) r.station (travelling op r s 0) := if_pos rfl

/-- An ordinary opcode goes to the home that the entry station's chart names. -/
theorem proceed_ordinary (op : Opcode) (r : OpRec) (s : State) (ho : ordinary op = true) :
    proceed s (admOf op r) = forwardAdm s (admOf op r) (homeOf s r.station (Handle.index r.handle)) none := by
  cases op <;> simp [ordinary, Opcode.creates, Opcode.waits] at ho <;> rfl

/-- A creating opcode goes to the home that is chosen for it. -/
theorem proceed_creates (op : Opcode) (r : OpRec) (s : State) (hc : op.creates = true) :
    proceed s (admOf op r) = createAdm s (admOf op r) := by
  cases op <;> simp [Opcode.creates] at hc <;> rfl

/-- Settles O3: a ready record of an ordinary opcode proceeds to its object's home, and one whose home is elsewhere is sent
there. -/
theorem operationsLeave : Obligations.OperationsLeave := by
  unfold Obligations.OperationsLeave
  intro op r s home hop hr hh hne
  have ho : ordinary op = true := by clear hr hh; revert op; decide
  rw [exec_recordCommand, submit_ready op r s hr, proceed_ordinary op r _ ho, hh, forwardAdm_elsewhere op r _ home hne]

/-! ## Creations at their home (R28, R153) -/

/-- A creation at its home, of an enabled function, is a step of the home: it waits behind no push, and meets no object that
moves. -/
theorem homeExec_creates (s : State) (n : Nat) (f : FwdOp) (hc : f.op.creates = true)
    (hf : (fnOf s (Handle.fn f.handle)).state = .enabled) :
    homeExec s n f = stepOn s n f.handle (createAt (atStep s) n f) := by
  have hs : stateRefusal (atStep s) (Handle.fn f.handle) = none := by
    have : (fnOf (atStep s) (Handle.fn f.handle)).state = .enabled := hf
    simp only [stateRefusal, this]
  have hr : runOp (atStep s) n f = createAt (atStep s) n f := by simp only [runOp, hs, hc, if_true]
  simp only [homeExec, hc, Bool.not_true, Bool.false_and, Bool.false_eq_true, if_false, homeStep_eq s n _ (runOp · n f), hr,
    stepOn]

/-- A creation's home is chosen once: at that station it is executed, whatever of the object's index moves there. -/
theorem opAtHome_creates (s : State) (n : Nat) (f : FwdOp) (hc : f.op.creates = true) : opAtHome s n f = homeExec s n f :=
  if_pos hc

/-- A record that creates at its own entry station has the effect of its creation there. -/
theorem exec_createsHere (op : Opcode) (r : OpRec) (s t effect : State) (hc : op.creates = true) (h : CreatesHere op r s t)
    (he : createAt t r.station (travelling op r (admitted r s) 0) = effect) :
    exec (recordCommand op r) s = .next (settled (createdHere op r s effect)) := by
  obtain ⟨hr, hhome, ht, hen⟩ := h
  subst ht he
  rw [exec_recordCommand, submit_ready op r s hr, proceed_creates op r _ hc]
  simp only [createAdm, hhome]
  rw [forwardAdm_here, opAtHome_creates _ _ _ hc, homeExec_creates _ _ _ hc hen]
  rfl

section Room

variable {s u : State} {home : Nat} {f : FwdOp} {o : Obj}

/-- CTR_CREATE with room for its object publishes it. -/
theorem createCounter_room (hq : objectQuota s (Handle.fn f.handle) = true)
    (hn : newObj s home (Handle.fn f.handle) 1 (.counter ⟨f.a, [], 0⟩) = some (o, u)) :
    createCounter s home f =
      announce (publish u home o f.agent) home o.hi f.entry f.tag f.agent (issue u o.hi 0) 0 := by
  simp only [createCounter, hq, hn, Bool.not_true, Bool.false_eq_true, if_false]

/-- LAND_CREATE with room for its object publishes it. -/
theorem createLanding_room (hq : objectQuota s (Handle.fn f.handle) = true)
    (hn : newObj s home (Handle.fn f.handle) 3 (.landing ⟨0, 0, 0, [], [], 0⟩) = some (o, u)) :
    createLanding s home f =
      announce (publish u home o f.agent) home o.hi f.entry f.tag f.agent (issue u o.hi 0) 0 := by
  simp only [createLanding, hq, hn, Bool.not_true, Bool.false_eq_true, if_false]

/-- BCN_CREATE with a free word and room for its slot publishes the slot, and returns the word's number. -/
theorem createBeacon_room {w : Nat} {v : State} (hq : objectQuota s (Handle.fn f.handle) = true)
    (hw : takeWord s (Handle.fn f.handle) = some (w, v))
    (hn : newObj v home (Handle.fn f.handle) 7 (.beacon ⟨w, 0⟩) = some (o, u)) :
    createBeacon s home f =
      announce (publish u home o f.agent) home o.hi f.entry f.tag f.agent (issue u o.hi 0) (BitVec.ofNat 64 w) := by
  simp only [createBeacon, hq, hw, hn, Bool.not_true, Bool.false_eq_true, if_false]

/-- Q_CREATE with room for its queue asks the ferry for the queue's extent (R287). -/
theorem createQueue_room (hok : queueFieldsOk s f = true) (hq : objectQuota s (Handle.fn f.handle) = true)
    (hw : windowQuota s (Handle.fn f.handle) = true)
    (hn : newObj s home (Handle.fn f.handle) 4 (.queue (newQueue s f)) = some (o, u)) :
    createQueue s home f =
      addJob (send u home (ferryStation u (hiIndex o.hi)) (.reserveExtent (nameOf o.hi) (newQueue s f).bwReserved)) home
        ⟨o.hi, .queueCreate, f.entry, f.tag, f.agent⟩ := by
  simp only [createQueue, hok, hq, hw, hn, addJob, Bool.or_self, Bool.not_true, Bool.false_eq_true, if_false]

/-- WEIR_CREATE without publication, with room for the home's node, starts its weir (R163). -/
theorem createWeir_room (hq : objectQuota s (Handle.fn f.handle) = true)
    (hnode : nodeQuota s (Handle.fn f.handle) (newNode s 0 (weirParams f.a f.b f.data) home home 0) home 0 = true)
    (hp : bit f.b 3 = false)
    (hst : startWeir s home (Handle.fn f.handle) { weirParams f.a f.b f.data with publish := none } f.entry f.tag f.agent =
      some (u, o)) :
    createWeir s home f = weirSettled u home o := by
  simp only [createWeir, hq, hnode, hp, hst, Bool.not_true, Bool.false_eq_true, if_false]

/-- FR_CREATE of a launch rule with room for it registers its inputs and subscribes to its engines' loads (R321). -/
theorem createRule_launch {x : Rule} (hx : x = newRule (Handle.fn f.handle) f.a f.b (f.data.getD 0)) (ha : x.action = 0)
    (hok : ruleHandlesOk s (Handle.fn f.handle) x = true) (hq : objectQuota s (Handle.fn f.handle) = true)
    (hrec : recordsFree s home (Handle.fn f.handle) 1 = true)
    (hn : newObj s home (Handle.fn f.handle) 5 (.rule x) = some (o, u)) :
    createRule s home f =
      addJob (subscribeRule (toInputs u home x fun i h =>
          .register h i (x.inputs.getD i ⟨0, 0, 0⟩).threshold (x.inputs.getD i ⟨0, 0, 0⟩).step (nameOf o.hi)) home x true) home
        ⟨o.hi, .ruleCreate x.inputs.length none [], f.entry, f.tag, f.agent⟩ := by
  subst hx
  simp only [createRule, hok, hq, hrec, hn, ha, Bool.or_self, Bool.not_true, Bool.false_eq_true, if_false, if_true,
    Nat.add_zero]

/-- SK_CREATE with room for its keeper and the home's node starts the keeper's weir, and the keeper names it (R351, R368). -/
theorem createKeeper_room {k : Keeper} {ko wo : Obj} {v : State} (hq : objectQuota s (Handle.fn f.handle) 2 = true)
    (hnode : nodeQuota s (Handle.fn f.handle) (newNode s 0 (keeperParams f.a f.b) home home 0) home (2 * bits f.b 8 0) = true)
    (hk : k = newKeeper s f.b (policyOf (f.data.getD 0)))
    (hn : newObj s home (Handle.fn f.handle) 6 (.keeper k) = some (ko, u))
    (hst : startWeir u home (Handle.fn f.handle) { keeperParams f.a f.b with keeper := some (ko.hi, bits f.b 8 0) } f.entry
      f.tag f.agent = some (v, wo)) :
    createKeeper s home f =
      weirSettled (setObj v home (hiIndex ko.hi) { ko with body := .keeper { k with weirHi := wo.hi } }) home wo := by
  subst hk
  simp only [createKeeper, hq, hnode, hn, hst, Bool.not_true, Bool.false_eq_true, if_false]

end Room

/-- Settles O25: the record's own station is the home, and each creation has room there. -/
theorem creationsHere : Obligations.CreationsHere := by
  unfold Obligations.CreationsHere
  intro r s t f
  refine ⟨?counter, ?landing, ?beacon, ?queue, ?weir, ?rule, ?keeper⟩
  case counter =>
    rintro rfl h hq o u hn
    exact exec_createsHere .ctrCreate r s t _ rfl h (createCounter_room hq hn)
  case landing =>
    rintro rfl h hq o u hn
    exact exec_createsHere .landCreate r s t _ rfl h (createLanding_room hq hn)
  case beacon =>
    rintro rfl h hq w v o u hw hn
    exact exec_createsHere .bcnCreate r s t _ rfl h (createBeacon_room hq hw hn)
  case queue =>
    rintro rfl h hok hq hw o u hn
    exact exec_createsHere .qCreate r s t _ rfl h (createQueue_room hok hq hw hn)
  case weir =>
    rintro rfl h hq hnode hp u o hst
    exact exec_createsHere .weirCreate r s t _ rfl h (createWeir_room hq hnode hp hst)
  case rule =>
    rintro rfl h hq hrec x o u hx ha hok hn
    exact exec_createsHere .frCreate r s t _ rfl h (createRule_launch hx ha hok hq hrec hn)
  case keeper =>
    rintro rfl h hq hnode k ko u v wo hk hn hst
    exact exec_createsHere .skCreate r s t _ rfl h (createKeeper_room hq hnode hk hn hst)

/-! ## Forwarded operations (R26, R29, R345) -/

/-- At a station to which no object migrates, that is not the home of an operation's object, the operation is forwarded, and
refused with RETRY once it has been forwarded twice. -/
theorem opArrives_elsewhere (s : State) (n src : Nat) (f : FwdOp) (hc : f.op.creates = false)
    (hl : leaving s n (Handle.index f.handle) = false) (hi : (station s n).incoming = none)
    (hh : homeOf s n (Handle.index f.handle) ≠ n) :
    opArrives s n src f = if 2 ≤ f.hops then refuse (bump s 0x210501) n f .retry
      else send s n (homeOf s n (Handle.index f.handle)) (.fwdOp { f with hops := f.hops + 1 }) := by
  simp [opArrives, hc, hl, hi, hh]

/-- At its object's home, to which no object migrates, a forwarded operation is executed as one at its home. -/
theorem opArrives_home (s : State) (n src : Nat) (f : FwdOp) (hc : f.op.creates = false)
    (hl : leaving s n (Handle.index f.handle) = false) (hi : (station s n).incoming = none)
    (hh : homeOf s n (Handle.index f.handle) = n) : opArrives s n src f = opAtHome s n f := by
  simp [opArrives, hc, hl, hi, hh]

/-- A creation is executed where it arrives. -/
theorem opArrives_creates (s : State) (n src : Nat) (f : FwdOp) (hc : f.op.creates = true) :
    opArrives s n src f = homeExec s n f := if_pos hc

/-- A forwarded operation that its station takes arrives there. -/
theorem exec_forwardedOperation (s : State) (src dst : Nat) (f : FwdOp) (rest : List Msg)
    (h : TakesMsg s src dst (.fwdOp f) rest) :
    exec (.forwardedOperation src dst) s = .next (settled (opArrives (taken s dst rest) dst src f)) := by
  show execForwardedOperation src dst s = _
  exact arrives_takes s src dst _ rest _ _ 0 rfl h rfl

/-- Settles O28, by the station that the operation reaches: its object's home, the home chosen for a creation, or another. -/
theorem forwardedOperations : Obligations.ForwardedOperations := by
  unfold Obligations.ForwardedOperations
  intro s src dst f rest h hi
  rw [exec_forwardedOperation s src dst f rest h]
  refine ⟨?atHome, ?creation, ?elsewhere⟩
  case atHome =>
    intro o hc hx hh hm
    have ⟨_, _, _, _, hl, _⟩ := hm
    rw [opArrives_home _ _ _ _ hc hl hi hh, opAtHome_meets _ _ _ _ hm hc hx]
  case creation =>
    intro hc hf
    rw [opArrives_creates _ _ _ _ hc, homeExec_creates _ _ _ hc hf]
  case elsewhere =>
    rintro home hc hl rfl hne
    rw [opArrives_elsewhere _ _ _ _ hc hl hi hne]
    refine ⟨fun hhops => ?_, fun hhops => ?_⟩
    · rw [if_neg (by omega)]
    · rw [if_pos hhops]; rfl

/-! ## Chart commits (R28, R224, R344) -/

/-- A message on the course leaves every station as it is. -/
@[simp] theorem station_send (s : State) (a b : Nat) (m : MsgBody) (n : Nat) : station (send s a b m) n = station s n := rfl

/-- A station that changes its replica of the chart has the migration to it as before. -/
@[simp] theorem incoming_chartSet (s : State) (n index : Nat) (e : Option ChartEntry) :
    (station (chartSet s n index e) n).incoming = (station s n).incoming := by
  simp [chartSet]

section Commit

variable {s t : State} {n index home : Nat} (src : Nat)

/-- A commit with move_state 1 changes the replica, and the kept reports go on. -/
theorem commitArrives_moving (ht : t = chartSet s n index (some ⟨1, home⟩)) :
    commitArrives s n src index 1 home = releaseReports t n index := by
  subst ht
  simp [commitArrives]

/-- A last commit, with move_state 0, does the same at a station that the object does not leave. -/
theorem commitArrives_settled (ht : t = chartSet s n index (some ⟨0, home⟩)) (hl : leaving t n index = false) :
    commitArrives s n src index 0 home = releaseReports t n index := by
  subst ht
  simp [commitArrives, hl]

/-- A last commit that names another home has the old home let the object go, its load subscriptions given back. -/
theorem commitArrives_oldHome (ht : t = chartSet s n index (some ⟨0, home⟩)) (hl : leaving t n index = true)
    (hne : home ≠ n) :
    commitArrives s n src index 0 home =
      releaseReports (onStation (dropObj (unsubscribed t n index) n index) n fun st => { st with outgoing := none }) n
        index := by
  subst ht
  simp [commitArrives, hl, hne]

/-- The journaled commit is answered with FLUSH at a station to which no object migrates. -/
theorem commitArrives_journaled (ht : t = chartSet s n index (some ⟨2, home⟩)) (hi : (station s n).incoming = none) :
    commitArrives s n src index 2 home =
      releaseReports (send t n src (.flush (nameOf (handleHi 0 0 0 index)))) n index := by
  subst ht
  simp [commitArrives, hi]

end Commit

/-- A commit that reaches its station takes effect there without waking it (R571). -/
theorem exec_chartCommit (s : State) (src dst index move home : Nat) (j : Bool) (rest : List Msg)
    (h : ReachesMsg s src dst (.chartCommit index move home j) rest) :
    exec (.chartCommit src dst) s = .next (settled (commitArrives { s with course := rest } dst src index move home)) := by
  show execChartCommit src dst s = _
  exact arrives_asleep s src dst _ rest _ _ 3 rfl h rfl

/-- Settles O30, by the move_state of the commit. -/
theorem chartCommits : Obligations.ChartCommits := by
  unfold Obligations.ChartCommits
  refine ⟨?commit, ?clear⟩
  case commit =>
    intro s t src dst index move home j rest h ht
    rw [exec_chartCommit s src dst index move home j rest h]
    refine ⟨?moving, ?settled, ?oldHome, ?journaled⟩
    case moving =>
      rintro rfl
      rw [commitArrives_moving src ht]
    case settled =>
      rintro rfl hl
      rw [commitArrives_settled src ht hl]
    case oldHome =>
      rintro rfl hl hne
      rw [commitArrives_oldHome src ht hl hne]
    case journaled =>
      rintro rfl hi
      rw [commitArrives_journaled src ht hi]
  case clear =>
    intro s src dst index rest h
    show execChartCommit src dst s = _
    exact arrives_asleep s src dst _ rest _ _ 3 rfl h rfl

end Sys2Proof.Machine
end

/-!
PROOFS of functions, partitions and isolation: an operation that waits on its way from its entry station, what a station takes
next, and the step of the whole machine.
-/

section
namespace Sys2Proof.Laws.Answers

/-- Every command answers so: one lemma for each constructor, in the order in which `Instr` lists them. -/
theorem answers (i : Instr) : Statement i :=
  Instr.casesOn (motive := Statement) i
    nop cancel destroy ctrCreate ctrAdd ctrSub ctrSet ctrRead ctrAcquire ctrWaitGe weirCreate weirArrive weirWait
    weirArriveWait weirRead weirPolicy landCreate landExpect landWait landRead landSeal landRenew qCreate qPush qPop
    qMark qRewind qRelease qToll qRead qPolicy frCreate frArm frDisarm frRead loadReport skCreate skReport skRead
    skExport skImport skPolicy bcnCreate bcnWrite bcnRead beaconRead apertureError forwardedOperation
    operationResponse chartCommit wakeRequest withdrawal waitTimeout pushMessage pushCreditReturn beaconUpdate
    beaconUpdateAck weirSetup setupAcknowledgement combinedArrival epochCompletion weirSubscribe subscribeReply
    teardown teardownAck hintOverdue hintMax landingReport reportCredit sealDeposit sealRelease sealDiscard
    sealRegister freeNotice idleTimeout spillSegment spillAccepted spillRefused spillRetry refillRequest refillSegment
    reserveExtent extentReserved releaseExtent ferryIssue xiResponse ferrySlow compactionMove shadowRecord
    shadowRecordWritten register feedRegister registered activate deactivate consume consumeDormant releaseWatch
    released met lapsed feedPush pushed launch launchAnswer arriveAction arriveRetry loadSubscribe digestPeriod digest
    migrateWindowEnd migrationCopy copyAccepted rebind rebindAck migrationCommit flush forwardDone caravanSend ack
    ackDue retxTimeout credit resync bind bindReply bindRetry weirUp weirDown op reply tokens tokenAck bridgeOpSend
    bridgeTokensSend linkReady linkNotReady linkLostTimeout read write enable disable shareWrite drainStepDone
    flightWaitEnd sliceDrainDone heartbeatRead partitionFreeze partitionReady partitionFault interfaceReset
    interfaceResetAck interfaceResetTimeout captureEntry captureLimit fence fenceAck fenceTimeout unfence unfenceAck
    prstAck partitionResetTimeout reset clearOos engineReset mcWatchdogExpiry restart mcResumed mctpPacket
    setEndpointId getEndpointId getEndpointUuid getMctpVersionSupport getMessageTypeSupport
    getVendorDefinedMessageSupport mpPrivateRead ibiAnswer ibiRetry claim claimWindowEnd renew release handover accept
    leaseExpiry handoverDeadline subscribe event eventAck eventSend eventRetry unlock unlockInstruction lock
    lockInstruction drain test return_ powerOff powerOn serviceStepDone serviceStepTimeout clear aonResetRelease
    aonReset clamp fcAckRise fcClockLost pdAck pdAckTimeout entropyWord entropyError entropyRetry dozeEntry
    stationWake towpathHoldExpiry scrubBurst courseReplay calibrationWindow extentReleased mcRestartTimeout
    clampRelease channelCreditReturn occupancySample prstAckFall

end Sys2Proof.Laws.Answers

namespace Sys2Proof.Machine

/-! ## A waiting operation leaves its entry station (R68, R147) -/

/-- The operations that wait at the home of their object take a waiter record and go there. -/
theorem proceed_waits (op : Opcode) (r : OpRec) (s : State)
    (ho : op ∈ ([.ctrAcquire, .ctrWaitGe, .landWait, .qPop, .qToll] : List Opcode)) :
    op.waits = true ∧ proceed s (admOf op r) = toHome s (admOf op r) := by
  simp only [List.mem_cons, List.not_mem_nil, or_false] at ho
  rcases ho with rfl | rfl | rfl | rfl | rfl <;> exact ⟨rfl, rfl⟩

/-- With room for its waiter record, an operation that waits leaves with the record taken. -/
theorem toHome_waitRoom (op : Opcode) (r : OpRec) (s : State) (hw : op.waits = true) (hroom : WaitRoom r s) :
    toHome (admitted r s) (admOf op r) =
      forwardAdm (withWaiter op r s (homeOf (admitted r s) r.station (Handle.index r.handle))) (admOf op r)
        (homeOf (admitted r s) r.station (Handle.index r.handle)) (some (waitId r s)) :=
  (if_pos hw).trans (if_pos hroom)

/-- Without, it is refused with QUOTA. -/
theorem toHome_noWaitRoom (op : Opcode) (r : OpRec) (s : State) (hw : op.waits = true) (hroom : ¬ WaitRoom r s) :
    toHome (admitted r s) (admOf op r) =
      answered (countRefusal (admitted r s) r.fnStamp.toNat .quota) r (plain .quota) :=
  (if_pos hw).trans (if_neg hroom)

/-- An operation whose waiter record is taken leaves for a home elsewhere, the record knowing its transaction's tag. -/
theorem forwardAdm_waiting (op : Opcode) (r : OpRec) (s : State) (home : Nat) (h : home ≠ r.station) :
    forwardAdm (withWaiter op r s home) (admOf op r) home (some (waitId r s)) =
      send (waiting op r s home) r.station home (.fwdOp (waitingOp op r s home)) := if_neg h

/-- Settles O4: a ready record that waits proceeds to its object's home, by the room for its waiter record. -/
theorem waitsLeave : Obligations.WaitsLeave := by
  unfold Obligations.WaitsLeave
  rintro op r s _ hop hr rfl
  obtain ⟨hw, hp⟩ := proceed_waits op r (admitted r s) hop
  rw [exec_recordCommand, submit_ready op r s hr, hp]
  refine ⟨fun hroom hne => ?_, fun hroom => ?_⟩
  · rw [toHome_waitRoom op r s hw hroom, forwardAdm_waiting op r s _ hne]
  · rw [toHome_noWaitRoom op r s hw hroom]

/-! ## The operation that a station takes next (R77) -/

/-- The first element that a test accepts is found behind those that it does not accept. -/
theorem takeFirst_append {α : Type} (p : α → Bool) (x : α) (after : List α) (hx : p x = true) (before : List α)
    (hb : ∀ e ∈ before, p e = false) : takeFirst p (before ++ x :: after) = some (x, before ++ after) := by
  induction before with
  | nil => simp [takeFirst, hx]
  | cons e before ih =>
    obtain ⟨he, hb⟩ := List.forall_mem_cons.1 hb
    simp [takeFirst, he, ih hb]

/-- In a list of which a test accepts none, none is found. -/
theorem takeFirst_none {α : Type} (p : α → Bool) (l : List α) (hl : ∀ e ∈ l, p e = false) : takeFirst p l = none := by
  induction l with
  | nil => rfl
  | cons e l ih =>
    obtain ⟨he, hl⟩ := List.forall_mem_cons.1 hl
    simp [takeFirst, he, ih hl]

section TakeNext

variable {s : State} {n : Nat} {path : Bool} (hactive : (station s n).state = .active) (htow : towpathActs s n = false)
include hactive htow

/-- A station takes the first operation of the path in its budget queue that waits for none in the excess buffer. -/
theorem takeNext_budget (x : Adm) (before after : List (Nat × Adm)) (hq : (station s n).budget = before ++ (0, x) :: after)
    (hx : remotePath s x = path) (hb : ∀ e ∈ before, e.1 ≠ 0 ∨ remotePath s e.2 ≠ path) :
    takeNext s n path = takeWaiting (onStation s n fun st => { st with
      budget := before ++ after, idleSince := s.clock.fc }) x := by
  have hfirst : takeFirst (fun e : Nat × Adm => e.1 == 0 && remotePath s e.2 == path) (station s n).budget =
      some ((0, x), before ++ after) := by
    rw [hq]
    exact takeFirst_append _ _ _ (by simp [hx]) _ fun e he => by simpa [Decidable.imp_iff_not_or] using hb e he
  simp only [takeNext, hactive, htow, hfirst, bne_self_eq_false, Bool.or_false, Bool.false_eq_true, if_false, onStation]

/-- Where the budget queue holds no operation of the path, a station takes the first of the excess buffer. -/
theorem takeNext_excess (x : Adm) (before after : List Adm) (hq : (station s n).excess = before ++ x :: after)
    (hx : remotePath s x = path) (hb : ∀ e ∈ before, remotePath s e ≠ path)
    (hnone : ∀ b ∈ (station s n).budget, remotePath s b.2 ≠ path) :
    takeNext s n path = takeWaiting (onStation s n fun st => { st with
      excess := before ++ after, idleSince := s.clock.fc
      budget := st.budget.map fun b => if sameTrain b.2 x then (b.1 - 1, b.2) else b }) x := by
  have hbudget : takeFirst (fun e : Nat × Adm => e.1 == 0 && remotePath s e.2 == path) (station s n).budget = none :=
    takeFirst_none _ _ fun e he => by simp [hnone e he]
  have hwaits : ((station s n).budget.filter fun b => remotePath s b.2 == path) = [] :=
    List.filter_eq_nil_iff.2 fun b hm => by simp [hnone b hm]
  have hfirst : takeFirst (fun e => remotePath s e == path && true) (station s n).excess = some (x, before ++ after) := by
    rw [hq]
    exact takeFirst_append _ _ _ (by simp [hx]) _ fun e he => by simp [hb e he]
  simp only [takeNext, hactive, htow, hbudget, hwaits, List.isEmpty_nil, Bool.true_or, hfirst, bne_self_eq_false,
    Bool.or_false, Bool.false_eq_true, if_false, onStation]

end TakeNext

/-! ## Steps -/

/-- With no command waiting, a step is a tick. -/
theorem step_empty (s : State) (h : s.pending = []) : step s = tick s := by
  simp only [step, h]

/-- A tick without the fast-clock ports is an always-on cycle. -/
theorem tick_ac (s : State) (h : portsLive s = false) :
    tick s = .next (settled { s with clock := { s.clock with ac := s.clock.ac + 1 } }) := by
  simp only [tick, conclude, h, Bool.false_eq_true, if_false]

/-- A tick with them is a fast cycle, in which every station takes an operation of each path. -/
theorem tick_fc (s : State) (h : portsLive s = true) :
    tick s = .next (settled (s.stations.foldl (fun t p => takeNext (takeNext t p.1 false) p.1 true) (passFc s 1))) := by
  simp only [tick, conclude, h, if_true]

/-- Settles O55: a command answers with a next state, a command at the front is the step, and of the operations that wait at
a station the first of its path in the budget queue goes before the excess buffer. -/
theorem stepTakesFront : Obligations.StepTakesFront := by
  unfold Obligations.StepTakesFront
  refine ⟨fun i s => ?safe, fun c rest s => rfl, fun s h => ⟨fun hp => ?ac, fun hp => ?fc⟩, fun s n path ha ht =>
    ⟨takeNext_budget ha ht, takeNext_excess ha ht⟩⟩
  case safe => exact (Laws.Answers.answers i s).elim (⟨_, ·⟩) fun ⟨_, h⟩ => ⟨_, h⟩
  case ac => rw [step_empty s h, tick_ac s hp]
  case fc => rw [step_empty s h, tick_fc s hp]

end Sys2Proof.Machine
end

/-!
PROOFS of the dictionary and of functions: reads and writes of entries and of the window's registers, and the functions that
an owner enables, disables and drains.
-/

section
namespace Sys2Proof.Machine

/-! ## Requests (R489, R491, R500) -/

/-- A request of a host that may speak is served in the step. -/
theorem fromHost_admits (s : State) (host : Nat) (f : State → State) (h : Admits host s) :
    fromHost s host f = .next (settled (f s)) := by
  obtain ⟨hspeaks, _⟩ := h
  simp only [fromHost, conclude, hspeaks, if_true]

/-- A read of an entry is served. -/
theorem exec_readEntry (s : State) (q : HostReq) (e : EntryRef) (h : Admits q.host s) :
    exec (.read q (.entry e)) s = .next (settled (reads s q e)) :=
  fromHost_admits s q.host (fun t => reads t q e) h

/-- A write of an entry is served. -/
theorem exec_writeEntry (s : State) (q : HostReq) (e : EntryRef) (data : List Byte) (h : Admits q.host s) :
    exec (.write q (.entry e) data) s = .next (settled (writes s q e data)) :=
  fromHost_admits s q.host (fun t => writes t q e data) h

/-- A read that is taken answers with the entry's type and bytes. -/
theorem reads_ok (s : State) (q : HostReq) (e : EntryRef) (code : Nat) (l : List Byte) (h : Admits q.host s)
    (hr : readEntry (asked s q.host 0x01 (Window.access e q.epoch [])) e = (.ok, code, l)) :
    reads s q e = answerHost (asked s q.host 0x01 (Window.access e q.epoch [])) q.host 0x01 .ok
      (bytesLE 1 code ++ bytesLE 1 0 ++ bytesLE 2 l.length ++ l) := by
  simp only [reads, admitRequest_admits _ _ _ _ _ _ h, hr, if_true]

section Write

variable {s t : State} {q : HostReq} {e : EntryRef} {data : List Byte} {row : EntryRow} (h : Admits q.host s)
  (ht : t = asked s q.host 0x02 (Window.access e q.epoch data)) (hrow : writeRow t q e data = .inr row)
include h ht hrow

/-- A write that has its turn, and the effect of its entry, is answered OK. -/
theorem writes_ok {u : State} (hturn : FnTurn t e.index.toNat) (hw : entryWrites t q row e data = (u, some .ok)) :
    writes s q e data = wrote q u := by
  simp only [writes, admitRequest_admits _ _ _ _ _ _ h, ← ht, hrow, Bool.and_eq_false_imp.2 hturn,
    Bool.false_eq_true, if_false, hw, wrote]

/-- A write that has its turn, and whose answer comes later, has the effect of its entry. -/
theorem writes_unanswered {u : State} (hturn : FnTurn t e.index.toNat) (hw : entryWrites t q row e data = (u, none)) :
    writes s q e data = u := by
  simp only [writes, admitRequest_admits _ _ _ _ _ _ h, ← ht, hrow, Bool.and_eq_false_imp.2 hturn,
    Bool.false_eq_true, if_false, hw]

/-- A write to a function while an enable waits for its key waits its turn (R93). -/
theorem writes_queued (hfn : (entryFn e.index.toNat).isSome = true) (hbusy : fnBusy t = true) :
    writes s q e data = { t with fnQueue := t.fnQueue ++ [(q, e, data)] } := by
  simp only [writes, admitRequest_admits _ _ _ _ _ _ h, ← ht, hrow, hfn, hbusy, Bool.and_self, if_true]

end Write

/-- A read of a register of the window completes with its value, where the engine is not in always-on reset (R500). -/
theorem windowReads_powered (s : State) (k : BitVec 9) (h : s.power.phase ≠ 1) :
    windowReads s k = driven s (.windowAck (BitVec.ofNat 32 (windowRead s (4 * k.toNat)))) := if_neg h

/-- A write of one completes its handshake, and then takes effect (R545). -/
theorem windowStores_powered (s : State) (k : BitVec 9) (v : BitVec 32) (h : s.power.phase ≠ 1) :
    windowStores s k v = windowWrite (driven s (.windowAck 0)) (4 * k.toNat) v := if_neg h

/-! ## Per-function entries of one byte (R76, R88, R92) -/

/-- A per-function entry of one byte. -/
def fnByte (f : BitVec 12) (sub : Nat) : EntryRef := ⟨BitVec.ofNat 16 (0x3000 + f.toNat), BitVec.ofNat 8 sub, 0, 1⟩

/-- A row takes a byte: it is of one byte that a host may read and write, and the byte lies in its range. -/
abbrev ByteRow (row : EntryRow) (v : Nat) : Prop :=
  row.right = .rw ∧ row.blob = false ∧ row.size = 1 ∧ row.lo ≤ v ∧ v ≤ row.hi ∧ v < 256

/-- The index of a per-function entry names its function (Table 15.3). -/
@[simp] theorem entryFn_fnByte (f : BitVec 12) (sub : Nat) : entryFn (fnByte f sub).index.toNat = some f.toNat := by
  have hf := f.isLt
  have hindex : (fnByte f sub).index.toNat = 0x3000 + f.toNat := by
    simp only [fnByte, BitVec.toNat_ofNat]; omega
  rw [hindex, entryFn, if_pos (by omega), Nat.add_sub_cancel_left]

/-- Its subindex names the entry. -/
theorem subindex_fnByte (f : BitVec 12) {sub : Nat} (h : sub < 256) : (fnByte f sub).subindex.toNat = sub := by
  simp only [fnByte, BitVec.toNat_ofNat]; omega

/-- A byte reads back as it was written. -/
theorem ofBytesLE_byte {v : Nat} (h : v < 256) : ofBytesLE (bytesLE 1 v) = v := by
  simp only [bytesLE, ofBytesLE, BitVec.toNat_ofNat]; omega

section FnByte

variable {s t u : State} {q : HostReq} {f : BitVec 12} {sub v : Nat} {row : EntryRow}
  (hsub : sub < 256) (hrow : rowOf fnRows sub = some row) (hbyte : ByteRow row v)
include hsub hbyte

/-- A byte that an entry's row takes is the entry's to take. -/
theorem entryWrites_fnByte : entryWrites t q row (fnByte f sub) (bytesLE 1 v) = fnWrites t q f.toNat sub v := by
  obtain ⟨_, hblob, _, hlo, hhi, hv⟩ := hbyte
  have hrange : ¬ (row.type ≠ .handle ∧ (v < row.lo ∨ row.hi < v)) := by omega
  simp only [entryWrites, hblob, Bool.false_eq_true, if_false, ofBytesLE_byte hv, if_neg hrange, entryFn_fnByte,
    subindex_fnByte f hsub]

include hrow

/-- The owner's write of such a byte reaches the entry's row. -/
theorem writeRow_fnByte (ho : ownerRefusal t q = none) : writeRow t q (fnByte f sub) (bytesLE 1 v) = .inr row := by
  obtain ⟨hright, hblob, hsize, _⟩ := hbyte
  have hentry : entryRow t (fnByte f sub).index.toNat (fnByte f sub).subindex.toNat = some row := by
    simp only [entryRow, entryFn_fnByte, subindex_fnByte f hsub, hrow]
  have hlength : (lengthOk row (fnByte f sub).offset (fnByte f sub).length &&
      (bytesLE 1 v).length == (fnByte f sub).length) = true := by
    simp [lengthOk, hblob, hsize, fnByte, bytesLE]
  simp [writeRow, ho, hentry, hright, hlength]

variable (h : OwnerWrites q (0x3000 + f.toNat) sub 1 v s t) (hidle : fnBusy t = false)
include h hidle

/-- The owner's write of a byte that its function's entry takes is answered OK. -/
theorem fnByte_ok (hw : fnWrites t q f.toNat sub v = (u, some .ok)) :
    fromHost s q.host (fun t => writesNumber t q (0x3000 + f.toNat) sub 1 v) = .next (settled (wrote q u)) := by
  have ⟨_, _, ho⟩ := h
  exact writesNumber_ok q _ sub 1 v s t u row h (fun _ => hidle) (writeRow_fnByte hsub hrow hbyte ho)
    ((entryWrites_fnByte hsub hbyte).trans hw)

/-- One whose answer comes later has the effect of its entry. -/
theorem fnByte_unanswered (hw : fnWrites t q f.toNat sub v = (u, none)) :
    fromHost s q.host (fun t => writesNumber t q (0x3000 + f.toNat) sub 1 v) = .next (settled u) := by
  have ⟨ha, ht, ho⟩ := h
  rw [fromHost_admits _ _ _ ha]
  exact congrArg conclude (writes_unanswered ha ht (writeRow_fnByte hsub hrow hbyte ho) (fun _ => hidle)
    ((entryWrites_fnByte hsub hbyte).trans hw))

end FnByte

/-! ## Enable, disable and shares (R76, R88, R461) -/

/-- An enable that may be made now waits for its key. -/
theorem enableFn_waits (t : State) (q : HostReq) (f : Nat) (hstate : (fnOf t f).state = .disabled)
    (hnone : (fnOf t f).enabling = none) (hgen : (fnOf t f).generation ≠ 0xFFFFFFFF)
    (hpart : (partAt t (fnPartition t f)).state = .ready) (hfits : enableFits t f = true) (hreset : t.power.resetting = false)
    (hoos : t.power.engineOos = false) (hdebug : t.debug ≠ .zeroising) :
    enableFn t q f = (wantEntropy (setFn t f { fnOf t f with enabling := some q }) (.fnKey f), none) := by
  simp [enableFn, hstate, hnone, hgen, enableOpen, hpart, hfits, hreset, hoos, hdebug]

/-- A disable of an enabled function begins its drain. -/
theorem disables_enabled (t : State) (f : Nat) (h : (fnOf t f).state = .enabled) :
    disables t f = (beginDrain t f false, some .ok) := if_pos h

/-- The state once a share of a function is written: the function's buckets are full again. -/
def shareWritten (t : State) (f sub v : Nat) : State :=
  (setFnSetting t f sub v).stations.foldl
    (fun u p => onStation u p.1 fun st => { st with buckets := tdel st.buckets f }) (setFnSetting t f sub v)

/-- A share that fits is written. -/
theorem shareWrites_fits (t : State) (f v : Nat) (burst : Bool)
    (h : sharesFit t f (if burst then fnSetting t f 0x04 else v) (if burst then v else fnSetting t f 0x05)
      (fnOf t f).live = true) :
    shareWrites t f (if burst then 0x05 else 0x04) v = (shareWritten t f (if burst then 0x05 else 0x04) v, some .ok) := by
  cases burst <;> exact if_pos h

/-! ## The drain of a function (R310, R457, Table 14.5) -/

section Drain

variable {s : State} {f : Nat} {d : FnDrain} (hd : (fnOf s f).drain = some d)
include hd

/-- D1 of a function that its owner disables ends: its waits are purged. -/
theorem drainStep_purges (h : d.step = 1) (hr : d.forReset = false) :
    drainStep s f = purgeFn (setDrain s f fun x => { x with step := 2 }) f := by
  simp [drainStep, hd, h, hr]

/-- D2 ends with every wait's answer driven: its migrations are resolved. -/
theorem drainStep_resolves (h : d.step = 2) (hp : purged s f d = true) :
    drainStep s f = resolveFn (setDrain s f fun x => { x with step := 3 }) f := by
  simp [drainStep, hd, h, hp]

/-- D3 ends with no migration left: its objects are destroyed. -/
theorem drainStep_destroys (h : d.step = 3) (hj : (s.journal.any fun p => p.2.1 == f) = false) :
    drainStep s f = destroyNext (setDrain s f fun x => { x with step := 4 }) f destroyOrder := by
  simp only [drainStep, hd, h, hj, Bool.false_eq_true, if_false]

/-- D4 ends with no object left: the slices drain. -/
theorem drainStep_slices (h : d.step = 4) (hx : destroyed s f = true) :
    drainStep s f = setDrain s f fun x => { x with step := 5, slices := s.slices.map (·.1) } := by
  simp [drainStep, hd, h, hx]

/-- D5 ends as the last slice has reported. -/
theorem drainStep_flight (h : d.step = 5) (hs : d.slices = []) :
    drainStep s f = setDrain s f fun x => { x with step := 6 } := by
  simp [drainStep, hd, h, hs]

/-- D6 ends with the flight wait: the key is gone. -/
theorem drainStep_key (h : d.step = 6) (hf : d.flightDone = true) :
    drainStep s f = setFn (setDrain s f fun x => { x with step := 7 }) f
      { fnOf (setDrain s f fun x => { x with step := 7 }) f with key := none } := by
  simp [drainStep, hd, h, hf]

/-- D7 ends: the function is closed. -/
theorem drainStep_closes (h : d.step = 7) : drainStep s f = closeFn s f := by
  simp [drainStep, hd, h]

/-- The flight wait of a drain ends at its deadline. -/
theorem flightEnds_drain : flightEnds s f =
    setDrain (passToAc s (d.began + s.gelari.landingFlightAc)) f fun x => { x with flightDone := true } := by
  simp only [flightEnds, hd]

/-- A slice that holds no tag of the function reports in D5. -/
theorem sliceReports_quiet (j : Nat) (h : d.step = 5) (hj : d.slices.contains j = true) (hq : sliceQuiet s j f = true) :
    sliceReports s j f = setDrain (sliceDrained s j f) f fun x => { x with slices := x.slices.filter (· != j) } := by
  simp only [sliceReports, hd]
  exact if_pos ⟨h, hj, hq⟩

end Drain

/-- Settles O48, by the command: reads and writes of entries and of the window's registers, functions, and their drains. -/
theorem dictionaryAndFunctions : Obligations.DictionaryAndFunctions := by
  unfold Obligations.DictionaryAndFunctions
  refine ⟨?read, ?write, ?registers, ?functions, ?drains⟩
  case read =>
    rintro s _ q e code l h rfl hr
    rw [exec_readEntry s q e h, reads_ok s q e code l h hr]
  case write =>
    intro s t q e data row h ht hrow
    rw [exec_writeEntry s q e data h]
    refine ⟨fun u hturn hw => ?_, fun hfn hbusy => ?_⟩
    · rw [writes_ok h ht hrow hturn hw]
    · rw [writes_queued h ht hrow hfn hbusy]
  case registers =>
    intro s q k hp
    exact ⟨congrArg conclude (windowReads_powered s k hp), fun data => congrArg conclude (windowStores_powered s k _ hp)⟩
  case functions =>
    intro s t q f hidle
    refine ⟨?enable, ?disable, ?share⟩
    case enable =>
      intro h hstate hnone hgen hpart hfits hreset hoos hdebug
      exact fnByte_unanswered (by decide) rfl (by decide) h hidle
        (enableFn_waits t q f.toNat hstate hnone hgen hpart hfits hreset hoos hdebug)
    case disable =>
      intro h hstate
      exact fnByte_ok (by decide) rfl (by decide) h hidle (disables_enabled t f.toNat hstate)
    case share =>
      intro burst v h hfit
      have hw := shareWrites_fits t f.toNat v.toNat burst hfit
      cases burst <;>
        exact fnByte_ok (by decide) rfl ⟨rfl, rfl, rfl, Nat.zero_le _, Nat.le_of_lt_succ v.isLt, v.isLt⟩ h hidle hw
  case drains =>
    intro s f d hd
    refine ⟨fun h hr => ?purge, fun h hp => ?resolve, fun h hj => ?destroy, fun h hx => ?slices, fun h hs => ?flight,
      fun h hf => ?key, fun h => ?close, ?flightEnd, fun j h hj hq => ?slice⟩
    case purge => exact congrArg conclude (drainStep_purges hd h hr)
    case resolve => exact congrArg conclude (drainStep_resolves hd h hp)
    case destroy => exact congrArg conclude (drainStep_destroys hd h hj)
    case slices => exact congrArg conclude (drainStep_slices hd h hx)
    case flight => exact congrArg conclude (drainStep_flight hd h hs)
    case key => exact congrArg conclude (drainStep_key hd h hf)
    case close => exact congrArg conclude (drainStep_closes hd h)
    case flightEnd => exact congrArg conclude (flightEnds_drain hd)
    case slice => exact congrArg conclude (sliceReports_quiet hd j h hj hq)

end Sys2Proof.Machine
end

/-!
PROOFS of the operation interface: what an entry station serves itself, the accesses to its aperture, beacon slots, DESTROY, the
messages that answer operations and end waits, the push channel, and the states that the closing of a step leaves alone.
-/

section
namespace Sys2Proof.Machine

/-! ## Check 8 and an operation's turn (R45, R75 to R78) -/

/-- A record that passes checks 1 to 7 meets check 8. -/
theorem submit_passes (op : Opcode) (r : OpRec) (s : State) (h : Passes op r s) :
    submit s op r = admitShare (noticed r s) (admOf op r) r.busy := by
  obtain ⟨hreaches, hmine, hchecks⟩ := h
  rw [submit_reaches op r s hreaches, acceptOp_mine op r s hmine, hchecks]

/-- A record that is ready acts. -/
theorem exec_ready (op : Opcode) (r : OpRec) (s : State) (h : Ready op r s) :
    exec (recordCommand op r) s = conclude (proceed (admitted r s) (admOf op r)) := by
  rw [exec_recordCommand, submit_ready op r s h, conclude]

/-- A record is turned away with its answer alone: only a seal that came over a link has an entry to free. -/
theorem turnAway_record (s : State) (op : Opcode) (r : OpRec) (st : Status) :
    turnAway s (admOf op r) st = refuseAdm s (admOf op r) st := by
  cases op <;> rfl

section Share

variable {s : State} {x : Adm} {busy : Bool}

/-- With a whole operation in the bucket, an operation that must wait its turn joins the budget queue. -/
theorem admitShare_budget (hb : 256 ≤ bucketNow s x.n x.fn) (hw : waitsTurn s x busy = true) :
    admitShare s x busy = onStation (takeBucket s x.n x.fn) x.n fun st => { st with
      budget := st.budget ++ [(((station s x.n).excess.filter (sameTrain x)).length, x)] } := by
  simp only [admitShare, hb, hw, if_true]

/-- With less in the bucket, a full excess buffer turns the operation away. -/
theorem admitShare_full (hb : bucketNow s x.n x.fn < 256) (hf : 64 ≤ (station s x.n).excess.length) :
    admitShare s x busy = turnAway (bumpFn s x.fn 0x15) x .retry := by
  simp only [admitShare, Nat.not_le.2 hb, hf, if_true, if_false]

/-- One with room takes an operation that must wait its turn, or for whose path another waits there. -/
theorem admitShare_excess (hb : bucketNow s x.n x.fn < 256) (hf : (station s x.n).excess.length < 64)
    (hw : waitsTurn s x busy = true ∨ ∃ e ∈ (station s x.n).excess, remotePath s e = remotePath s x) :
    admitShare s x busy = onStation s x.n fun st => { st with excess := st.excess ++ [x] } := by
  have hwaits : (waitsTurn s x busy || (station s x.n).excess.any fun e => remotePath s e == remotePath s x) = true := by
    simpa only [Bool.or_eq_true, List.any_eq_true, beq_iff_eq] using hw
  simp only [admitShare, Nat.not_le.2 hb, Nat.not_le.2 hf, hwaits, if_true, if_false, onStation]

/-- Where nothing holds it back, the operation goes on at once. -/
theorem admitShare_onward (hb : bucketNow s x.n x.fn < 256) (hf : (station s x.n).excess.length < 64)
    (hw : waitsTurn s x busy = false) (he : ∀ e ∈ (station s x.n).excess, remotePath s e ≠ remotePath s x) :
    admitShare s x busy = proceed s x := by
  have hnone : ((station s x.n).excess.any fun e => remotePath s e == remotePath s x) = false :=
    List.any_eq_false.2 fun e hm => by simpa only [beq_iff_eq] using he e hm
  simp only [admitShare, Nat.not_le.2 hb, Nat.not_le.2 hf, hw, hnone, Bool.or_self, Bool.false_eq_true, if_false]

end Share

/-! ## LOAD_REPORT and CANCEL (R105, R152, R331) -/

/-- LOAD_REPORT of an engine sets its load. -/
theorem loadAdm_engine (s : State) (x : Adm) (h : agentAux x.agent = false) :
    loadAdm s x = answerAdm (setLoad s x.n x.agent (bits x.a 3 0)) x ⟨.ok, 0, 0, none, none⟩ := by
  simp only [loadAdm, h, Bool.false_eq_true, if_false]

/-- A change of a waiter record leaves its station's replica of the chart alone. -/
@[simp] theorem homeOf_setWaiter (s : State) (n i : Nat) (w : Waiter) : homeOf (setWaiter s n w) n i = homeOf s n i := by
  simp [homeOf, chartAt, setWaiter, onWaiters]

/-- The withdrawal of a wait at an eddy names the eddy. -/
theorem sendWithdrawal_eddy (s : State) (n home ref : Nat) (w : Waiter) (h : w.place = .eddy home ref) :
    sendWithdrawal s n w = send s n (homeOf s n (Handle.index w.handle)) (withdrawMsg n w ref) := by
  simp only [sendWithdrawal, h]

section Cancel

variable {s : State} {x : Adm} {w : Waiter}

/-- A CANCEL that names no wait is STALE. -/
theorem cancelWait_none (h : cancelled s x = none) : cancelWait s x = refuseAdm s x .stale := by
  simp only [cancelWait, h]

/-- A wait at a weir, its PARKED answer given, ends where it is. -/
theorem cancelWait_weir (h : cancelled s x = some w) (hplace : ∀ home ref, w.place ≠ .eddy home ref)
    (hphase : w.phase ≠ .pending) :
    cancelWait s x = answerAdm (dropWaiter s x.n w.id) x ⟨.ok, 0, 0, none, none⟩ := by
  unfold cancelWait
  cases hp : w.place with
  | eddy home ref => exact absurd hp (hplace home ref)
  | _ => simp only [h, hp, hphase, if_false]

/-- A wait that has joined an eddy is withdrawn first, the CANCEL noted in its record. -/
theorem cancelWait_eddy {home ref : Nat} (h : cancelled s x = some w) (hplace : w.place = .eddy home ref)
    (hphase : w.phase = .joined) :
    cancelWait s x = send (setWaiter s x.n { w with cancel := some (cancelOp x), phase := .withdrawing }) x.n
      (homeOf s x.n (Handle.index w.handle))
      (withdrawMsg x.n { w with cancel := some (cancelOp x), phase := .withdrawing } ref) := by
  simp only [cancelWait, h, hplace, hphase, if_true]
  refine (sendWithdrawal_eddy _ _ home ref _ rfl).trans ?_
  rw [homeOf_setWaiter]

end Cancel

/-- Settles O1: a record that passes checks 1 to 7 by its bucket and its turn, and the three opcodes that no home serves. -/
theorem entryStationServes : Obligations.EntryStationServes := by
  unfold Obligations.EntryStationServes
  refine ⟨?turns, fun r s => ⟨?nop, ?load, ?stale, ?weir, ?eddy⟩⟩
  case turns =>
    rintro op r s _ hp rfl
    rw [exec_recordCommand, submit_passes op r s hp]
    refine ⟨fun hb hw => ?_, fun hb hf => ?_, fun hb hf hw => ?_, fun hb hf hw he => ?_⟩
    · rw [admitShare_budget hb hw]; rfl
    · rw [admitShare_full hb hf, turnAway_record]; rfl
    · rw [admitShare_excess hb hf hw]; rfl
    · rw [admitShare_onward hb hf hw he]
  case nop => exact fun h => exec_ready .nop r s h
  case load =>
    intro h haux
    have hload : bits r.operandA 3 0 = r.operandA.toNat % 16 := by simp [bits]
    rw [← hload]
    exact (exec_ready .loadReport r s h).trans (congrArg conclude (loadAdm_engine _ (admOf .loadReport r) haux))
  case stale => exact fun h hw => (exec_ready .cancel r s h).trans (congrArg conclude (cancelWait_none hw))
  case weir =>
    exact fun w h hw hplace hphase =>
      (exec_ready .cancel r s h).trans (congrArg conclude (cancelWait_weir hw hplace hphase))
  case eddy =>
    exact fun w home ref h hw hplace hphase =>
      (exec_ready .cancel r s h).trans (congrArg conclude (cancelWait_eddy hw hplace hphase))

/-! ## Accesses to a station's aperture (R96, R521, R524, R531, R532) -/

/-- A transfer that fails changes the dictionary and the event log alone. -/
theorem portFails_log (s : State) (port number cause : Nat) :
    ∃ d l b, portFails s port number cause = { s with dict := d, log := l, lossOpen := b } := by
  unfold portFails
  dsimp only
  split
  · obtain ⟨d, l, b, e⟩ := raise_log (bump s (causeCounter cause)) 0x60 (generic (256 * port + number) cause 0 0 0)
    exact ⟨d, l, b, by rw [e]; rfl⟩
  · exact ⟨_, s.log, s.lossOpen, rfl⟩

/-- So do several. -/
theorem portFailsBy_log (s : State) (port number cause k : Nat) :
    ∃ d l b, portFailsBy s port number cause k = { s with dict := d, log := l, lossOpen := b } := by
  induction k with
  | zero => exact ⟨s.dict, s.log, s.lossOpen, rfl⟩
  | succ k ih =>
    obtain ⟨d, l, b, e⟩ := ih
    obtain ⟨d', l', b', e'⟩ := portFails_log (portFailsBy s port number cause k) port number cause
    refine ⟨d', l', b', ?_⟩
    rw [portFailsBy, List.range_succ, List.foldl_concat]
    exact e'.trans (by rw [e])

/-- Failing transfers leave every station, and whether its port is present and its towpath acts, as they were. -/
theorem portFailsBy_station (s : State) (port number cause k n : Nat) :
    station (portFailsBy s port number cause k) n = station s n ∧
    portHere (portFailsBy s port number cause k) n = portHere s n ∧
    towpathActs (portFailsBy s port number cause k) n = towpathActs s n := by
  obtain ⟨d, l, b, e⟩ := portFailsBy_log s port number cause k
  rw [e]
  exact ⟨rfl, rfl, rfl⟩

section Presented

variable {s : State} {x : RxItem} (hp : portHere s x.station = true)
include hp

/-- A request that no towpath answers is taken by a station that does not doze. -/
theorem presented_awake (ht : towpathFor s x = false) (hd : (station s x.station).state ≠ .dozing) :
    presented s x = stationTakes s x := by
  simp only [presented, hp, ht, hd, Bool.not_true, Bool.false_eq_true, if_false]

/-- At one that dozes it waits in the receive buffer, until the towpath's hold limit. -/
theorem presented_dozing (ht : towpathFor s x = false) (hd : (station s x.station).state = .dozing) :
    presented s x = onStation s x.station fun st => { st with
      rx := st.rx ++ [x]
      holdUntil :=
        let limit := s.clock.fc + setting s 0x2F0200
        if st.rx.isEmpty then limit else min st.holdUntil limit } := by
  simp only [presented, hp, ht, hd, Bool.not_true, Bool.false_eq_true, if_false, if_true]

/-- The towpath answers one that it acts for. -/
theorem presented_towpath (ht : towpathFor s x = true) : presented s x = towpathTakes s x := by
  simp only [presented, hp, ht, Bool.not_true, Bool.false_eq_true, if_false, if_true]

end Presented

/-- For a beacon read the towpath acts where it acts for the station. -/
theorem towpathFor_beacon (s : State) (a : ApertureRead) : towpathFor s (.beacon a) = towpathActs s a.station :=
  Bool.or_false _

/-- So it does for an access that is not parsed. -/
theorem towpathFor_access (s : State) (a : AccessIn) : towpathFor s (.access a) = towpathActs s a.station :=
  Bool.or_false _

/-- A read of the page is answered with its words. -/
theorem beaconAnswer_fits (s : State) (a : ApertureRead) (h : beaconFits a = true) :
    beaconAnswer s a = putRsp (touch s a.station) a.station (.access a.aux a.initId a.xtag none false
      (wordsBeat ((List.range (if a.wide then 4 else 1)).map fun i =>
        beaconSeen s a.station a.fnStamp.toNat (a.word + i)))) := by
  simp only [beaconAnswer, h, Bool.not_true, Bool.false_eq_true, if_false]

/-- A read outside it, or not aligned, with an error response. -/
theorem beaconAnswer_error (s : State) (a : ApertureRead) (h : beaconFits a = false) :
    beaconAnswer s a = bump (errorRsp s a.station a.aux a.initId a.xtag none) 0x230505 := by
  simp only [beaconAnswer, h, Bool.not_false, if_true]

/-- Once failing transfers have been counted, a station that is awake takes the access. -/
theorem presented_failed (s : State) (a : AccessIn) (cause k : Nat) (hp : portHere s a.station = true)
    (ht : towpathActs s a.station = false) (hd : (station s a.station).state ≠ .dozing) :
    presented (portFailsBy s 1 a.station cause k) (.access a) =
      stationTakes (portFailsBy s 1 a.station cause k) (.access a) := by
  obtain ⟨hstation, hport, htow⟩ := portFailsBy_station s 1 a.station cause k a.station
  refine presented_awake (hport.trans hp) ?_ (by rwa [← hstation] at hd)
  rw [towpathFor_access, htow, ht]

section Unparsed

variable {s : State} {n : Nat} {aux wide both : Bool} {initId xtag : BitVec 12} {lane : BitVec 1} (hp : portHere s n = true)
include hp

/-- Transfers without credit are discarded, and those that came with credit give it back. -/
theorem apertureFails_withoutCredit :
    apertureFails s ⟨n, aux, initId, xtag, ⟨.withoutCredit, lane, wide, both⟩⟩ =
      creditsBack (portFailsBy s 1 n 3 (if wide && both then 2 else 1)) (.xpRequest n lane.toNat)
        ((if wide then 2 else 1) - if wide && both then 2 else 1) := by
  simp only [apertureFails, hp, Bool.not_true, Bool.false_eq_true, if_false, failingTransfers, accessTransfers]

/-- The towpath counts an access that it answers with an error response. -/
theorem apertureFails_towpath (ht : towpathActs s n = true) :
    apertureFails s ⟨n, aux, initId, xtag, ⟨.unaccepted, lane, wide, both⟩⟩ =
      bump (errorRsp (creditsBack s (.xpRequest n lane.toNat) (if wide then 2 else 1)) n aux initId xtag none) 0x2F0301 := by
  have hpresented := presented_towpath (x := .access ⟨n, aux, initId, xtag, ⟨.unaccepted, lane, wide, both⟩⟩) hp
    ((towpathFor_access s _).trans ht)
  simp only [apertureFails, hp, Bool.not_true, Bool.false_eq_true, if_false, hpresented]
  rfl

variable (ht : towpathActs s n = false) (hd : (station s n).state ≠ .dozing)
include ht hd

/-- A header that fails its parity is counted, and answered on the lane on which it came. -/
theorem apertureFails_headerParity :
    apertureFails s ⟨n, aux, initId, xtag, ⟨.headerParity, lane, wide, both⟩⟩ =
      errorRsp (creditsBack (portFailsBy s 1 n 1 (if wide && both then 2 else 1)) (.xpRequest n lane.toNat)
        (if wide then 2 else 1)) n aux initId xtag (some lane.toNat) := by
  have htakes := presented_failed s ⟨n, aux, initId, xtag, ⟨.headerParity, lane, wide, both⟩⟩ 1
    (if wide && both then 2 else 1) hp ht hd
  simp only [apertureFails, hp, Bool.not_true, Bool.false_eq_true, if_false, failingTransfers, htakes]
  rfl

/-- So is an uncorrectable beat, on any lane. -/
theorem apertureFails_uncorrectable :
    apertureFails s ⟨n, aux, initId, xtag, ⟨.uncorrectable, lane, wide, both⟩⟩ =
      errorRsp (creditsBack (portFailsBy s 1 n 2 (if wide && both then 2 else 1)) (.xpRequest n lane.toNat)
        (if wide then 2 else 1)) n aux initId xtag none := by
  have htakes := presented_failed s ⟨n, aux, initId, xtag, ⟨.uncorrectable, lane, wide, both⟩⟩ 2
    (if wide && both then 2 else 1) hp ht hd
  simp only [apertureFails, hp, Bool.not_true, Bool.false_eq_true, if_false, failingTransfers, htakes]
  rfl

/-- An access that the station does not accept has no transfer that fails; it is counted once it is answered. -/
theorem apertureFails_unaccepted :
    apertureFails s ⟨n, aux, initId, xtag, ⟨.unaccepted, lane, wide, both⟩⟩ =
      bump (errorRsp (creditsBack s (.xpRequest n lane.toNat) (if wide then 2 else 1)) n aux initId xtag none) 0x230505 := by
  have htakes := presented_awake (x := .access ⟨n, aux, initId, xtag, ⟨.unaccepted, lane, wide, both⟩⟩) hp
    ((towpathFor_access s _).trans ht) hd
  simp only [apertureFails, hp, Bool.not_true, Bool.false_eq_true, if_false, htakes]
  rfl

end Unparsed

/-- Settles O24, by who answers: the station, its receive buffer while it dozes, or its towpath. -/
theorem apertureAccesses : Obligations.ApertureAccesses := by
  unfold Obligations.ApertureAccesses
  refine ⟨?reads, ?errors⟩
  case reads =>
    rintro a s _ hp rfl
    show (_ → _ → (_ → conclude (presented s (.beacon a)) = _) ∧ (_ → conclude (presented s (.beacon a)) = _)) ∧
      (_ → _ → conclude (presented s (.beacon a)) = _) ∧ (_ → conclude (presented s (.beacon a)) = _)
    refine ⟨fun ht hd => ?awake, fun ht hd => ?dozing, fun ht => ?towpath⟩
    case awake =>
      rw [presented_awake hp ((towpathFor_beacon s a).trans ht) hd]
      refine ⟨fun hfits => ?_, fun hfits => ?_⟩
      · exact congrArg conclude (beaconAnswer_fits _ a hfits)
      · exact congrArg conclude (beaconAnswer_error _ a hfits)
    case dozing => rw [presented_dozing hp ((towpathFor_beacon s a).trans ht) hd]; rfl
    case towpath => rw [presented_towpath hp ((towpathFor_beacon s a).trans ht)]; rfl
  case errors =>
    rintro n _ _ aux wide both initId xtag lane s hp rfl rfl
    exact ⟨fun ht hd => ⟨congrArg conclude (apertureFails_headerParity hp ht hd),
        congrArg conclude (apertureFails_uncorrectable hp ht hd), congrArg conclude (apertureFails_unaccepted hp ht hd)⟩,
      fun ht => congrArg conclude (apertureFails_towpath hp ht), congrArg conclude (apertureFails_withoutCredit hp)⟩

/-! ## Operations that meet their object at their own station -/

/-- What an operation does on an object at its own station may be given for objects that agree with the one it meets in all but
the tracker. -/
theorem exec_meetsHere_as (op : Opcode) (r : OpRec) (s : State) (o : Obj) {effect : State → Obj → FwdOp → State}
    (ho : ordinary op = true) (h : MeetsHere op r s o)
    (he : ∀ t o', o'.body = o.body → o'.hi = o.hi → o'.failed = false →
      runOn t r.station o' (travelling op r (admitted r s) 0) = effect t o' (travelling op r (admitted r s) 0)) :
    exec (recordCommand op r) s = .next (settled (doneHere op r s o effect)) := by
  have ⟨_, _, _, _, hfailed, _⟩ := h
  rw [exec_meetsHere op r s o ho h]
  have hstep := fun t => he (setObj t r.station (hiIndex o.hi) (track t o (travelling op r (admitted r s) 0)))
    (track t o (travelling op r (admitted r s) 0)) (track_body ..) (track_hi ..) ((track_failed ..).trans hfailed)
  simp only [doneHere, atObjectHome, hstep]

/-! ## Beacon slots (R134, R135) -/

/-- BCN_WRITE at the slot's home writes the word in the home's page and sends every other station its update. -/
theorem runOn_bcnWrite (s : State) (n : Nat) (o : Obj) (f : FwdOp) (b : Beacon) (hop : f.op = .bcnWrite)
    (hb : o.body = .beacon b) (hf : o.failed = false) :
    runOn s n o f =
      let u := broadcast (setBeacon (setObj s n (hiIndex o.hi) { o with body := .beacon { b with value := f.a } }) n b.word f.a)
        n (.beaconUpdate b.word f.a false false (issue s o.hi 0))
      reply (noteShadow u { o with body := .beacon { b with value := f.a } } 2 .ok f.agent) n f b.value
        (BitVec.ofNat 64 b.word) := by
  simp only [runOn, hop, hb, hf, homeBeacon, reduceCtorEq, Bool.false_eq_true, if_false]

/-- BCN_READ there reads the word. -/
theorem runOn_bcnRead (s : State) (n : Nat) (o : Obj) (f : FwdOp) (b : Beacon) (hop : f.op = .bcnRead)
    (hb : o.body = .beacon b) (hf : o.failed = false) :
    runOn s n o f = reply s n f (beaconAt s n b.word) (BitVec.ofNat 64 b.word) := by
  simp only [runOn, hop, hb, hf, homeBeacon, reduceCtorEq, Bool.false_eq_true, if_false]

/-- Settles O23, by the operation. -/
theorem beaconOperations : Obligations.BeaconOperations := by
  unfold Obligations.BeaconOperations
  intro r s o b hb
  refine ⟨fun h => ?write, fun h => ?read⟩
  case write =>
    refine exec_meetsHere_as .bcnWrite r s o rfl h fun t o' hbody hhi hfailed => ?_
    rw [runOn_bcnWrite t r.station o' _ b rfl (hbody.trans hb) hfailed, hhi]; rfl
  case read =>
    refine exec_meetsHere_as .bcnRead r s o rfl h fun t o' hbody _ hfailed => ?_
    exact runOn_bcnRead t r.station o' _ b rfl (hbody.trans hb) hfailed

/-! ## DESTROY (R105, R154, R243, R280, R330, R374) -/

section Destroy

variable {s : State} {n : Nat} {o : Obj} {f : FwdOp} (hop : f.op = .destroy)
include hop

/-- DESTROY of an object that is no keeper's weir, under a handle that is not stale, destroys it once the scopes of the waits that
it ends have been tested. -/
theorem runOn_destroy (hk : isKeeperWeir o = false) (hs : staleSelector o f.handle = false) :
    runOn s n o f =
      destroyObj (releaseTests s (hiFn o.hi) f o.body.testedEddies) n o .badhandle f.entry f.tag f.agent := by
  simp only [runOn, hop, hk, hs, Bool.false_eq_true, if_true, if_false]

/-- DESTROY of a keeper's weir is PRIVILEGE. -/
theorem runOn_destroy_keeperWeir (hk : isKeeperWeir o = true) : runOn s n o f = refuse s n f .privilege := by
  simp only [runOn, hop, hk, if_true]

/-- DESTROY under a stale handle is STALE. -/
theorem runOn_destroy_stale (hk : isKeeperWeir o = false) (hs : staleSelector o f.handle = true) :
    runOn s n o f = refuse s n f .stale := by
  simp only [runOn, hop, hk, hs, Bool.false_eq_true, if_true, if_false]

end Destroy

/-- A landing counter's handle is stale where its selector is not the extra generation (R219). -/
theorem staleSelector_landing {o : Obj} {l : Landing} (h : Word) (hb : o.body = .landing l) (hf : o.failed = false) :
    staleSelector o h = (Handle.sel h != l.xgen.toNat) := by
  simp only [staleSelector, hb, hf, Bool.not_false, Bool.true_and]

section DestroyObj

variable {s : State} {home : Nat} {o : Obj} {entry tag agent : Nat} {st : Status}

/-- A counter's waits and watches end, it leaves, and OK is answered. -/
theorem destroyObj_counter {c : Counter} (hb : o.body = .counter c) (he : entry ≠ 127) :
    destroyObj s home o st entry tag agent =
      send (retire (lapseAll (sendAll s home (endEddies s home (issue s o.hi 0) c.eddies (plain st))) home o .badhandle).1
        home o agent) home entry (.response tag .ok 0 0 none) := by
  simp only [destroyObj, hb, endSimple, destroyCounter, jobAnswer, he, if_false]

/-- A landing counter's waits end, its seals are discarded, its watches lapse, it leaves, and OK is answered. -/
theorem destroyObj_landing {l : Landing} (hb : o.body = .landing l) (he : entry ≠ 127) :
    destroyObj s home o st entry tag agent =
      let u := sendAll s home (endEddies s home (landHandle s o l) l.eddies (plain st))
      send (retire (lapseAll (sendAll u home (sealMsgs u o.hi l.seals .sealDiscard)) home o .badhandle).1 home o agent)
        home entry (.response tag .ok 0 0 none) := by
  simp only [destroyObj, hb, endSimple, destroyLanding, jobAnswer, he, if_false]

/-- A queue behind no push ends its waits and watches and asks for the release of its extent, on which its index waits. -/
theorem destroyObj_queue {q : Queue} (hb : o.body = .queue q) (hq : q.pushing = none) :
    destroyObj s home o st entry tag agent =
      let u := (lapseAll (endQueueWaits s home o q st) home o .badhandle).1
      addJob (dropObj (send u home (ferryStation u (hiIndex o.hi)) (.releaseExtent (nameOf o.hi))) home (hiIndex o.hi)) home
        ⟨o.hi, .queueDestroy, entry, tag, agent⟩ := by
  simp only [destroyObj, hb, destroyQueue, endPushing, hq, addJob]

end DestroyObj

/-- Settles O27, by the class of the object. -/
theorem destroyHere : Obligations.DestroyHere := by
  unfold Obligations.DestroyHere
  intro r s o hn h
  have hentry : r.station ≠ 127 := by omega
  have hrun := fun {effect} => exec_meetsHere_as .destroy r s o (effect := effect) rfl h
  refine ⟨fun c hb => ?counter, fun l hb hsel => ?stale, fun l hb hsel => ?landing, fun q hb hq => ?queue,
    fun w hb hk => ?weir, fun w k hb hk => ?keeperWeir, fun x hb => ?rule, fun k hb => ?keeper, fun b hb => ?beacon⟩ <;>
    refine hrun fun t o' hbody hhi hfailed => ?_ <;> rw [hb] at hbody
  case counter =>
    refine (runOn_destroy rfl (by simp only [isKeeperWeir, hbody]) (by simp only [staleSelector, hbody])).trans ?_
    exact (destroyObj_counter hbody hentry).trans (by rw [hhi, hbody]; rfl)
  case stale =>
    exact runOn_destroy_stale rfl (by simp only [isKeeperWeir, hbody])
      ((staleSelector_landing _ hbody hfailed).trans (bne_iff_ne.2 hsel))
  case landing =>
    refine (runOn_destroy rfl (by simp only [isKeeperWeir, hbody])
      ((staleSelector_landing _ hbody hfailed).trans (bne_eq_false_iff_eq.2 hsel))).trans ?_
    exact (destroyObj_landing hbody hentry).trans (by rw [hhi, hbody]; rfl)
  case queue =>
    refine (runOn_destroy rfl (by simp only [isKeeperWeir, hbody]) (by simp only [staleSelector, hbody])).trans ?_
    exact (destroyObj_queue hbody hq).trans (by rw [hhi, hbody]; rfl)
  case weir =>
    refine (runOn_destroy rfl (by simp only [isKeeperWeir, hbody, hk, Option.isSome_none])
      (by simp only [staleSelector, hbody])).trans ?_
    simp only [destroyObj, hbody, destroyWeir, hhi]; rfl
  case keeperWeir =>
    exact runOn_destroy_keeperWeir rfl (by simp only [isKeeperWeir, hbody, hk, Option.isSome_some])
  case rule | keeper | beacon =>
    refine (runOn_destroy rfl (by simp only [isKeeperWeir, hbody]) (by simp only [staleSelector, hbody])).trans ?_
    simp only [destroyObj, hbody]; rfl

/-! ## Answers and registrations (R110, R147, R152) -/

section Answer

variable {s t : State} {n tag : Nat} {o : OpenOp} (ho : ((station s n).openOps.find? fun x => x.tag == tag) = some o)
  (ht : t = onStation s n fun x => { x with openOps := x.openOps.filter fun y => y.tag != tag })
include ho ht

/-- The answer of an operation that holds no waiter record closes its transaction and is driven. -/
theorem opAnswered_noWait (i : EndInfo) (hw : o.wait = none) (hr : o.reply ≠ .closed) :
    opAnswered s n tag i = respond (countRefusal t o.fn i.status) n o.reply (mkRsp o.acquire o.scope o.opTag i) := by
  subst ht
  simp only [opAnswered, ho, hw, hr, Option.bind_none, Option.any_none, Bool.false_eq_true, if_false, onStation]

/-- A registration joins a posted wait, whose record is answered PARKED. -/
theorem waitRegistered_posted (home ref : Nat) {id : Nat} {w : Waiter} (hid : o.wait = some id)
    (hw : waiterAt t n id = some w) (hended : w.ended = none) (hcancel : w.cancel = none) (hfailed : w.failed = false)
    (hhold : w.hold = false) :
    waitRegistered s n home tag ref = setWaiter (respond t n w.reply (parkedRsp w.scope w.opTag)) n
      { w with phase := .joined, place := .eddy home ref } := by
  subst ht
  rw [onStation] at hw
  simp only [waitRegistered, ho, hid, hw, hended, hcancel, hfailed, hhold, Option.isSome_none, Bool.or_self,
    Bool.false_eq_true, if_false, onStation]

end Answer

section Messages

variable {s : State} {src dst : Nat} {rest : List Msg}

/-- An answer that its station takes closes its transaction. -/
theorem exec_operationResponse_answer {tag : Nat} {st : Status} {a b : Word} {d : Option Payload}
    (h : TakesMsg s src dst (.response tag st a b d) rest) :
    exec (.operationResponse src dst) s = conclude (opAnswered (taken s dst rest) dst tag ⟨st, a, b, d, none⟩) := by
  show execOperationResponse src dst s = _
  exact arrives_takes s src dst _ rest _ _ 1 rfl h rfl

/-- A registration that its station takes reaches the wait that it is for. -/
theorem exec_operationResponse_registered {tag ref : Nat} (h : TakesMsg s src dst (.registeredWait tag ref) rest) :
    exec (.operationResponse src dst) s = conclude (waitRegistered (taken s dst rest) dst src tag ref) := by
  show execOperationResponse src dst s = _
  exact arrives_takes s src dst _ rest _ _ 1 rfl h rfl

/-- A wake that its station takes covers the waits that it names. -/
theorem exec_wakeRequest {h : Word} {ref : Nat} {grant : Option Word} {all : Bool} {waits : List Nat} {i : EndInfo}
    (ht : TakesMsg s src dst (.wake h ref grant all waits i) rest) :
    exec (.wakeRequest src dst) s = conclude (wakeArrives (taken s dst rest) dst h ref grant waits i) := by
  show execWakeRequest src dst s = _
  exact arrives_takes s src dst _ rest _ _ 3 rfl ht rfl

/-- A withdrawal that its object's home takes is a step of the home. -/
theorem exec_withdrawal {entry id ref : Nat} {h : Word} (ht : TakesMsg s src dst (.withdraw entry id h ref) rest)
    (hh : HomeHere (taken s dst rest) dst h) :
    exec (.withdrawal src dst) s = conclude (stepOn (taken s dst rest) dst h
      (withdrawAt (atStep (taken s dst rest)) dst entry id (Handle.index h))) := by
  show execWithdrawal src dst s = _
  exact arrives_takes s src dst _ rest _ _ 0 rfl ht (homeMsg_here _ dst h _ _ hh)

end Messages

/-- Settles O29: an answer without a waiter record, and the registration of a posted wait. -/
theorem operationResponses : Obligations.OperationResponses := by
  unfold Obligations.OperationResponses
  refine ⟨?answer, ?registration⟩
  case answer =>
    intro s src dst tag st a b d rest o h ho hw hr
    rw [exec_operationResponse_answer h, opAnswered_noWait ho rfl _ hw hr, conclude]
  case registration =>
    intro s t src dst tag ref id rest o w h ho hid ht hw hended hcancel hfailed hhold
    rw [exec_operationResponse_registered h, waitRegistered_posted ho ht src ref hid hw hended hcancel hfailed hhold,
      conclude]

/-! ## Wakes, withdrawals and time limits (R115, R151, R152) -/

/-- A wake that covers a joined wait ends it. -/
theorem coverWait_joined (s : State) (n id : Nat) (i : EndInfo) {w : Waiter} (hw : waiterAt s n id = some w)
    (hphase : w.phase = .joined) : coverWait s n id i = endWait s n w i := by
  simp only [coverWait, hw, hphase]

/-- A withdrawal takes the wait out of the eddies of a counter, and tells whether one of them held it. -/
theorem withdrawAt_counter (s : State) (home entry id index : Nat) {o : Obj} {c : Counter} (ho : objAt s home index = some o)
    (hb : o.body = .counter c) :
    withdrawAt s home entry id index =
      send (setObj s home index { o with body := .counter { c with eddies := (leaveEddies c.eddies (entry, id)).1 } }) home
        entry (.withdrawn id (leaveEddies c.eddies (entry, id)).2) := by
  simp only [withdrawAt, ho, hb]

/-- A deadline that is due at a station that serves takes effect once the station is awake. -/
theorem deadlineAt_due {s : State} {n : Nat} {due : Bool} (f : State → State) (hdue : due = true)
    (hn : takesNow s n true = true) : deadlineAt s n due f = f (foreground s n) := by
  simp only [deadlineAt, hdue, hn, Bool.and_self, if_true]

section TimesOut

variable {s : State} {n id d : Nat} {w : Waiter} (hw : waiterAt s n id = some w) (hd : w.deadline = some d)
  (hf : w.failed = false) (hphase : w.phase = .joined)
include hw hd hf hphase

/-- A wait that has joined an eddy is withdrawn as its limit passes. -/
theorem waitTimesOut_eddy {home ref : Nat} (hp : w.place = .eddy home ref) :
    waitTimesOut s n id = sendWithdrawal (setWaiter (passDeadline s d) n { w with phase := .withdrawing }) n
      { w with phase := .withdrawing } := by
  simp only [waitTimesOut, hw, hd, hf, hphase, hp, Bool.false_eq_true, if_false]

/-- One on a weir ends with TIMEOUT. -/
theorem waitTimesOut_weir {index : Nat} {e : BitVec 32} (hp : w.place = .weir index e) :
    waitTimesOut s n id = endWait (passDeadline s d) n w (plain .timeout) := by
  simp only [waitTimesOut, hw, hd, hf, hphase, hp, Bool.false_eq_true, if_false]

end TimesOut

/-- Settles O31: a wake that names a joined wait, the withdrawal from a counter's eddies, and the limit of a joined wait. -/
theorem waitsEnd : Obligations.WaitsEnd := by
  unfold Obligations.WaitsEnd
  refine ⟨?wake, ?withdrawal, ?timeout⟩
  case wake =>
    intro s src dst id h ref all i rest w ht hw hphase
    exact (exec_wakeRequest ht).trans (congrArg conclude (coverWait_joined _ dst id i hw hphase))
  case withdrawal =>
    intro s src dst entry id h ref rest o c ht hh ho hb
    rw [exec_withdrawal ht hh, withdrawAt_counter _ dst entry id _ ho hb, conclude]
  case timeout =>
    intro s n id d home ref w htakes hs hw hd hf hphase
    have hdue : ((waiterAt s n id).any fun w => w.deadline.isSome) = true := by
      rw [hs, Option.any_some, hd, Option.isSome_some]
    refine ⟨fun hp => ?_, fun index e hp => ?_⟩
    · exact congrArg conclude ((deadlineAt_due _ hdue htakes).trans (waitTimesOut_eddy hw hd hf hphase hp))
    · exact congrArg conclude ((deadlineAt_due _ hdue htakes).trans (waitTimesOut_weir hw hd hf hphase hp))

/-! ## The push channel (R118 to R121, R526 to R528) -/

/-- The first ready message with credit is pushed on the lane that has credit for it. -/
theorem pushNext_credit {s : State} {n lane : Nat} {m : PushMsg} {rest : List PushMsg} (hawake : awake (station s n) = true)
    (htow : towpathActs s n = false) (hopen : entryClosed s n = false)
    (hnext : nextPush s n [] (station s n).ready = some m) (hlane : laneFor (station s n).pushCredit m.cost = some lane)
    (hrest : takeFirst (· == m) (station s n).ready = some (m, rest)) :
    pushNext s n = bump (pushed (driven (onStation s n fun st => { st with
        ready := rest, pushCredit := laneUse st.pushCredit lane m.cost
        pushUsed := tput st.pushUsed m.agent (tgetD st.pushUsed m.agent 0 + m.cost)
        pushSeq := tput st.pushSeq m.agent ((tgetD st.pushSeq m.agent 0 + 1) % 65536)
        idleSince := s.clock.fc })
      (.push n lane m (tgetD (station s n).pushSeq m.agent 0))) n m) 0x230503 := by
  simp only [pushNext, hawake, htow, hopen, hnext, hlane, hrest, Bool.not_true, Bool.or_self, Bool.false_eq_true, if_false,
    driven, onStation]

section Mailbox

variable {s : State} {n agent beats rsv : Nat} (hp : portHere s n = true)
include hp

/-- A return in form gives its beats back to the engine's mailbox. -/
theorem mailboxReturns_beats (htow : towpathActs s n = false) (hb : beats ≠ 0) (hrsv : rsv = 0)
    (ha : agentFieldOk agent = true) (hused : beats ≤ tgetD (station s n).pushUsed agent 0) :
    mailboxReturns s n agent beats rsv false = onStation (foreground s n) n fun st => { st with
      pushUsed := nput st.pushUsed agent (tgetD (station s n).pushUsed agent 0 - beats) } := by
  simp only [mailboxReturns, hp, htow, hb, hrsv, ha, Nat.not_lt.2 hused, ne_eq, not_true_eq_false, Bool.not_true,
    Bool.false_eq_true, or_self, if_false]

/-- One that fails its parity is discarded and counted. -/
theorem mailboxReturns_parity : mailboxReturns s n agent beats rsv true = portFails s 1 n 1 := by
  simp only [mailboxReturns, hp, Bool.not_true, Bool.false_eq_true, if_false, if_true]

end Mailbox

/-- Settles O32: a push with credit, and the return of credit with good and with bad parity. -/
theorem pushChannel : Obligations.PushChannel := by
  unfold Obligations.PushChannel
  refine ⟨?push, ?beats, fun s n agent beats rsv hp => congrArg conclude (mailboxReturns_parity hp)⟩
  case push =>
    intro s n lane m rest hlive hawake htow hopen hnext hlane hrest
    exact congrArg conclude ((if_pos hlive).trans (pushNext_credit hawake htow hopen hnext hlane hrest))
  case beats =>
    intro s n agent beats hp htow hb ha hused
    have hbeats : beats.toNat ≠ 0 := fun h => hb (BitVec.eq_of_toNat_eq h)
    exact congrArg conclude (mailboxReturns_beats hp htow hbeats rfl ha hused)

/-! ## States that the closing of a step leaves alone (R440, R478, R482, R508, R596, R611) -/

/-- A fold whose every step leaves the state alone leaves it alone. -/
theorem foldl_unchanged {α β : Type} (f : β → α → β) (b : β) (l : List α) (h : ∀ x ∈ l, f b x = b) : l.foldl f b = b := by
  induction l with
  | nil => rfl
  | cons x l ih =>
    obtain ⟨hx, hl⟩ := List.forall_mem_cons.1 h
    rw [List.foldl_cons, hx, ih hl]

/-- Where no partition's record says FROZEN, none is: one that has no record is READY. -/
theorem partAt_notFrozen {s : State} (h : ∀ p ∈ s.partitions, p.2.state ≠ .frozen) (n : Nat) :
    (partAt s n).state ≠ .frozen := by
  unfold partAt tgetD
  cases hp : tget s.partitions n with
  | none => exact nofun
  | some x => exact h _ (mem_of_tget _ n x hp)

section Quiet

variable {s : State} (hq : Quiet s)

/-- A state that has left nothing unfinished is what the engine does of itself within a step. -/
theorem finishLoop_finished (fuel : Nat) (h : unfinished s = false) : finishLoop fuel s = s := by
  cases fuel with
  | zero => rfl
  | succ fuel => simp only [finishLoop, h, Bool.false_eq_true, if_false]

/-- No station's sequence steps where its partition is not FROZEN. -/
theorem partitionStep_notFrozen (p : Nat) (h : (partAt s p).state ≠ .frozen) : partitionStep s p = s := if_pos h

include hq

/-- A quiet state has left nothing unfinished. -/
theorem unfinished_quiet : unfinished s = false := by
  obtain ⟨_, hlinks, hcourse, hstations, _⟩ := hq
  have hself : ∀ m ∈ s.course, (m.src == m.dst) = false := fun m hm => beq_false_of_ne (hcourse m hm)
  have hcaravans : s.course.any (caravanDue s) = false :=
    List.any_eq_false.2 fun m hm => by simp [caravanDue, hself m hm]
  have hlocal : (s.course.any fun m => m.src == m.dst && localKind m.body && awake (station s m.dst)) = false :=
    List.any_eq_false.2 fun m hm => by simp [hself m hm]
  have hjobs : (s.stations.any fun p => p.2.jobs.any (jobDue s p.1)) = false :=
    List.any_eq_false.2 fun p hp => by
      obtain ⟨_, hj⟩ := hstations p hp
      simpa using hj
  simp only [unfinished, hlinks, hcaravans, hlocal, hjobs, List.isEmpty_nil, Bool.not_true, Bool.or_self, Bool.false_or]
  exact List.any_eq_false.2 fun p hp => by
    obtain ⟨hblocked, _⟩ := hstations p hp
    simp [hblocked]

/-- No sequence of recovery has a step to take. -/
theorem recoveryPump_quiet : recoveryPump s = s := by
  obtain ⟨_, _, _, _, hdrains, hjournal, hparts, _⟩ := hq
  have hstopped : resolveStopped s = s := by
    have hnone : (s.journal.filter fun p =>
        !serving (station s p.2.2.2.1) || !serving (station s p.2.2.2.2.1)) = [] :=
      List.filter_eq_nil_iff.2 fun p hp => by
        obtain ⟨hold, hnew⟩ := hjournal p hp
        simp [hold, hnew]
    rw [resolveStopped, hnone, List.foldl_nil]
  have hsteps : ∀ p, partitionStep s p = s := fun p => partitionStep_notFrozen p (partAt_notFrozen hparts p)
  unfold recoveryPump
  dsimp only
  rw [foldl_unchanged _ s s.fns ?drains, hstopped]
  case drains =>
    intro p hp
    cases hd : p.2.drain with
    | none => rfl
    | some d => exact if_neg (hdrains p hp d hd)
  refine List.foldl_fixed' (fun p => ?_) _
  exact List.foldl_fixed' (fun _ => hsteps p.1) _

/-- No reset ends, no bridge goes off, and no loss is reported. -/
theorem closing_quiet : closing s = s := by
  obtain ⟨_, _, _, _, _, _, _, hreset, hloss, hbridges, _⟩ := hq
  have hresets : resetEnds s = s := by
    simp only [resetEnds, hreset, Bool.false_and, Bool.false_eq_true, if_false]
  have hmodes : bridgesCheck s = s := foldl_unchanged _ s _ fun p hp => by
    have hb : p.1 - 0x2D0500 < 64 := by
      have := List.of_mem_filter hp
      simp only [Bool.and_eq_true, decide_eq_true_eq] at this
      omega
    exact if_neg fun h => h.1 (hbridges _ hb)
  rw [closing, hresets, hmodes]
  simp only [overflowCheck, hloss, Bool.false_eq_true, if_false]

/-- The engine does nothing of itself. -/
theorem finish_quiet : finish s = s := by
  have hloop := fun fuel => finishLoop_finished fuel (unfinished_quiet hq)
  have ⟨_, _, _, _, _, _, _, _, _, _, howed, _⟩ := hq
  simp only [finish, hloop, recoveryPump_quiet hq, howed, List.isEmpty_nil, if_true, closing_quiet hq]

/-- No spare is there to be switched off. -/
theorem sparesRest_quiet : sparesRest s = s := by
  obtain ⟨hservice, _, _, _, _, _, _, _, _, _, _, h64, h65, _⟩ := hq
  simp only [sparesRest, hservice, Option.isSome_none, List.foldl_cons, List.foldl_nil, h64, h65, Bool.false_eq_true, if_false]

end Quiet

/-- Settles O58: no part of the closing of a step has anything to do. -/
theorem quietStatesSettle : Obligations.QuietStatesSettle := by
  unfold Obligations.QuietStatesSettle
  intro s hq
  have ⟨hservice, _, _, _, _, _, _, _, _, _, _, _, _, howed, hclamp⟩ := hq
  simp only [settled, hservice, finish_quiet hq, sparesRest_quiet hq, howed, List.isEmpty_nil, if_true, hclamp, Bool.false_and,
    Bool.false_eq_true, if_false, closing_quiet hq]

end Sys2Proof.Machine
end

/-!
PROOFS of counters and eddies (chapter 04): the operations on a counter at its home, and the waits that join or form an eddy.
-/

section
namespace Sys2Proof.Machine

/-- What an operation that waits does on an object at its own station may be given for objects that agree with the one it meets
in all but the tracker. -/
theorem exec_waitsHere_as (op : Opcode) (r : OpRec) (s : State) (o : Obj) {effect : State → Obj → FwdOp → State}
    (ho : op = .ctrAcquire ∨ op = .ctrWaitGe ∨ op = .landWait ∨ op = .qPop ∨ op = .qToll) (h : WaitsHere op r s o)
    (he : ∀ t o', o'.body = o.body → o'.hi = o.hi → o'.failed = false →
      runOn t r.station o' (waitingOp op r s r.station) = effect t o' (waitingOp op r s r.station)) :
    exec (recordCommand op r) s = .next (settled (waitedHere op r s o effect)) := by
  have ⟨_, _, _, _, _, hfailed, _⟩ := h
  rw [exec_waitsHere op r s o ho h]
  have hstep := fun t => he (setObj t r.station (hiIndex o.hi) (track t o (waitingOp op r s r.station)))
    (track t o (waitingOp op r s r.station)) (track_body ..) (track_hi ..) ((track_failed ..).trans hfailed)
  simp only [waitedHere, atObjectHome, hstep]

/-- An operation on a counter that has not failed, other than DESTROY and CANCEL, is the counter's. -/
theorem runOn_counter (s : State) (n : Nat) {o : Obj} {c : Counter} (f : FwdOp) (hb : o.body = .counter c)
    (hf : o.failed = false) (hd : f.op ≠ .destroy) (hc : f.op ≠ .cancel) : runOn s n o f = homeCounter s n o c f := by
  simp only [runOn, hd, hc, hf, hb, Bool.false_eq_true, if_false]

/-! ## CTR_ADD and CTR_SUB (R140) -/

/-- An add whose true sum does not fit stores the sum less 2^64. -/
theorem addWrap_wraps {x y : Word} (h : 2 ^ 64 ≤ x.toNat + y.toNat) :
    ∃ v : Word, addWrap x y = (v, true) ∧ v.toNat = x.toNat + y.toNat - 2 ^ 64 :=
  ⟨x + y, Prod.ext rfl (decide_eq_true h), by rw [BitVec.toNat_add]; omega⟩

/-- One whose true sum fits stores it. -/
theorem addWrap_fits {x y : Word} (h : ¬ 2 ^ 64 ≤ x.toNat + y.toNat) :
    ∃ v : Word, addWrap x y = (v, false) ∧ v.toNat = x.toNat + y.toNat :=
  ⟨x + y, Prod.ext rfl (decide_eq_false h), by rw [BitVec.toNat_add]; omega⟩

/-- A subtraction whose true difference is below zero stores the difference plus 2^64. -/
theorem subWrap_wraps {x y : Word} (h : x.toNat < y.toNat) :
    ∃ v : Word, subWrap x y = (v, true) ∧ v.toNat = x.toNat + 2 ^ 64 - y.toNat :=
  ⟨x - y, Prod.ext rfl (decide_eq_true h), by rw [BitVec.toNat_sub]; omega⟩

/-- One whose true difference is not stores the difference. -/
theorem subWrap_fits {x y : Word} (h : ¬ x.toNat < y.toNat) :
    ∃ v : Word, subWrap x y = (v, false) ∧ v.toNat = x.toNat - y.toNat :=
  ⟨x - y, Prod.ext rfl (decide_eq_false h), by rw [BitVec.toNat_sub]; omega⟩

section Arithmetic

variable {s : State} {n : Nat} {o : Obj} {c : Counter} {f : FwdOp}

/-- What CTR_ADD and CTR_SUB do with a result: one that wraps is counted for the function and in the counter, and value_b
is 1. -/
theorem homeAddSub_result {sub wrap : Bool} {v : Word}
    (h : (if sub then subWrap c.value f.a else addWrap c.value f.a) = (v, wrap)) :
    homeAddSub s n o c f sub =
      if wrap then
        reply (counterWrite (bumpFn s (hiFn o.hi) 0x17) n o { c with wraps := min 0xFFFF (c.wraps + 1) } f v.toNat) n f c.value 1
      else reply (counterWrite s n o c f v.toNat) n f c.value 0 := by
  simp only [homeAddSub, h]
  cases wrap <;> rfl

/-- CTR_ADD writes the true sum, less 2^64 where it does not fit. -/
theorem homeCounter_ctrAdd (hop : f.op = .ctrAdd) :
    homeCounter s n o c f =
      if 2 ^ 64 ≤ c.value.toNat + f.a.toNat then
        reply (counterWrite (bumpFn s (hiFn o.hi) 0x17) n o { c with wraps := min 0xFFFF (c.wraps + 1) } f
          (c.value.toNat + f.a.toNat - 2 ^ 64)) n f c.value 1
      else reply (counterWrite s n o c f (c.value.toNat + f.a.toNat)) n f c.value 0 := by
  simp only [homeCounter, hop]
  by_cases h : 2 ^ 64 ≤ c.value.toNat + f.a.toNat
  · obtain ⟨v, hv, hval⟩ := addWrap_wraps h
    rw [homeAddSub_result (sub := false) hv, hval, if_pos h, if_pos rfl]
  · obtain ⟨v, hv, hval⟩ := addWrap_fits h
    rw [homeAddSub_result (sub := false) hv, hval, if_neg h, if_neg Bool.false_ne_true]

/-- CTR_SUB writes the true difference, plus 2^64 where it is below zero. -/
theorem homeCounter_ctrSub (hop : f.op = .ctrSub) :
    homeCounter s n o c f =
      if c.value.toNat < f.a.toNat then
        reply (counterWrite (bumpFn s (hiFn o.hi) 0x17) n o { c with wraps := min 0xFFFF (c.wraps + 1) } f
          (c.value.toNat + 2 ^ 64 - f.a.toNat)) n f c.value 1
      else reply (counterWrite s n o c f (c.value.toNat - f.a.toNat)) n f c.value 0 := by
  simp only [homeCounter, hop]
  by_cases h : c.value.toNat < f.a.toNat
  · obtain ⟨v, hv, hval⟩ := subWrap_wraps h
    rw [homeAddSub_result (sub := true) hv, hval, if_pos h, if_pos rfl]
  · obtain ⟨v, hv, hval⟩ := subWrap_fits h
    rw [homeAddSub_result (sub := true) hv, hval, if_neg h, if_neg Bool.false_ne_true]

/-- CTR_SET writes its operand, and answers the value before. -/
theorem homeCounter_ctrSet (hop : f.op = .ctrSet) :
    homeCounter s n o c f = reply (counterWrite s n o c f f.a.toNat) n f c.value 0 := by
  simp only [homeCounter, hop, homeSet]

/-- CTR_READ answers the value. -/
theorem homeCounter_ctrRead (hop : f.op = .ctrRead) : homeCounter s n o c f = reply s n f c.value 0 := by
  simp only [homeCounter, hop]

end Arithmetic

/-- An opcode's operation on a counter that its record meets at its own station is the counter's. -/
theorem exec_counterHere (op : Opcode) {r : OpRec} {s : State} {o : Obj} {c : Counter} (hb : o.body = .counter c)
    {effect : State → Obj → FwdOp → State} (ho : ordinary op = true) (hd : op ≠ .destroy) (h : MeetsHere op r s o)
    (he : ∀ t o', o'.hi = o.hi → homeCounter t r.station o' c (travelling op r (admitted r s) 0) =
      effect t o' (travelling op r (admitted r s) 0)) :
    exec (recordCommand op r) s = .next (settled (doneHere op r s o effect)) := by
  have hc : op ≠ .cancel := by rintro rfl; exact absurd ho (by decide)
  refine exec_meetsHere_as op r s o ho h fun t o' hbody hhi hfailed => ?_
  rw [runOn_counter t r.station _ (hbody.trans hb) hfailed hd hc, he t o' hhi]

/-- Settles O5: at the counter's home the sum or difference is the true one, or wraps. -/
theorem counterAddSub : Obligations.CounterAddSub := by
  unfold Obligations.CounterAddSub
  intro r s o c hb
  refine ⟨fun h => ?add, fun h => ?sub⟩
  case add =>
    refine exec_counterHere .ctrAdd hb rfl nofun h fun t o' hhi => ?_
    rw [homeCounter_ctrAdd rfl, hhi]; rfl
  case sub =>
    refine exec_counterHere .ctrSub hb rfl nofun h fun t o' hhi => ?_
    rw [homeCounter_ctrSub rfl, hhi]; rfl

/-- Settles O6, by the operation. -/
theorem counterSetRead : Obligations.CounterSetRead := by
  unfold Obligations.CounterSetRead
  intro r s o c hb
  refine ⟨fun h => ?set, fun h => ?read⟩
  case set => exact exec_counterHere .ctrSet hb rfl nofun h fun _ _ _ => homeCounter_ctrSet rfl
  case read => exact exec_counterHere .ctrRead hb rfl nofun h fun _ _ _ => homeCounter_ctrRead rfl

/-! ## CTR_ACQUIRE and CTR_WAIT_GE (R141, R144, R145, R147) -/

/-- A waiting operation's operand travels with it. -/
@[simp] theorem waitingOp_a (op : Opcode) (r : OpRec) (s : State) (n : Nat) : (waitingOp op r s n).a = r.operandA := rfl

section Waits

variable {s : State} {n most : Nat} {o : Obj} {es : List Eddy} {acquire counted : Bool} {amount : Word} {f : FwdOp}
  {put : List Eddy → Body}

/-- A wait joins the eddy of its kind and amount. -/
theorem registerWait_joins {e : Eddy}
    (h : (es.find? fun x => x.acquire == acquire && x.threshold == amount) = some e) :
    registerWait s n o es most acquire amount f counted put =
      send (setObj s n (hiIndex o.hi) { o with body := put (joined es e.ref (f.entry, f.wait)) }) n f.entry
        (.registeredWait f.tag e.ref) := by
  have hany : (es.any fun x => x.acquire == acquire && x.threshold == amount) = true := by
    rw [← List.isSome_find?, h, Option.isSome_some]
  simp only [registerWait, hany, Bool.not_true, Bool.false_and, Bool.false_eq_true, if_false, joinEddies, h, joined]

variable (h : (es.find? fun x => x.acquire == acquire && x.threshold == amount) = none)
include h

/-- Where none is found, no eddy is of the kind and amount. -/
theorem any_eddy_eq_false : (es.any fun x => x.acquire == acquire && x.threshold == amount) = false := by
  rw [← List.isSome_find?, h, Option.isSome_none]

/-- A wait that would form one eddy more than the object can have is refused with QUOTA. -/
theorem registerWait_crowded (hm : most ≤ es.length) :
    registerWait s n o es most acquire amount f counted put =
      refuse (if counted then bump s 0x240303 else s) n f .quota := by
  simp only [registerWait, any_eddy_eq_false h, Nat.not_lt.2 hm, decide_false, Bool.not_false, Bool.and_self, if_true]

/-- With room for an eddy, a wait forms one where four records of its function are free at the home, and is refused with QUOTA
where they are not. -/
theorem registerWait_forms (hm : es.length < most) :
    registerWait s n o es most acquire amount f counted put =
      if recordsFree s n (hiFn o.hi) 4 = true then
        send (setObj s n (hiIndex o.hi) { o with
          body := put (es ++ [⟨leastUnused (eddyRefs (station s n)), amount, acquire, 0, [(f.entry, f.wait)]⟩]) }) n f.entry
          (.registeredWait f.tag (leastUnused (eddyRefs (station s n))))
      else refuse s n f .quota := by
  by_cases hr : recordsFree s n (hiFn o.hi) 4 = true
  · simp only [registerWait, any_eddy_eq_false h, hm, hr, joinEddies, h, decide_true, Bool.not_true, Bool.not_false,
      Bool.and_false, Bool.false_eq_true, if_false, if_true]
  · simp only [registerWait, any_eddy_eq_false h, hm, hr, decide_true, Bool.not_true, Bool.not_false,
      Bool.and_false, Bool.and_self, Bool.false_eq_true, if_false, if_true]

end Waits

section Condition

variable {s : State} {n : Nat} {o : Obj} {c : Counter} {f : FwdOp}

/-- An acquire whose amount the counter holds takes it at once. -/
theorem homeCtrWait_takes (h : f.a.toNat ≤ c.value.toNat) :
    homeCtrWait s n o c f true =
      reply (noteShadow (setObj s n (hiIndex o.hi) { o with body := .counter { c with value := c.value - f.a } })
        { o with body := .counter { c with value := c.value - f.a } } 2 .ok f.agent) n f 0 0 := by
  simp only [homeCtrWait, h, if_true]

/-- A wait for a value that the counter has reached ends at once. -/
theorem homeCtrWait_ends (h : f.a.toNat ≤ c.value.toNat) : homeCtrWait s n o c f false = reply s n f 0 0 := by
  simp only [homeCtrWait, h, Bool.false_eq_true, if_false, if_true]

/-- Else it is registered, in one of at most eight eddies (R144). -/
theorem homeCtrWait_registers {acquire : Bool} (h : c.value.toNat < f.a.toNat) :
    homeCtrWait s n o c f acquire =
      registerWait s n o c.eddies 8 acquire f.a f true fun es => .counter { c with eddies := es } :=
  if_neg (Nat.not_le.2 h)

end Condition

/-- A record that waits at a counter at its own station waits there as its kind says. -/
theorem exec_counterWaits {op : Opcode} {acquire : Bool}
    (hop : (op = .ctrAcquire ∧ acquire = true) ∨ (op = .ctrWaitGe ∧ acquire = false))
    {r : OpRec} {s : State} {o : Obj} {c : Counter} (hb : o.body = .counter c) {effect : State → Obj → FwdOp → State}
    (h : WaitsHere op r s o)
    (he : ∀ t o', o'.hi = o.hi → homeCtrWait t r.station o' c (waitingOp op r s r.station) acquire =
      effect t o' (waitingOp op r s r.station)) :
    exec (recordCommand op r) s = .next (settled (waitedHere op r s o effect)) := by
  refine exec_waitsHere_as op r s o (hop.imp And.left fun ⟨hge, _⟩ => .inl hge) h fun t o' hbody hhi hfailed => ?_
  rw [← he t o' hhi]
  obtain ⟨rfl, rfl⟩ | ⟨rfl, rfl⟩ := hop
  · exact runOn_counter t r.station _ (hbody.trans hb) hfailed nofun nofun
  · exact runOn_counter t r.station _ (hbody.trans hb) hfailed nofun nofun

/-- Settles O7, by whether the condition holds, and where it does not by whether an eddy of the kind and amount is there. -/
theorem counterWaits : Obligations.CounterWaits := by
  unfold Obligations.CounterWaits
  intro r s o c hb
  refine ⟨fun h hle => ?takes, fun h hle => ?ends, fun op acquire hop h hlt =>
    ⟨fun e hfind => ?joins, fun hnone => ⟨fun hm => ?crowded, fun hm => ?forms⟩⟩⟩
  case takes =>
    refine exec_counterWaits (.inl ⟨rfl, rfl⟩) hb h fun t o' hhi => ?_
    rw [homeCtrWait_takes hle, hhi]; rfl
  case ends => exact exec_counterWaits (.inr ⟨rfl, rfl⟩) hb h fun _ _ _ => homeCtrWait_ends hle
  case joins =>
    refine exec_counterWaits hop hb h fun t o' hhi => ?_
    rw [homeCtrWait_registers hlt, waitingOp_a, registerWait_joins hfind, hhi]; rfl
  case crowded =>
    refine exec_counterWaits hop hb h fun t o' _ => ?_
    rw [homeCtrWait_registers hlt, waitingOp_a, registerWait_crowded hnone hm]; rfl
  case forms =>
    refine exec_counterWaits hop hb h fun t o' hhi => ?_
    rw [homeCtrWait_registers hlt, waitingOp_a, registerWait_forms hnone hm, hhi]; rfl

end Sys2Proof.Machine
end

/-!
PROOFS of weirs (chapter 05): the operations on a weir at its node and at its home, and the messages and deadlines of a weir's
tree.
-/

section
namespace Sys2Proof.Machine

/-! ## What a node answers (R165, R172, R408) -/

/-- A status other than BADHANDLE and QUOTA has no refusal counter (Table 2.8). -/
theorem countRefusal_other (s : State) (f : Nat) {st : Status} (h : st ≠ .badhandle ∧ st ≠ .quota) :
    countRefusal s f st = s := by
  obtain ⟨hb, hq⟩ := h
  unfold countRefusal
  split
  · exact absurd rfl hb
  · exact absurd rfl hq
  · rfl

/-- What a node answers to a record, where its status has no refusal counter. -/
theorem answerNode_record (op : Opcode) (r : OpRec) (s : State) (index : Nat) {i : EndInfo}
    (hi : i.status ≠ .badhandle ∧ i.status ≠ .quota) : answerNode s (admOf op r) index i = answeredAtNode op r s index i := by
  have hanswer : answerAdm s (admOf op r) i = answered s r i := by
    rw [answerAdm, countRefusal_other s _ hi]; rfl
  rw [answerNode, hanswer]; rfl

/-- The status of a broken node has no refusal counter. -/
theorem brokenStatus_uncounted (lost : Bool) :
    (if lost then Status.linklost else .broken) ≠ .badhandle ∧ (if lost then Status.linklost else .broken) ≠ .quota := by
  cases lost <;> exact ⟨nofun, nofun⟩

/-- Nor has the end of a wait on a completed epoch. -/
theorem weirEnd_uncounted (p : WeirParams) (hold : Bool) (latest : BitVec 32) (result : Payload) :
    (weirEnd p hold latest result).status ≠ .badhandle ∧ (weirEnd p hold latest result).status ≠ .quota := by
  rw [show (weirEnd p hold latest result).status = .ok from rfl]
  exact ⟨nofun, nofun⟩

section AtNode

variable {r : OpRec} {s : State} {x : Node} {effect : State → State}
  (hn : nodeFor (admitted r s) r.station r.handle = some x)
include hn

/-- WEIR_WAIT at a station with a node of its weir is a step of the node. -/
theorem weirAdm_waits :
    weirAdm (admitted r s) (admOf .weirWait r) = homeStep (admitted r s) r.station (Handle.hi r.handle) fun t =>
      nodeWait t (admOf .weirWait r) x (r.operandA.setWidth 32) := by
  unfold weirAdm
  rw [show nodeFor (admitted r s) (admOf .weirWait r).n (admOf .weirWait r).handle = some x from hn]; rfl

/-- It has the effect that the node's step has. -/
theorem exec_weirWait_node (h : Ready .weirWait r s)
    (he : nodeWait (atStep (admitted r s)) (admOf .weirWait r) x (r.operandA.setWidth 32) = effect (atStep (admitted r s))) :
    exec (.weirWait r) s = .next (settled (homeStep (admitted r s) r.station (Handle.hi r.handle) effect)) := by
  refine (exec_ready .weirWait r s h).trans (congrArg conclude ((weirAdm_waits hn).trans ?_))
  rw [homeStep_eq, he, ← homeStep_eq]

variable (hk : x.params.keeper = none)
include hk

/-- An arrival there is a step of the node too, where the weir is no keeper's (R354). -/
theorem weirAdm_arrives (op : Opcode) (hop : op ≠ .weirWait) :
    weirAdm (admitted r s) (admOf op r) = homeStep (admitted r s) r.station (Handle.hi r.handle) fun t =>
      if op = .weirArrive then
        nodeArrive t (admOf op r) x (r.operandA.setWidth 32) (if r.payload then some r.data else none)
      else nodeArriveWait t (admOf op r) x (r.operandA.setWidth 32) := by
  unfold weirAdm
  rw [show nodeFor (admitted r s) (admOf op r).n (admOf op r).handle = some x from hn]
  simp only [hk, Option.isSome_none, Bool.false_eq_true, if_false]
  split
  · exact absurd ‹_› hop
  · rfl

/-- WEIR_ARRIVE has the effect that the node's step has. -/
theorem exec_weirArrive_node (h : Ready .weirArrive r s)
    (he : nodeArrive (atStep (admitted r s)) (admOf .weirArrive r) x (r.operandA.setWidth 32)
      (if r.payload then some r.data else none) = effect (atStep (admitted r s))) :
    exec (.weirArrive r) s = .next (settled (homeStep (admitted r s) r.station (Handle.hi r.handle) effect)) := by
  refine (exec_ready .weirArrive r s h).trans (congrArg conclude ((weirAdm_arrives hn hk .weirArrive nofun).trans ?_))
  rw [homeStep_eq, if_pos rfl, he, ← homeStep_eq]

/-- So has WEIR_ARRIVE_WAIT. -/
theorem exec_weirArriveWait_node (h : Ready .weirArriveWait r s)
    (he : nodeArriveWait (atStep (admitted r s)) (admOf .weirArriveWait r) x (r.operandA.setWidth 32) =
      effect (atStep (admitted r s))) :
    exec (.weirArriveWait r) s = .next (settled (homeStep (admitted r s) r.station (Handle.hi r.handle) effect)) := by
  refine (exec_ready .weirArriveWait r s h).trans (congrArg conclude ((weirAdm_arrives hn hk .weirArriveWait nofun).trans ?_))
  rw [homeStep_eq, if_neg nofun, he, ← homeStep_eq]

end AtNode

/-! ## Arrivals (R165 to R168, Table 5.4) -/

section Refused

variable {s : State} {n agent : Nat} {x : Node} {e : BitVec 32} {data : Option Payload} {i : EndInfo}

/-- An agent is here unless the node is no member, the agent no participant, or its entry station another. -/
theorem agentHere_eq_false :
    agentHere s n x agent = false ↔ x.role = 0 ∨ (x.params.parts.indexOf agent).isNone ∨ entryOf s agent ≠ n := by
  rw [agentHere, ← Bool.not_eq_true]
  simp only [Bool.and_eq_true, bne_iff_ne, beq_iff_eq, Option.isSome_iff_ne_none, Option.isNone_iff_eq_none]
  tauto

/-- The status of a refused arrival has no refusal counter. -/
theorem ArrivalRefused.uncounted (h : ArrivalRefused s n x agent e data i) :
    i.status ≠ .badhandle ∧ i.status ≠ .quota := by
  cases h with
  | broken => exact brokenStatus_uncounted x.lost
  | _ => exact ⟨nofun, nofun⟩

/-- The conditions of a refused arrival exclude each other, and are the node's. -/
theorem ArrivalRefused.arrivalRefusal_eq (h : ArrivalRefused s n x agent e data i) :
    arrivalRefusal s n x agent e data = some i := by
  have hhere : agentHere s n x agent = true →
      ¬ (x.role = 0 ∨ (x.params.parts.indexOf agent).isNone ∨ entryOf s agent ≠ n) := fun ha hc =>
    Bool.false_ne_true ((agentHere_eq_false.2 hc).symm.trans ha)
  unfold arrivalRefusal epochDelta
  cases h with
  | failed hf => simp only [hf, if_true]; rfl
  | broken hf hb => simp only [hf, hb, Bool.false_eq_true, if_false, if_true]
  | stranger hf hb ha => simp only [hf, hb, agentHere_eq_false.1 ha, Bool.false_eq_true, if_false, if_true]; rfl
  | payload hf hb ha hd => simp only [hf, hb, hhere ha, hd, ne_eq, Bool.false_eq_true, if_false, not_false_iff, if_true]; rfl
  | again hf hb ha hd hle hc =>
    simp only [hf, hb, hhere ha, hd, hle, hc, ne_eq, not_true, Bool.false_eq_true, if_false, if_true]
  | ahead hf hb ha hd hge hlt =>
    simp only [hf, hb, hhere ha, hd, hlt, Nat.not_le.2 hge, ne_eq, not_true, Bool.false_eq_true, if_false, if_true]
  | past hf hb ha hd hge =>
    have hne : ¬ (e - x.open_).toNat ≤ 1 := by omega
    simp only [hf, hb, hhere ha, hd, hne, Nat.not_lt.2 hge, ne_eq, not_true, Bool.false_eq_true, if_false]

end Refused

/-- An arrival that is counted leaves the node with it in the bank of its epoch, and tells whether the bank is full. -/
theorem countArrival_eq (s : State) (n index agent : Nat) (x : Node) (e : BitVec 32) (data : Option Payload) :
    countArrival s n index x agent e data =
      (putNode s n index (arrivedAt x s.clock.fc (odd32 e) agent (mergedWith s x (x.bank (odd32 e)) data agent)),
        (arrivedAt x s.clock.fc (odd32 e) agent (mergedWith s x (x.bank (odd32 e)) data agent)).full (odd32 e)) := by
  cases data <;> rfl

section Arrive

variable {s : State} {r : OpRec} {x : Node} {e : BitVec 32}

/-- WEIR_ARRIVE that the node refuses is answered, and counted where it is STALE or AHEAD. -/
theorem nodeArrive_refused (op : Opcode) {data : Option Payload} {i : EndInfo}
    (hi : i.status ≠ .badhandle ∧ i.status ≠ .quota)
    (h : arrivalRefusal s r.station x r.agent.toNat e data = some i) :
    nodeArrive s (admOf op r) x e data =
      answeredAtNode op r (countStale s r.fnStamp.toNat i.status) (hiIndex x.hi) i := by
  have href : arrivalRefusal s (admOf op r).n x (admOf op r).agent e data = some i := h
  simp only [nodeArrive, href, answerNode_record op r _ _ hi]; rfl

/-- WEIR_ARRIVE that it accepts is counted, answered with the epoch and whether the bank is full, and the bank evaluated. -/
theorem nodeArrive_accepted (op : Opcode) {data : Option Payload}
    (h : arrivalRefusal s r.station x r.agent.toNat e data = none) :
    nodeArrive s (admOf op r) x e data =
      let u := weirTest s r.fnStamp.toNat x.params (r.release.toNat != 0) r.scope.toNat
      let y := arrivedAt x u.clock.fc (odd32 e) r.agent.toNat (mergedWith u x (x.bank (odd32 e)) data r.agent.toNat)
      checkNode (answeredAtNode op r (putNode u r.station (hiIndex x.hi) y) (hiIndex x.hi)
        ⟨.ok, BitVec.ofNat 64 e.toNat, BitVec.ofNat 64 (flag (y.full (odd32 e))), none, none⟩) r.station (hiIndex x.hi)
        (odd32 e) := by
  have href : arrivalRefusal s (admOf op r).n x (admOf op r).agent e data = none := h
  simp only [nodeArrive, href, countArrival_eq]
  rw [answerNode_record op r]
  · rfl
  · exact ⟨nofun, nofun⟩

/-- WEIR_ARRIVE_WAIT without a waiter record for its wait is refused with QUOTA (R172). -/
theorem nodeArriveWait_full (op : Opcode) (h : recordsFree s r.station r.fnStamp.toNat 1 = false) :
    nodeArriveWait s (admOf op r) x e = answered (countRefusal s r.fnStamp.toNat .quota) r (plain .quota) := by
  have hfree : recordsFree s (admOf op r).n (admOf op r).fn 1 = false := h
  simp only [nodeArriveWait, hfree, Bool.not_false, if_true]; rfl

variable (hfree : recordsFree s r.station r.fnStamp.toNat 1 = true)
include hfree

/-- With one, it is refused as WEIR_ARRIVE is. -/
theorem nodeArriveWait_refused (op : Opcode) {i : EndInfo}
    (hi : i.status ≠ .badhandle ∧ i.status ≠ .quota)
    (h : arrivalRefusal s r.station x r.agent.toNat e (if r.payload then some r.data else none) = some i) :
    nodeArriveWait s (admOf op r) x e =
      answeredAtNode op r (countStale s r.fnStamp.toNat i.status) (hiIndex x.hi) i := by
  have hfree : recordsFree s (admOf op r).n (admOf op r).fn 1 = true := hfree
  have href : arrivalRefusal s (admOf op r).n x (admOf op r).agent e (admOf op r).data = some i := h
  simp only [nodeArriveWait, hfree, href, answerNode_record op r _ _ hi, Bool.not_true, Bool.false_eq_true, if_false]; rfl

/-- Accepted, its wait is linked, the arrival counted and the bank evaluated. -/
theorem nodeArriveWait_accepted (op : Opcode)
    (h : arrivalRefusal s r.station x r.agent.toNat e (if r.payload then some r.data else none) = none) :
    nodeArriveWait s (admOf op r) x e =
      let u := linkWait (weirTest s r.fnStamp.toNat x.params (r.release.toNat != 0 || r.acquire.toNat != 0) r.scope.toNat)
        (admOf op r) (hiIndex x.hi) e
      checkNode (putNode u r.station (hiIndex x.hi) (arrivedAt x u.clock.fc (odd32 e) r.agent.toNat
        (mergedWith u x (x.bank (odd32 e)) (if r.payload then some r.data else none) r.agent.toNat))) r.station
        (hiIndex x.hi) (odd32 e) := by
  have hfree : recordsFree s (admOf op r).n (admOf op r).fn 1 = true := hfree
  have href : arrivalRefusal s (admOf op r).n x (admOf op r).agent e (admOf op r).data = none := h
  simp only [nodeArriveWait, hfree, href, countArrival_eq, Bool.not_true, Bool.false_eq_true, if_false]; rfl

end Arrive

/-- The epoch operand as an answer returns it is bits 31 to 0. -/
theorem ofNat_epoch (a : Word) : BitVec.ofNat 64 (a.setWidth 32).toNat = BitVec.ofNat 64 (a.toNat % 2 ^ 32) := by
  rw [BitVec.toNat_setWidth]

/-- A flag as an answer returns it. -/
theorem ofNat_flag (b : Bool) : (BitVec.ofNat 64 (flag b) : Word) = if b then 1 else 0 := by
  cases b <;> rfl

/-- The start of a step leaves open which arrivals are refused. -/
theorem arrivalRefusal_atStep (s : State) (n agent : Nat) (x : Node) (e : BitVec 32) (data : Option Payload) :
    arrivalRefusal (atStep s) n x agent e data = arrivalRefusal s n x agent e data := rfl

/-- Settles O8, by whether the node refuses the arrival, and for one that waits by whether its station has a waiter record. -/
theorem weirArrivals : Obligations.WeirArrivals := by
  unfold Obligations.WeirArrivals
  rintro r s x _ hn hk rfl
  refine ⟨fun i href => ⟨fun h => ?refused, fun h hfree => ?waitRefused⟩, fun h hfree => ?waitFull,
    fun haccept => ⟨fun h => ?arrives, fun h hfree => ?arrivesAndWaits⟩⟩
  case refused =>
    exact exec_weirArrive_node hn hk h (nodeArrive_refused .weirArrive href.uncounted
      ((arrivalRefusal_atStep ..).trans href.arrivalRefusal_eq))
  case waitRefused =>
    exact exec_weirArriveWait_node hn hk h (nodeArriveWait_refused hfree .weirArriveWait href.uncounted
      ((arrivalRefusal_atStep ..).trans href.arrivalRefusal_eq))
  case waitFull => exact exec_weirArriveWait_node hn hk h (nodeArriveWait_full .weirArriveWait hfree)
  case arrives =>
    simp only [← ofNat_epoch, ← ofNat_flag]
    exact exec_weirArrive_node hn hk h (nodeArrive_accepted .weirArrive haccept)
  case arrivesAndWaits => exact exec_weirArriveWait_node hn hk h (nodeArriveWait_accepted hfree .weirArriveWait haccept)

/-! ## Waits (R172, R173) -/

section WaitEnding

variable {x : Node} {e : BitVec 32} (hf : x.failed = false) (hb : x.broken = false)
include hf

/-- At a broken node a wait ends. -/
theorem waitEnding_broken (hb : x.broken = true) : waitEnding x e = some (plain (if x.lost then .linklost else .broken)) := by
  simp only [waitEnding, hf, hb, Bool.false_eq_true, if_false, if_true]

include hb

/-- On an epoch that has completed it ends with the latest result. -/
theorem waitEnding_past (h : 2 ^ 31 ≤ (e - x.open_).toNat) :
    waitEnding x e = some (weirEnd x.params true (x.open_ - 1) x.lastResult) := by
  simp only [waitEnding, epochDelta, hf, hb, h, Bool.false_eq_true, if_false, if_true]

/-- On one beyond the next it ends with the open epoch. -/
theorem waitEnding_ahead (hge : 2 ≤ (e - x.open_).toNat) (hlt : (e - x.open_).toNat < 2 ^ 31) :
    waitEnding x e = some ⟨.ahead, BitVec.ofNat 64 x.open_.toNat, 0, none, none⟩ := by
  simp only [waitEnding, epochDelta, hf, hb, hge, Nat.not_le.2 hlt, Bool.false_eq_true, if_false, if_true]

/-- On the open epoch and the next it does not end. -/
theorem waitEnding_open (h : (e - x.open_).toNat < 2) : waitEnding x e = none := by
  have hpast : ¬ 2 ^ 31 ≤ (e - x.open_).toNat := by omega
  simp only [waitEnding, epochDelta, hf, hb, hpast, Nat.not_le.2 h, Bool.false_eq_true, if_false]

end WaitEnding

/-- At a failed node a wait ends. -/
theorem waitEnding_failed {x : Node} (e : BitVec 32) (hf : x.failed = true) : waitEnding x e = some (plain .integrity) := by
  simp only [waitEnding, hf, if_true]

/-- The end of a wait on a completed epoch is not counted (Table 5.10). -/
theorem countStale_weirEnd (s : State) (f : Nat) (p : WeirParams) (hold : Bool) (latest : BitVec 32) (result : Payload) :
    countStale s f (weirEnd p hold latest result).status = s := rfl

section Wait

variable {s : State} {r : OpRec} {x : Node} {e : BitVec 32} (op : Opcode) (hr : x.pendingReply = false)
include hr

/-- A wait that ends at once is answered, and counted where it is AHEAD. -/
theorem nodeWait_ends {i : EndInfo} (h : waitEnding x e = some i) (hi : i.status ≠ .badhandle ∧ i.status ≠ .quota) :
    nodeWait s (admOf op r) x e = answeredAtNode op r (countStale s r.fnStamp.toNat i.status) (hiIndex x.hi) i := by
  simp only [nodeWait, hr, h, answerNode_record op r _ _ hi, Bool.false_eq_true, if_false]; rfl

variable (h : waitEnding x e = none)
include h

/-- One that does not is linked into its bank, where a waiter record is free. -/
theorem nodeWait_links (hfree : recordsFree s r.station r.fnStamp.toNat 1 = true) :
    nodeWait s (admOf op r) x e =
      linkWait (weirTest s r.fnStamp.toNat x.params (r.acquire.toNat != 0) r.scope.toNat) (admOf op r) (hiIndex x.hi) e := by
  have hfree : recordsFree s (admOf op r).n (admOf op r).fn 1 = true := hfree
  simp only [nodeWait, hr, h, hfree, Bool.false_eq_true, if_false, if_true]; rfl

/-- Where none is, it is refused with QUOTA. -/
theorem nodeWait_full (hfree : recordsFree s r.station r.fnStamp.toNat 1 = false) :
    nodeWait s (admOf op r) x e = answered (countRefusal s r.fnStamp.toNat .quota) r (plain .quota) := by
  have hfree : recordsFree s (admOf op r).n (admOf op r).fn 1 = false := hfree
  simp only [nodeWait, hr, h, hfree, Bool.false_eq_true, if_false]; rfl

end Wait

/-- WEIR_WAIT at a station without a node of the weir listens at the home that its chart names (R173). -/
theorem exec_weirWait_listens {r : OpRec} {s : State} {e : ChartEntry} (h : Ready .weirWait r s)
    (hn : nodeFor (admitted r s) r.station r.handle = none)
    (hc : chartAt (admitted r s) r.station (Handle.index r.handle) = some e) :
    exec (.weirWait r) s =
      conclude (listenWait (admitted r s) (admOf .weirWait r) e.home (r.operandA.setWidth 32)) := by
  have hadm : weirAdm (admitted r s) (admOf .weirWait r) =
      listenWait (admitted r s) (admOf .weirWait r) e.home (r.operandA.setWidth 32) := by
    have hn : nodeFor (admitted r s) (admOf .weirWait r).n (admOf .weirWait r).handle = none := hn
    have hc : chartAt (admitted r s) (admOf .weirWait r).n (Handle.index (admOf .weirWait r).handle) = some e := hc
    simp only [weirAdm, homeOf, hn, hc, Option.isSome_some, if_true]; rfl
  exact (exec_ready .weirWait r s h).trans (congrArg conclude hadm)

section Listen

variable {s : State} {r : OpRec} (op : Opcode) (home : Nat) (e : BitVec 32)

/-- Without records for the listener's node and its wait, the wait is refused with QUOTA. -/
theorem listenWait_full (hfree : recordsFree s r.station r.fnStamp.toNat 2 = false) :
    listenWait s (admOf op r) home e = answered (countRefusal s r.fnStamp.toNat .quota) r (plain .quota) := by
  have hfree : recordsFree s (admOf op r).n (admOf op r).fn 2 = false := hfree
  simp only [listenWait, hfree, Bool.not_false, if_true]; rfl

variable (hfree : recordsFree s r.station r.fnStamp.toNat 2 = true)
include hfree

/-- With them, it takes a listener's node and a record, and subscribes. -/
theorem listenWait_subscribes (hx : nodeAt s r.station (Handle.index r.handle) = none) :
    listenWait s (admOf op r) home e =
      send (takeWaiter (putNode s r.station (Handle.index r.handle) (listenerNode s (Handle.hi r.handle) home r.station))
          (admOf op r) 0 .pending (.listener (Handle.index r.handle) e)).1 r.station home (.subscribe r.handle) := by
  have hfree : recordsFree s (admOf op r).n (admOf op r).fn 2 = true := hfree
  have hx : nodeAt s (admOf op r).n (Handle.index (admOf op r).handle) = none := hx
  simp only [listenWait, hfree, hx, Option.isSome_none, Bool.not_true, Bool.false_eq_true, if_false]; rfl

/-- Where another weir's node has the index, the listener's node stands beside it. -/
theorem listenWait_beside (hx : (nodeAt s r.station (Handle.index r.handle)).isSome = true) :
    listenWait s (admOf op r) home e =
      send (takeWaiter (onStation s r.station fun st => { st with
            nodes := tput st.nodes (strayKey (Handle.hi r.handle)) (listenerNode s (Handle.hi r.handle) home r.station) })
          (admOf op r) 0 .pending (.listener (Handle.index r.handle) e)).1 r.station home (.subscribe r.handle) := by
  have hfree : recordsFree s (admOf op r).n (admOf op r).fn 2 = true := hfree
  have hx : (nodeAt s (admOf op r).n (Handle.index (admOf op r).handle)).isSome = true := hx
  simp only [listenWait, hfree, hx, Bool.not_true, Bool.false_eq_true, if_false, if_true]; rfl

end Listen

/-- Settles O9, by whether the station has a node of the weir: there by how the epoch stands at it, else by the room for a
listener. -/
theorem weirWaits_holds : Obligations.WeirWaits := by
  unfold Obligations.WeirWaits
  intro r s h
  refine ⟨fun x i hn hr hi => ?ends, fun x hn hr hf hb => ⟨fun hpast => ?past, fun hopen hfree => ?full,
    fun hopen hfree => ?links⟩, fun e hn hc hx hfree => ?subscribes, fun e hn hc hx hfree => ?beside,
    fun e hn hc hfree => ?listenerFull⟩
  case ends =>
    obtain ⟨hf, rfl⟩ | ⟨hf, hb, rfl⟩ | ⟨hf, hb, hge, hlt, rfl⟩ := hi
    · exact exec_weirWait_node hn h (nodeWait_ends .weirWait hr (waitEnding_failed _ hf) ⟨nofun, nofun⟩)
    · exact exec_weirWait_node hn h
        (nodeWait_ends .weirWait hr (waitEnding_broken hf hb) (brokenStatus_uncounted x.lost))
    · exact exec_weirWait_node hn h (nodeWait_ends .weirWait hr (waitEnding_ahead hf hb hge hlt) ⟨nofun, nofun⟩)
  case past =>
    refine exec_weirWait_node hn h
      ((nodeWait_ends .weirWait hr (waitEnding_past hf hb hpast) (weirEnd_uncounted x.params true _ _)).trans ?_)
    rw [countStale_weirEnd]
  case full => exact exec_weirWait_node hn h (nodeWait_full .weirWait hr (waitEnding_open hf hb hopen) hfree)
  case links => exact exec_weirWait_node hn h (nodeWait_links .weirWait hr (waitEnding_open hf hb hopen) hfree)
  case subscribes =>
    exact (exec_weirWait_listens h hn hc).trans (congrArg conclude (listenWait_subscribes .weirWait _ _ hfree hx))
  case beside =>
    exact (exec_weirWait_listens h hn hc).trans (congrArg conclude (listenWait_beside .weirWait _ _ hfree hx))
  case listenerFull =>
    exact (exec_weirWait_listens h hn hc).trans (congrArg conclude (listenWait_full .weirWait _ _ hfree))

/-! ## WEIR_READ and WEIR_POLICY (R174, R175) -/

/-- An operation on a weir that has not failed, other than DESTROY and CANCEL, is the weir's. -/
theorem runOn_weir (s : State) (n : Nat) {o : Obj} {w : Weir} (f : FwdOp) (hb : o.body = .weir w) (hf : o.failed = false)
    (hd : f.op ≠ .destroy) (hc : f.op ≠ .cancel) : runOn s n o f = homeWeir s n o w f := by
  simp only [runOn, hd, hc, hf, hb, Bool.false_eq_true, if_false]

/-- So it is for a record that meets its weir at its own station. -/
theorem exec_weirHere (op : Opcode) {r : OpRec} {s : State} {o : Obj} {w : Weir} (hb : o.body = .weir w)
    {effect : State → Obj → FwdOp → State} (ho : ordinary op = true) (hd : op ≠ .destroy) (h : MeetsHere op r s o)
    (he : ∀ t o', o'.hi = o.hi → homeWeir t r.station o' w (travelling op r (admitted r s) 0) =
      effect t o' (travelling op r (admitted r s) 0)) :
    exec (recordCommand op r) s = .next (settled (doneHere op r s o effect)) := by
  have hc : op ≠ .cancel := by rintro rfl; exact absurd ho (by decide)
  refine exec_meetsHere_as op r s o ho h fun t o' hbody hhi hfailed => ?_
  rw [runOn_weir t r.station _ (hbody.trans hb) hfailed hd hc, he t o' hhi]

section AtHome

variable (s : State) (n : Nat) (o : Obj) (w : Weir) {f : FwdOp}

/-- WEIR_READ answers the open epoch, the count and state, and the latest result. -/
theorem homeWeir_weirRead (hop : f.op = .weirRead) :
    homeWeir s n o w f = answer s n f ⟨.ok, BitVec.ofNat 64 w.openEpoch.toNat,
      BitVec.ofNat 64 (w.resultCount * 2 ^ 32 + w.state), some w.result, none⟩ := by
  simp only [homeWeir, hop]

/-- WEIR_POLICY with a payload of its two fields alone sets the policy at every node of the weir. -/
theorem homeWeir_weirPolicy (hop : f.op = .weirPolicy) {p : Payload} (hp : f.data = some p) (hrest : payloadNat p 8 56 = 0)
    (hv : payloadNat p 0 8 = payloadNat p 0 8 % 2 + payloadNat p 0 8 / 2 ^ 16 % 2 ^ 16 * 2 ^ 16) :
    homeWeir s n o w f =
      reply (hintPolicy s o.hi (payloadNat p 0 8 % 2 == 1) (payloadNat p 0 8 / 2 ^ 16 % 2 ^ 16)) n f 0 0 := by
  have hok : ¬ (payloadNat p 8 56 ≠ 0 ∨
      payloadNat p 0 8 ≠ payloadNat p 0 8 % 2 + payloadNat p 0 8 / 2 ^ 16 % 2 ^ 16 * 2 ^ 16) := by
    rintro (h | h)
    · exact h hrest
    · exact h hv
  simp only [homeWeir, hop, weirPolicy, hp]
  exact if_neg hok

end AtHome

/-- Settles O10, by the operation. -/
theorem weirReadPolicy : Obligations.WeirReadPolicy := by
  unfold Obligations.WeirReadPolicy
  intro r s o w hb
  refine ⟨fun h => ?read, fun h hp hrest hv => ?policy⟩
  case read => exact exec_weirHere .weirRead hb rfl nofun h fun t o' _ => homeWeir_weirRead t r.station o' w rfl
  case policy =>
    refine exec_weirHere .weirPolicy hb rfl nofun h fun t o' hhi => ?_
    rw [← hhi]
    exact homeWeir_weirPolicy t r.station o' w rfl (if_pos hp) hrest hv

/-! ## Setups (R163, R182) -/

section TakeSetup

variable {s : State} {n src home : Nat} {h : Word} {p : WeirParams} {x : Node}

/-- A setup that a station takes reaches it. -/
theorem exec_weirSetup {moving : Bool} {rest : List Msg} (ht : TakesMsg s src n (.setup h p home moving) rest) :
    exec (.weirSetup src n) s = conclude (takeSetup (taken s n rest) n src h p home moving) := by
  show execWeirSetup src n s = _
  exact arrives_takes s src n _ rest _ _ 3 rfl ht rfl

section Member

variable (hm : (membersOf s p.parts home).contains n = true) (hne : n ≠ home)
  (hx : x = newNode s (Handle.hi h) p home n 0)
include hm hne hx

/-- A member with room takes its node and acknowledges. -/
theorem takeSetup_room (hq : nodeQuota s (Handle.fn h) x n 0 = true) :
    takeSetup s n src h p home false = send (putNode s n (Handle.index h) x) n src (.setupAck h false) := by
  subst hx
  simp only [takeSetup, hm, bne_iff_ne.2 hne, hq, Bool.and_self, Bool.false_eq_true, if_false, if_true]

/-- One without refuses. -/
theorem takeSetup_noRoom (hq : nodeQuota s (Handle.fn h) x n 0 = false) :
    takeSetup s n src h p home false =
      send (countSlotRefusal s n (Handle.fn h) x 0) n src (.setupAck h true) := by
  subst hx
  simp only [takeSetup, hm, bne_iff_ne.2 hne, hq, Bool.and_self, Bool.false_eq_true, if_false, if_true]

end Member

section Moving

variable (hx : nodeFor s n h = some x) (hne : n ≠ home)
include hx hne

/-- A listener learns the new home of a weir that moves. -/
theorem takeSetup_movingListener (hr : x.role = 0) :
    takeSetup s n src h p home true = putNode s n (Handle.index h) { x with home := home } := by
  simp only [takeSetup, hx, hne, hr, if_true, if_false]

/-- A member takes its place in the tree of the new home. -/
theorem takeSetup_movingMember (hr : x.role ≠ 0) :
    takeSetup s n src h p home true = putNode s n (Handle.index h) { x with
      home := home, role := 1, parent := parentOf s p.parts home n
      children := (childrenOf s p.parts home n).length, local_ := localCount s p.parts n } := by
  simp only [takeSetup, hx, hne, hr, if_true, if_false]

end Moving

end TakeSetup

section Acknowledged

variable {s : State} {home src : Nat} {h : Word} {j : Job} {waiting : List Nat} {r : Bool} (refused : Bool)
  (hj : jobOf s home (Handle.hi h) = some j) (hk : j.kind = .weirCreate waiting r)
include hj hk

/-- The last member's answer forms the weir. -/
theorem setupAnswered_last (hl : waiting.filter (· != src) = []) :
    setupAnswered s home src h refused = weirFormed s home j (r || refused) := by
  simp only [setupAnswered, hj, hk, hl, List.isEmpty_nil, if_true]

/-- Any other is counted. -/
theorem setupAnswered_counts (hl : waiting.filter (· != src) ≠ []) :
    setupAnswered s home src h refused =
      setJob s home { j with kind := .weirCreate (waiting.filter (· != src)) (r || refused) } := by
  simp only [setupAnswered, hj, hk, List.isEmpty_iff, hl, if_false]

end Acknowledged

/-- A setup's acknowledgement is a step of the weir's home. -/
theorem exec_setupAcknowledgement {s : State} {src dst : Nat} {h : Word} {refused : Bool} {rest : List Msg}
    (ht : TakesMsg s src dst (.setupAck h refused) rest) :
    exec (.setupAcknowledgement src dst) s =
      conclude (stepOn (taken s dst rest) dst h (setupAnswered (atStep (taken s dst rest)) dst src h refused)) := by
  show execSetupAcknowledgement src dst s = _
  exact arrives_takes s src dst _ rest _ _ 2 rfl ht rfl

/-- Settles O34: a creation's setup by the member's room, a move's by the node's role, and an acknowledgement by whether it is
the last. -/
theorem weirSetups : Obligations.WeirSetups := by
  unfold Obligations.WeirSetups
  refine ⟨?setup, ?moved, ?acknowledged⟩
  case setup =>
    intro s src dst home h p rest x ht hm hne hx
    rw [exec_weirSetup ht]
    refine ⟨fun hq => ?_, fun hq => ?_⟩
    · rw [takeSetup_room hm hne hx hq, conclude]
    · rw [takeSetup_noRoom hm hne hx hq, conclude]
  case moved =>
    rintro s _ src dst home h p rest x ht rfl hx hne
    rw [exec_weirSetup ht]
    refine ⟨fun hr => ?_, fun hr => ?_⟩
    · rw [takeSetup_movingListener hx hne hr, conclude]
    · rw [takeSetup_movingMember hx hne hr, conclude]
  case acknowledged =>
    rintro s _ src dst h refused r rest j members ht rfl hj hk
    rw [exec_setupAcknowledgement ht]
    refine ⟨fun hl => ?_, fun hl => ?_⟩
    · rw [setupAnswered_last refused hj hk hl, conclude]
    · rw [setupAnswered_counts refused hj hk hl, conclude]

/-! ## The tree of a weir (R168, R170, R177) -/

section Combined

variable {s : State} {n src segment last : Nat} {h : Word} {odd lost : Bool} {d : Option Payload} {x : Node}
  (hx : nodeFor s n h = some x) (hr : x.role ≠ 0)
include hx hr

/-- A child's report counts in its bank, and the bank is evaluated. -/
theorem combinedArrives_counts (hb : x.broken = false) :
    combinedArrives s n src h odd false lost segment last d =
      checkNode (putNode s n (Handle.index h) (countReport x src odd segment last d false)) n (Handle.index h) odd := by
  simp only [combinedArrives, hx, hr, hb, Bool.false_eq_true, if_false]

/-- A break takes effect at the node. -/
theorem combinedArrives_breaks :
    combinedArrives s n src h odd true lost segment last d = breakNode s n (Handle.index h) lost := by
  simp only [combinedArrives, hx, hr, if_true, if_false]

end Combined

/-- A combined arrival is a step of the station on the weir. -/
theorem exec_combinedArrival {s : State} {src dst segment last : Nat} {h : Word} {odd break_ lost : Bool} {d : Option Payload}
    {rest : List Msg} (ht : TakesMsg s src dst (.combined h odd break_ lost segment last d) rest) :
    exec (.combinedArrival src dst) s = conclude (stepOn (taken s dst rest) dst h
      (combinedArrives (atStep (taken s dst rest)) dst src h odd break_ lost segment last d)) := by
  show execCombinedArrival src dst s = _
  exact arrives_takes s src dst _ rest _ _ 2 rfl ht rfl

section Completion

variable {s : State} {n : Nat} {h : Word} {odd : Bool} {result : Payload} {x : Node} (hx : nodeFor s n h = some x)
include hx

/-- A completion with outcome OK advances the node. -/
theorem completionArrives_ok :
    completionArrives s n h .ok odd result = nodeCompletes s n (Handle.index h) x odd result false := by
  simp only [completionArrives, hx]

/-- One with another outcome breaks it. -/
theorem completionArrives_breaks {st : Status} (hst : st ≠ .ok) :
    completionArrives s n h st odd result = nodeBreaks s n (Handle.index h) x odd (st == .linklost) false := by
  simp only [completionArrives, hx]
  split
  · exact absurd rfl hst
  · rfl
  · rename_i hlost
    rw [beq_false_of_ne hlost]

end Completion

/-- A completion that a station takes reaches its node. -/
theorem exec_epochCompletion {s : State} {src dst : Nat} {h : Word} {st : Status} {odd : Bool} {result : Payload}
    {rest : List Msg} (ht : TakesMsg s src dst (.completion h st odd result) rest) :
    exec (.epochCompletion src dst) s = conclude (completionArrives (taken s dst rest) dst h st odd result) := by
  show execEpochCompletion src dst s = _
  exact arrives_takes s src dst _ rest _ _ 3 rfl ht rfl

/-! ## The throttle hint (R187, R189) -/

/-- The output rises once a node is late, where it is low and not held off. -/
theorem hintAsserts_late {s u : State} {n index since : Nat} {x : Node} (hx : nodeAt s n index = some x)
    (hs : x.hintSince = some since) (hu : u = passToFc s (since + x.overdue s)) (hlate : x.late u = true)
    (hlow : (station u n).hint.level = false) (hheld : (station u n).hint.blockedTill ≤ u.clock.fc) :
    hintAsserts s n index = bump (onStation u n fun st => { st with hint := { st.hint with
      level := true, since := u.clock.fc, longest := x.longest u } }) 0x250303 := by
  subst hu
  simp only [hintAsserts, hx, hs, hlate, hlow, hheld, Bool.not_false, Bool.and_self, decide_true, if_true, onStation]

/-- It falls after its time, and stays low as long. -/
theorem hintMaxed_high {s t : State} {n : Nat} (hhigh : (station s n).hint.level = true)
    (ht : t = passToFc s ((station s n).hint.since + (station s n).hint.longest)) :
    hintMaxed s n = onStation t n fun x =>
      { x with hint := ⟨false, x.hint.since, t.clock.fc + (station s n).hint.longest, (station s n).hint.longest⟩ } := by
  subst ht
  simp only [hintMaxed, hhigh, if_true]

/-- Settles O35: a combined arrival by whether it is a break, a completion by its outcome, and the two deadlines of the hint. -/
theorem weirTree : Obligations.WeirTree := by
  unfold Obligations.WeirTree
  refine ⟨?combined, ?completion, ?overdue, ?longest⟩
  case combined =>
    intro s src dst segment last h odd break_ lost d rest x ht hx
    rw [exec_combinedArrival ht]
    refine ⟨?_, ?_⟩
    · rintro rfl hb hr
      rw [combinedArrives_counts hx hr hb, conclude]
    · rintro rfl hr
      rw [combinedArrives_breaks hx hr, conclude]
  case completion =>
    intro s src dst h st odd result rest x ht hx
    rw [exec_epochCompletion ht]
    refine ⟨?_, fun hst => ?_⟩
    · rintro rfl
      rw [completionArrives_ok hx, conclude]
    · rw [completionArrives_breaks hx hst, conclude]
  case overdue =>
    intro s n index since x htakes hx hs hlate hlow hheld
    exact congrArg conclude ((if_pos htakes).trans (hintAsserts_late hx hs rfl hlate hlow hheld))
  case longest =>
    intro s t n htakes hhigh ht
    exact congrArg conclude ((if_pos htakes).trans (hintMaxed_high hhigh ht))

/-! ## Listeners and teardowns (R173, R180, R588) -/

/-- A subscribe that finds its weir notes a new listener, and tells it where the weir stands. -/
theorem subscribeArrives_new {s : State} {n src : Nat} {h : Word} {o : Obj} {w : Weir} (ho : liveObj s n h = some o)
    (hb : o.body = .weir w) (hnew : w.listeners.contains src = false) :
    subscribeArrives s n src h =
      send (setObj s n (Handle.index h) { o with body := .weir { w with listeners := w.listeners ++ [src] } }) n src
        (.subscribeReply h w.params w.openEpoch (if o.failed then failedState else w.state) w.result) := by
  simp only [subscribeArrives, ho, hb, hnew, Bool.false_eq_true, if_false]

/-- A reply for a weir that does not publish, at a listener without waits, is all that its node learns. -/
theorem subscribed_noWaits {s : State} {n st : Nat} {h : Word} {p : WeirParams} {e : BitVec 32} {result : Payload} {x : Node}
    (hx : nodeFor s n h = some x) (hp : p.publish = none)
    (hw : (weirWaits s n (Handle.index h) x.hi).filter (fun w => w.phase == .pending) = []) :
    subscribed s n h p e st result = putNode s n (Handle.index h)
      { x with params := p, open_ := e, broken := st == 2 || st == 3, lost := st == 3,
               lastResult := result, pendingReply := false, failed := x.failed || st == failedState } := by
  simp only [subscribed, hx, hw, hp, List.foldl_nil]

/-- A teardown ends a station's waits, frees its node and is acknowledged. -/
theorem teardownArrives_node {s : State} {n src : Nat} {h : Word} {x : Node} (hx : nodeFor s n h = some x) :
    teardownArrives s n src h =
      send (dropNodeOf (endWaits s n (weirWaits s n (Handle.index h) x.hi) fun _ => plain .badhandle) n x) n src
        (.teardownAck h) := by
  simp only [teardownArrives, hx]

section TornDown

variable {s : State} {home src : Nat} {hi : BitVec 40} {j : Job} {waiting : List Nat} {word : Option Nat}
  {keeper : Option (BitVec 40)} (hj : jobOf s home hi = some j) (hk : j.kind = .weirDestroy waiting word keeper)
include hj hk

/-- The last acknowledgement of a teardown ends the weir. -/
theorem teardownAcked_last (hl : waiting.filter (· != src) = []) :
    teardownAcked s home src hi = weirGone s home j word keeper := by
  simp only [teardownAcked, hj, hk, hl, List.isEmpty_nil, if_true]

/-- Any other is counted. -/
theorem teardownAcked_counts (hl : waiting.filter (· != src) ≠ []) :
    teardownAcked s home src hi =
      setJob s home { j with kind := .weirDestroy (waiting.filter (· != src)) word keeper } := by
  simp only [teardownAcked, hj, hk, List.isEmpty_iff, hl, if_false]

end TornDown

section Messages

variable {s : State} {src dst : Nat} {h : Word} {rest : List Msg}

/-- A subscribe is a step of the station on the weir. -/
theorem exec_weirSubscribe (ht : TakesMsg s src dst (.subscribe h) rest) :
    exec (.weirSubscribe src dst) s =
      conclude (stepOn (taken s dst rest) dst h (subscribeArrives (atStep (taken s dst rest)) dst src h)) := by
  show execWeirSubscribe src dst s = _
  exact arrives_takes s src dst _ rest _ _ 2 rfl ht rfl

/-- A reply reaches its listener. -/
theorem exec_subscribeReply {p : WeirParams} {e : BitVec 32} {st : Nat} {result : Payload}
    (ht : TakesMsg s src dst (.subscribeReply h p e st result) rest) :
    exec (.subscribeReply src dst) s = conclude (subscribed (taken s dst rest) dst h p e st result) := by
  show execSubscribeReply src dst s = _
  exact arrives_takes s src dst _ rest _ _ 3 rfl ht rfl

/-- A teardown reaches a station's node. -/
theorem exec_teardown {all : Bool} (ht : TakesMsg s src dst (.teardown h all) rest) :
    exec (.teardown src dst) s = conclude (teardownArrives (taken s dst rest) dst src h) := by
  show execTeardown src dst s = _
  exact arrives_takes s src dst _ rest _ _ 3 rfl ht rfl

/-- Its acknowledgement is a step of the weir's home. -/
theorem exec_teardownAck (ht : TakesMsg s src dst (.teardownAck h) rest) :
    exec (.teardownAck src dst) s =
      conclude (stepOn (taken s dst rest) dst h (teardownAcked (atStep (taken s dst rest)) dst src (Handle.hi h))) := by
  show execTeardownAck src dst s = _
  exact arrives_takes s src dst _ rest _ _ 2 rfl ht rfl

end Messages

/-- Settles O36, by the message; an acknowledgement by whether it is the last. -/
theorem weirListeners : Obligations.WeirListeners := by
  unfold Obligations.WeirListeners
  refine ⟨?subscribe, ?replied, ?teardown, ?acknowledged⟩
  case subscribe =>
    intro s src dst h rest o w ht ho hb hnew
    rw [exec_weirSubscribe ht, subscribeArrives_new ho hb hnew, conclude]
  case replied =>
    intro s src dst st h p e result rest x ht hx hp hw
    rw [exec_subscribeReply ht, subscribed_noWaits hx hp hw, conclude]
  case teardown =>
    intro s src dst h all rest x ht hx
    rw [exec_teardown ht, teardownArrives_node hx, conclude]
  case acknowledged =>
    rintro s _ src dst h rest j l word keeper ht rfl hj hk
    rw [exec_teardownAck ht]
    refine ⟨fun hl => ?_, fun hl => ?_⟩
    · rw [teardownAcked_last hj hk hl, conclude]
    · rw [teardownAcked_counts hj hk hl, conclude]

end Sys2Proof.Machine
end

/-!
PROOFS of confluence arithmetic (chapter 06): the order of merging, and partials that travel as segments.
-/

section
namespace Sys2Proof.Machine

/-! ## Numbers and their bytes -/

@[simp] theorem length_bytesLE (n v : Nat) : (bytesLE n v).length = n := by
  induction n generalizing v with
  | zero => rfl
  | succ n ih => simp [bytesLE, ih]

/-- Bytes spell a number that fits in them. -/
theorem ofBytesLE_lt (l : List Byte) : ofBytesLE l < 256 ^ l.length := by
  induction l with
  | nil => simp [ofBytesLE]
  | cons b l ih =>
    have hb := b.isLt
    simp only [ofBytesLE, List.length_cons, pow_succ]
    omega

/-- The bytes of a number that fits in them spell it. -/
theorem ofBytesLE_bytesLE {n v : Nat} (h : v < 256 ^ n) : ofBytesLE (bytesLE n v) = v := by
  induction n generalizing v with
  | zero => simp only [pow_zero] at h; simp only [bytesLE, ofBytesLE]; omega
  | succ n ih =>
    rw [pow_succ] at h
    rw [bytesLE, ofBytesLE, ih (by omega), BitVec.toNat_ofNat]
    omega

/-- The bytes that spell a number are its bytes. -/
theorem bytesLE_ofBytesLE (l : List Byte) : bytesLE l.length (ofBytesLE l) = l := by
  induction l with
  | nil => rfl
  | cons b l ih =>
    have hb := b.isLt
    have hdiv : (b.toNat + 256 * ofBytesLE l) / 256 = ofBytesLE l := by omega
    have hlow : BitVec.ofNat 8 (b.toNat + 256 * ofBytesLE l) = b := BitVec.eq_of_toNat_eq (by rw [BitVec.toNat_ofNat]; omega)
    rw [ofBytesLE, List.length_cons, bytesLE, hdiv, ih, hlow]

/-- A number read from a payload fits in its bytes. -/
theorem payloadNat_lt (p : Payload) (i n : Nat) : payloadNat p i n < 256 ^ n := by
  refine (ofBytesLE_lt _).trans_le (Nat.pow_le_pow_right (by decide) ?_)
  rw [List.length_take]
  exact Nat.min_le_left ..

/-! ## Formats (Table 6.2) -/

/-- The formats are those of Table 6.2; of a code beyond them one lane fills a contribution. -/
theorem format_cases (code : Nat) :
    code < 8 ∨ floatFmt code = none ∧ laneWidth code = 512 ∧ compactWord code = (128, 0) := by
  rcases Nat.lt_or_ge code 8 with h | h
  · exact .inl h
  · obtain ⟨k, rfl⟩ := Nat.exists_eq_add_of_le' h
    exact .inr ⟨rfl, rfl, rfl⟩

/-- A lane is a number of whole bytes, of which 64 hold every lane of a contribution. -/
theorem laneWidth_bytes (code : Nat) :
    laneWidth code = 8 * (laneWidth code / 8) ∧ laneWidth code / 8 * laneCount code = 64 ∧ 0 < laneWidth code ∧
      0 < laneCount code ∧ laneCount code ≤ 64 := by
  rcases format_cases code with h | ⟨-, h, -⟩
  · revert code; decide
  · simp only [laneCount, h]; decide

/-- The numbers that fit in the bytes of a lane are those of its width. -/
theorem pow_laneBytes (code : Nat) : 256 ^ (laneWidth code / 8) = 2 ^ laneWidth code := by
  have h : laneWidth code = 8 * (laneWidth code / 8) := (laneWidth_bytes code).1
  rw [show 256 = 2 ^ 8 from rfl, ← pow_mul, ← h]

/-- A floating-point format's code is one of five. -/
theorem floatFmt_code {code : Nat} (h : (floatFmt code).isSome = true) : code ∈ [1, 2, 3, 4, 5] := by
  rcases format_cases code with hc | ⟨hn, -⟩
  · exact (by decide : ∀ c < 8, (floatFmt c).isSome = true → c ∈ [1, 2, 3, 4, 5]) code hc h
  · simp [hn] at h

/-- A floating-point format has its lanes' width, and its canonical NaN is a NaN of that width. -/
theorem floatFmt_facts {code : Nat} {f : FloatFmt} (h : floatFmt code = some f) :
    f.width = laneWidth code ∧ f.isNan f.nan = true ∧ f.nan < 2 ^ laneWidth code := by
  have hc := floatFmt_code (Option.isSome_of_eq_some h)
  simp only [List.mem_cons, List.not_mem_nil, or_false] at hc
  rcases hc with rfl | rfl | rfl | rfl | rfl <;> (cases h; decide)

/-- Whether an element is a NaN of its format. -/
def nanOf (code x : Nat) : Bool := match floatFmt code with | some f => f.isNan x | none => false

/-! ## The lanes of an order of merging (R192, R198) -/

/-- Element `k` of a contribution. -/
def elementOf (code : Nat) (p : Payload) (k : Nat) : Nat := payloadNat p (k * (laneWidth code / 8)) (laneWidth code / 8)

/-- An element has the width of its lane. -/
theorem elementOf_lt (code : Nat) (p : Payload) (k : Nat) : elementOf code p k < 2 ^ laneWidth code := by
  rw [← pow_laneBytes]; exact payloadNat_lt ..

/-- Lane `k` of what an order leaves in the bank. -/
def MergeTree.lane (op code k : Nat) : MergeTree → Lane
  | .leaf p i => elementLane op code (elementOf code p k) i
  | .node a b => mergeLane op code (a.lane op code k) (b.lane op code k)

/-- The lanes of a contribution. -/
theorem contribution_lanes (op code : Nat) (p : Payload) (i : Nat) : (contribution op code p i).lanes =
    (List.range (laneCount code)).map fun k => elementLane op code (elementOf code p k) i := by
  simp only [contribution, lanesOf, List.map_map]; rfl

/-- A contribution has at most 64 non-finite elements, and of an integer format none. -/
theorem contribution_nf (op code : Nat) (p : Payload) (i : Nat) :
    (contribution op code p i).nf ≤ 64 ∧ (floatFmt code = none → (contribution op code p i).nf = 0) := by
  obtain ⟨-, -, -, -, hcount⟩ := laneWidth_bytes code
  refine ⟨?_, fun h => by simp only [contribution, h]⟩
  simp only [contribution]
  split
  · exact (List.length_filter_le ..).trans (by simpa [lanesOf, laneCount] using hcount)
  · exact Nat.zero_le _

/-- Two partials with lanes merge lane by lane, and their counts saturate (R205). -/
theorem mergePartial_lanes {op code n : Nat} (hn : 0 < n) (f g : Nat → Lane) (x y : Nat) :
    mergePartial op code ⟨(List.range n).map f, x⟩ ⟨(List.range n).map g, y⟩ =
      ⟨(List.range n).map fun k => mergeLane op code (f k) (g k), min 0xFFFFFFFF (x + y)⟩ := by
  have h : ∀ f : Nat → Lane, ((List.range n).map f).isEmpty = false := fun f => by simp; omega
  simp only [mergePartial, h, Bool.false_eq_true, if_false, List.zipWith_map, List.zipWith_self]

/-- The non-finite elements of an order's contributions. -/
def MergeTree.nonfinite (op code : Nat) (t : MergeTree) : Nat := (t.leaves.map fun x => (contribution op code x.1 x.2).nf).sum

/-- What an order leaves in the bank: its lanes, and the saturated count of its non-finite elements. -/
theorem MergeTree.partial_eq (op code : Nat) (t : MergeTree) : t.partial_ op code =
    ⟨(List.range (laneCount code)).map fun k => t.lane op code k, min 0xFFFFFFFF (t.nonfinite op code)⟩ := by
  obtain ⟨-, -, -, hpos, -⟩ := laneWidth_bytes code
  induction t with
  | leaf p i =>
    have hnf := (contribution_nf op code p i).1
    simp only [MergeTree.nonfinite, MergeTree.leaves, List.map_cons, List.map_nil, List.sum_cons, List.sum_nil, Nat.add_zero]
    rw [Nat.min_eq_right (by omega)]
    exact congrArg (Partial.mk · (contribution op code p i).nf) (contribution_lanes op code p i)
  | node a b iha ihb =>
    rw [MergeTree.partial_, iha, ihb, mergePartial_lanes hpos]
    have hsum : (a.node b).nonfinite op code = a.nonfinite op code + b.nonfinite op code := by
      simp only [MergeTree.nonfinite, MergeTree.leaves, List.map_append, List.sum_append]
    rw [hsum]
    congr 1
    omega

/-- What holds of the lane of every element, and of two merged lanes of which it holds, holds of the lane of an order; `n`
counts the contributions. -/
theorem MergeTree.lane_induct {op code k : Nat} (P : Nat → Lane → Prop) (t : MergeTree)
    (hleaf : ∀ x ∈ t.leaves, P 1 (elementLane op code (elementOf code x.1 k) x.2))
    (hnode : ∀ m n a b, P m a → P n b → P (m + n) (mergeLane op code a b)) : P t.leaves.length (t.lane op code k) := by
  induction t with
  | leaf p i => exact hleaf (p, i) (by simp [MergeTree.leaves])
  | node a b iha ihb =>
    simp only [MergeTree.leaves, List.mem_append] at hleaf
    rw [MergeTree.leaves, List.length_append]
    exact hnode _ _ _ _ (iha fun x hx => hleaf x (.inl hx)) (ihb fun x hx => hleaf x (.inr hx))

section Order

variable {α : Type} {op code : Nat} (φ : Lane → α) (f : α → α → α) [Std.Associative f]
  (hφ : ∀ l m, φ (mergeLane op code l m) = f (φ l) (φ m))
include hφ

/-- A measure of lanes that merging combines by an associative operation is combined from the contributions' elements. -/
theorem MergeTree.lane_foldr (k : Nat) (t : MergeTree) : some (φ (t.lane op code k)) =
    (t.leaves.map fun x => some (φ (elementLane op code (elementOf code x.1 k) x.2))).foldr (Option.merge f) none := by
  induction t with
  | leaf p i => simp [MergeTree.leaves, MergeTree.lane]
  | node a b iha ihb =>
    rw [MergeTree.lane, hφ, ← Option.merge_some_some (f := f), iha, ihb, MergeTree.leaves, List.map_append, List.foldr_append,
      ← List.foldr_assoc (op := Option.merge f), Option.merge_none_left]

/-- Where that operation commutes too, the measure is the same in every order. -/
theorem MergeTree.lane_order [Std.Commutative f] (k : Nat) {a b : MergeTree} (h : a.leaves.Perm b.leaves) :
    φ (a.lane op code k) = φ (b.lane op code k) := by
  have hfold := (h.map fun x => some (φ (elementLane op code (elementOf code x.1 k) x.2))).foldr_op_eq
    (op := Option.merge f) (a := none)
  rw [← MergeTree.lane_foldr φ f hφ, ← MergeTree.lane_foldr φ f hφ] at hfold
  exact Option.some.inj hfold

end Order

/-! ## What a result shows of a lane (R206 to R209) -/

/-- What the result of an operation depends on in a lane: the sum and the flags, the count, the value selected, the index of the
participant selected, or the bits. -/
def Lane.shown (op : Nat) (l : Lane) : Lane :=
  match op with
  | 1 => l
  | 7 => { Lane.zero with sum := l.sum }
  | 2 | 3 => { Lane.zero with bits := l.bits, nan := l.nan }
  | 8 | 9 => { Lane.zero with index := l.index }
  | _ => { Lane.zero with bits := l.bits }

/-- The result of a lane that is not rounded is that of what it shows. -/
theorem intResult_shown {op : Nat} (h9 : op ≤ 9) (w : Nat) (l : Lane) : intResult op w (l.shown op) = intResult op w l := by
  interval_cases op <;> rfl

/-- So is that of a lane that is rounded. -/
theorem floatResult_shown {op : Nat} (h0 : op ≠ 0) (h3 : op ≤ 3) (fin fout : FloatFmt) (st : Bool) (z : Nat) (l : Lane) :
    floatResult op fin fout st z (l.shown op) = floatResult op fin fout st z l := by
  obtain rfl | rfl | rfl : op = 1 ∨ op = 2 ∨ op = 3 := by omega
  all_goals rfl

/-- A map by position of mapped elements. -/
theorem mapIdx_map {α β γ : Type} (f : Nat → β → γ) (g : α → β) (l : List α) :
    (l.map g).mapIdx f = l.mapIdx fun i x => f i (g x) :=
  List.ext_getElem? fun i => by simp [Option.map_map, Function.comp_def]

/-- The result of a partial is that of what its lanes show. -/
theorem finishPartial_shown {p : WeirParams} (h9 : p.redOp ≤ 9) (acc : Partial) (seed index epoch : Nat) :
    finishPartial p ⟨acc.lanes.map (Lane.shown p.redOp), acc.nf⟩ seed index epoch = finishPartial p acc seed index epoch := by
  unfold finishPartial
  split
  · rfl
  · rename_i h0
    split
    · split
      · rename_i h3
        simp only [mapIdx_map, floatResult_shown h0 h3]
      · simp only [List.map_map, Function.comp_def, intResult_shown h9]
    · simp only [List.map_map, Function.comp_def, intResult_shown h9]

/-- Partials whose lanes show the same, with the same count, have the same result. -/
theorem finishPartial_congr {p : WeirParams} (h9 : p.redOp ≤ 9) {x y : Partial} (seed index epoch : Nat)
    (hl : x.lanes.map (Lane.shown p.redOp) = y.lanes.map (Lane.shown p.redOp)) (hn : x.nf = y.nf) :
    finishPartial p x seed index epoch = finishPartial p y seed index epoch := by
  rw [← finishPartial_shown h9 x, ← finishPartial_shown h9 y, hl, hn]

/-- A permitted reduction is one of Table 6.1 on a format, and a bitwise one is on integers (R193). -/
theorem redOk_bounds {p : WeirParams} {n : Nat} (h : redOk p n = true) (h0 : p.redOp ≠ 0) :
    1 ≤ p.redOp ∧ p.redOp ≤ 9 ∧ p.inFormat ≠ 0 ∧ (4 ≤ p.redOp → p.redOp ≤ 6 → floatFmt p.inFormat = none) := by
  unfold redOk at h
  simp only [h0, if_false] at h
  split at h
  · simp at h
  · rename_i hb
    simp only [Bool.or_eq_true, decide_eq_true_eq, beq_iff_eq, not_or, not_lt] at hb
    obtain ⟨h9, hf⟩ := hb
    simp only [Bool.and_eq_true] at h
    obtain ⟨⟨⟨-, hbit⟩, -⟩, -⟩ := h
    exact ⟨by omega, h9, hf, fun h4 h6 => by simpa [h4, h6] using hbit⟩

/-- The operations by what they keep of a lane: a sum, a value, its bits, a count, or a participant's index. -/
theorem operation_cases {op : Nat} (h1 : 1 ≤ op) (h9 : op ≤ 9) :
    op = 1 ∨ (op = 2 ∨ op = 3) ∨ (op = 4 ∨ op = 5 ∨ op = 6) ∨ op = 7 ∨ (op = 8 ∨ op = 9) := by omega

/-! ## The selecting operations (R203) -/

/-- The place of a lane in the order of MIN and MAX (a NaN, then the value) or of ARGMIN and ARGMAX (the value, then the lower
participant index); the highest is selected. -/
def laneRank (op code : Nat) (l : Lane) : ℤ ×ₗ ℤ :=
  let key := if op = 2 ∨ op = 9 then -laneKey op code l.bits else laneKey op code l.bits
  if op ≤ 3 then (if l.nan then toLex (1, 0) else toLex (0, key)) else toLex (key, -(l.index : ℤ))

/-- A selecting operation keeps the first lane unless the second is higher. -/
theorem mergeLane_selects {op : Nat} (hop : op ∈ [2, 3, 8, 9]) (code : Nat) (a b : Lane) :
    mergeLane op code a b = if laneRank op code a < laneRank op code b then b else a := by
  simp only [List.mem_cons, List.not_mem_nil, or_false] at hop
  rcases hop with rfl | rfl | rfl | rfl
  case inl | inr.inl =>
    by_cases ha : a.nan = true <;> by_cases hb : b.nan = true <;>
      simp [mergeLane, selects, laneRank, ha, hb, Prod.Lex.toLex_lt_toLex]
  case inr.inr.inl => simp [mergeLane, selects, laneRank, Prod.Lex.toLex_lt_toLex]
  case inr.inr.inr =>
    simp [mergeLane, selects, laneRank, Prod.Lex.toLex_lt_toLex, eq_comm (a := laneKey 9 code a.bits)]

/-- The lane selected is one of the two. -/
theorem mergeLane_mem {op : Nat} (hop : op ∈ [2, 3, 8, 9]) (code : Nat) (a b : Lane) :
    mergeLane op code a b = a ∨ mergeLane op code a b = b := by
  rw [mergeLane_selects hop]
  split
  · exact .inr rfl
  · exact .inl rfl

/-- The lane selected has the higher rank. -/
theorem laneRank_mergeLane {op : Nat} (hop : op ∈ [2, 3, 8, 9]) (code : Nat) (a b : Lane) :
    laneRank op code (mergeLane op code a b) = max (laneRank op code a) (laneRank op code b) := by
  rw [mergeLane_selects hop]
  split
  · rename_i h; exact (max_eq_right h.le).symm
  · rename_i h; exact (max_eq_left (not_lt.mp h)).symm

/-- A lane of MIN or MAX: of its width, and a NaN only as the canonical one (R206). -/
structure MinMaxLane (code : Nat) (l : Lane) : Prop where
  width : l.bits < 2 ^ laneWidth code
  nan : l.nan = nanOf code l.bits
  canonical : l.nan = true → ∃ f, floatFmt code = some f ∧ l.bits = f.nan

/-- The lane of an element is one. -/
theorem minMaxLane_element {op code x : Nat} (hop : op = 2 ∨ op = 3) (hx : x < 2 ^ laneWidth code) (i : Nat) :
    MinMaxLane code (elementLane op code x i) := by
  cases hf : floatFmt code with
  | none => rcases hop with rfl | rfl <;> constructor <;> simp [elementLane, hf, Lane.zero, nanOf, hx]
  | some f =>
    obtain ⟨-, hnan, hlt⟩ := floatFmt_facts hf
    by_cases hn : f.isNan x = true <;> rcases hop with rfl | rfl <;> constructor <;>
      simp [elementLane, hf, Lane.zero, nanOf, hx, hn, hnan, hlt]

/-- So are the lanes of an order. -/
theorem minMaxLane_lane {op : Nat} (hop : op = 2 ∨ op = 3) (code k : Nat) (t : MergeTree) :
    MinMaxLane code (t.lane op code k) := by
  refine MergeTree.lane_induct (fun _ => MinMaxLane code) t (fun x _ => minMaxLane_element hop (elementOf_lt ..) _) ?_
  intro _ _ a b ha hb
  have hmem : op ∈ [2, 3, 8, 9] := by rcases hop with rfl | rfl <;> decide
  rcases mergeLane_mem hmem code a b with h | h <;> rw [h] <;> assumption

/-- Signed lanes of one width are told apart by their values. -/
theorem signedLane_inj {w x y : Nat} (hx : x < 2 ^ w) (hy : y < 2 ^ w)
    (h : signedLane w x = signedLane w y) : x = y := by
  unfold signedLane at h
  have hxz : (x : ℤ) < 2 ^ w := by exact_mod_cast hx
  have hyz : (y : ℤ) < 2 ^ w := by exact_mod_cast hy
  split at h <;> split at h <;> omega

/-- Floating-point lanes of one width are told apart by their keys. -/
theorem FloatFmt.key_inj {f : FloatFmt} {x y : Nat} (hw : 0 < f.width) (hx : x < 2 ^ f.width) (hy : y < 2 ^ f.width)
    (h : f.key x = f.key y) : x = y := by
  have hpow : 2 ^ f.width = 2 * 2 ^ (f.width - 1) := (mul_pow_sub_one hw.ne' 2).symm
  have hpos : 0 < 2 ^ (f.width - 1) := Nat.two_pow_pos _
  unfold FloatFmt.key FloatFmt.negOf at h
  generalize 2 ^ (f.width - 1) = m at *
  have hdx := Nat.div_add_mod x m
  have hdy := Nat.div_add_mod y m
  have hqx : x / m < 2 := Nat.div_lt_of_lt_mul (by omega)
  have hqy : y / m < 2 := Nat.div_lt_of_lt_mul (by omega)
  interval_cases x / m <;> interval_cases y / m <;> simp at h <;> omega

/-- So are the lanes of every format, but for NaNs. -/
theorem laneKey_inj {op code x y : Nat} (hx : x < 2 ^ laneWidth code) (hy : y < 2 ^ laneWidth code)
    (hnx : nanOf code x = false) (hny : nanOf code y = false) (h : laneKey op code x = laneKey op code y) : x = y := by
  obtain ⟨-, -, hpos, -⟩ := laneWidth_bytes code
  unfold nanOf at hnx hny
  unfold laneKey at h
  cases hf : floatFmt code with
  | none =>
    simp only [hf] at h
    exact signedLane_inj hx hy h
  | some f =>
    obtain ⟨hwidth, -, -⟩ := floatFmt_facts hf
    simp only [hf] at h hnx hny
    simp only [hnx, hny, Bool.false_eq_true, if_false] at h
    rw [← hwidth] at hx hy hpos
    exact f.key_inj hpos hx hy h

/-- MIN and MAX lanes of one rank show the same. -/
theorem MinMaxLane.shown_eq {op code : Nat} (hop : op = 2 ∨ op = 3) {l m : Lane} (hl : MinMaxLane code l)
    (hm : MinMaxLane code m) (h : laneRank op code l = laneRank op code m) : l.shown op = m.shown op := by
  obtain ⟨hlw, hln, hlc⟩ := hl
  obtain ⟨hmw, hmn, hmc⟩ := hm
  have hle : op ≤ 3 := by omega
  suffices hs : l.nan = m.nan ∧ l.bits = m.bits by
    rcases hop with rfl | rfl <;> simp only [Lane.shown, hs.1, hs.2]
  unfold laneRank at h
  simp only [hle, if_true] at h
  cases hn : l.nan <;> cases hn' : m.nan <;> simp only [hn, hn', Bool.false_eq_true, if_false, if_true] at h
  case true.true =>
    obtain ⟨f, hf, hb⟩ := hlc hn
    obtain ⟨g, hg, hb'⟩ := hmc hn'
    obtain rfl : f = g := Option.some.inj (hf.symm.trans hg)
    exact ⟨rfl, hb.trans hb'.symm⟩
  case false.false =>
    refine ⟨rfl, ?_⟩
    have hkey : laneKey op code l.bits = laneKey op code m.bits := by
      have := congrArg (fun q => (ofLex q).2) h
      simp only [ofLex_toLex] at this
      split at this <;> omega
    exact laneKey_inj hlw hmw (hln.symm.trans hn) (hmn.symm.trans hn') hkey
  all_goals exact absurd (congrArg (fun q => (ofLex q).1) h) (by simp)

/-! ## The order of merging (R198, R202, R203) -/

/-- SUM adds exactly and ORs the flags, so that lanes merge in any order. -/
theorem mergeLane_sum (code : Nat) :
    Std.Commutative (mergeLane 1 code) ∧ Std.Associative (mergeLane 1 code) :=
  ⟨⟨fun a b => by simp [mergeLane, Int.add_comm, Bool.or_comm]⟩,
    ⟨fun a b c => by simp [mergeLane, Int.add_assoc, Bool.or_assoc]⟩⟩

/-- What a lane shows does not depend on the order in which the contributions merge. -/
theorem MergeTree.lane_shown_order {op : Nat} (h1 : 1 ≤ op) (h9 : op ≤ 9) (code k : Nat) {a b : MergeTree}
    (h : a.leaves.Perm b.leaves) : (a.lane op code k).shown op = (b.lane op code k).shown op := by
  have hrank : ∀ hop : op ∈ [2, 3, 8, 9], laneRank op code (a.lane op code k) = laneRank op code (b.lane op code k) :=
    fun hop => MergeTree.lane_order (laneRank op code) max (laneRank_mergeLane hop code) k h
  rcases operation_cases h1 h9 with rfl | hop | hop | rfl | hop
  · obtain ⟨_, _⟩ := mergeLane_sum code
    exact MergeTree.lane_order id (mergeLane 1 code) (fun _ _ => rfl) k h
  · exact (minMaxLane_lane hop code k a).shown_eq hop (minMaxLane_lane hop code k b)
      (hrank (by rcases hop with rfl | rfl <;> decide))
  · rcases hop with rfl | rfl | rfl
    · exact congrArg (fun z => { Lane.zero with bits := z })
        (MergeTree.lane_order (op := 4) (code := code) Lane.bits (· &&& ·) (fun _ _ => rfl) k h)
    · exact congrArg (fun z => { Lane.zero with bits := z })
        (MergeTree.lane_order (op := 5) (code := code) Lane.bits (· ||| ·) (fun _ _ => rfl) k h)
    · exact congrArg (fun z => { Lane.zero with bits := z })
        (MergeTree.lane_order (op := 6) (code := code) Lane.bits (· ^^^ ·) (fun _ _ => rfl) k h)
  · exact congrArg (fun z => { Lane.zero with sum := z })
      (MergeTree.lane_order (op := 7) (code := code) Lane.sum (· + ·) (fun _ _ => rfl) k h)
  · rcases hop with rfl | rfl <;>
      simpa [laneRank, Lane.shown] using congrArg (fun q => (ofLex q).2) (hrank (by decide))

/-- Settles O59: every lane shows the same in both orders, and the counts of non-finite elements are one saturated sum. That the
participants are distinct is not needed: lanes of equal rank show the same index. -/
theorem orderOfMerging : Obligations.OrderOfMerging := by
  unfold Obligations.OrderOfMerging
  intro p n seed index epoch a b hok h0 hperm _
  obtain ⟨h1, h9, -, -⟩ := redOk_bounds hok h0
  rw [MergeTree.partial_eq, MergeTree.partial_eq]
  refine finishPartial_congr h9 seed index epoch ?_ ?_
  · simp only [List.map_map, Function.comp_def, MergeTree.lane_shown_order h1 h9 p.inFormat _ hperm]
  · simp only [MergeTree.nonfinite, (hperm.map _).sum_eq]

/-! ## Segments (R194, R195) -/

/-- Fields of `k` bytes each. -/
theorem length_fields {α : Type} {enc : α → List Byte} {k : Nat} {ls : List α} (h : ∀ l ∈ ls, (enc l).length = k) :
    (ls.flatMap enc).length = k * ls.length := by
  rw [List.length_flatMap, List.map_congr_left h, List.map_const', List.sum_replicate, smul_eq_mul, Nat.mul_comm]

/-- The pieces of fields of one length are the fields. -/
theorem pieces_fields {α : Type} {enc : α → List Byte} {k : Nat} {ls : List α} (h : ∀ l ∈ ls, (enc l).length = k)
    (rest : List Byte) : pieces k ls.length (ls.flatMap enc ++ rest) = ls.map enc := by
  induction ls with
  | nil => rfl
  | cons l ls ih =>
    obtain ⟨hl, hls⟩ := List.forall_mem_cons.mp h
    rw [List.length_cons, pieces, List.flatMap_cons, List.append_assoc, List.take_left' hl, List.drop_left' hl, ih hls,
      List.map_cons]

/-- A vector of as many bits holds the number that bytes spell. -/
theorem toNat_ofBytesLE {l : List Byte} {w : Nat} (h : w = 8 * l.length) :
    (BitVec.ofNat w (ofBytesLE l)).toNat = ofBytesLE l := by
  have hlt := ofBytesLE_lt l
  rw [show 256 = 2 ^ 8 from rfl, ← pow_mul, ← h] at hlt
  rw [BitVec.toNat_ofNat, Nat.mod_eq_of_lt hlt]

/-- At most 64 bytes stand in the payload that they make, padded with zeros. -/
theorem payloadBytes_payloadOf {l : List Byte} (h : l.length ≤ 64) :
    payloadBytes (payloadOf l) = l ++ List.replicate (64 - l.length) 0 := by
  have hlen : (l ++ List.replicate (64 - l.length) (0 : Byte)).reverse.length = 64 := by simp; omega
  have hround := bytesLE_ofBytesLE (l ++ List.replicate (64 - l.length) (0 : Byte)).reverse
  rw [hlen] at hround
  rw [payloadBytes, payloadOf, bytesBE, ofBytesBE, List.take_of_length_le h, toNat_ofBytesLE (by rw [hlen]), hround,
    List.reverse_reverse]

/-- Bytes that fit in `n` segments arrive in them, padded with zeros. -/
theorem segments_bytes (n : Nat) (l : List Byte) (h : l.length ≤ 64 * n) :
    ((pieces 64 n l).map payloadOf).flatMap payloadBytes = l ++ List.replicate (64 * n - l.length) 0 := by
  induction n generalizing l with
  | zero => simp [List.eq_nil_of_length_eq_zero (Nat.le_zero.mp h), pieces]
  | succ n ih =>
    rw [pieces, List.map_cons, List.flatMap_cons, payloadBytes_payloadOf (by simp), ih _ (by rw [List.length_drop]; omega)]
    rcases Nat.le_total l.length 64 with hl | hl
    · rw [List.take_of_length_le hl, List.drop_of_length_le hl, List.nil_append, List.append_assoc, List.length_nil,
        List.replicate_append_replicate]
      congr 2; omega
    · rw [List.length_take, Nat.min_eq_left hl, Nat.sub_self, List.replicate_zero, List.append_nil, ← List.append_assoc,
        List.take_append_drop, List.length_drop]
      congr 2; omega

/-! ## The layout of a partial (R195) -/

/-- The fields of lanes, without a trailer. -/
def laneFields (op code : Nat) (ls : List Lane) : List Byte :=
  match op with
  | 1 => ls.flatMap (packSum code)
  | 7 => ls.flatMap fun l => bytesLE 4 l.sum.toNat
  | 8 | 9 => (ls.flatMap fun l => bytesLE (laneWidth code / 8) l.bits) ++ ls.flatMap fun l => bytesLE 4 l.index
  | _ => ls.flatMap fun l => bytesLE (laneWidth code / 8) l.bits

/-- The bytes of those fields. -/
def fieldBytes (op code : Nat) : Nat :=
  match op with
  | 1 => (compactWord code).1 / 8 * laneCount code
  | 7 => 4 * laneCount code
  | 8 | 9 => 64 + 4 * laneCount code
  | _ => 64

/-- The lanes of some fields. -/
def fieldLanes (op code : Nat) (bytes : List Byte) : List Lane :=
  match op with
  | 1 => (pieces ((compactWord code).1 / 8) (laneCount code) bytes).map (unpackSum code)
  | 7 => (pieces 4 (laneCount code) bytes).map fun b => { Lane.zero with sum := (ofBytesLE b : Nat) }
  | 8 | 9 =>
    ((pieces (laneWidth code / 8) (laneCount code) bytes).zip (pieces 4 (laneCount code) (bytes.drop 64))).map fun b =>
      { Lane.zero with bits := ofBytesLE b.1, index := ofBytesLE b.2 }
  | _ =>
    (pieces (laneWidth code / 8) (laneCount code) bytes).map fun b =>
      { Lane.zero with bits := ofBytesLE b, nan := (op == 2 || op == 3) && nanOf code (ofBytesLE b) }

/-- A partial with lanes is sent as their fields and, in a floating-point format, the trailer. -/
theorem packPartial_lanes {op code : Nat} (h9 : op ≤ 9) {p : Partial} (hp : p.lanes ≠ []) : packPartial op code p =
    laneFields op code p.lanes ++ if (floatFmt code).isSome then bytesLE 4 p.nf ++ bytesLE 4 0 else [] := by
  have he : p.lanes.isEmpty = false := by simpa using hp
  simp only [packPartial, he, Bool.false_eq_true, if_false]
  split <;> simp only [List.append_assoc, List.append_nil, List.append_cancel_right_eq] <;> interval_cases op <;> rfl

/-- Its lanes are read from the fields, and its count from what follows them. -/
theorem unpackPartial_fields {op : Nat} (h9 : op ≤ 9) (code : Nat) (bytes : List Byte) : unpackPartial op code bytes =
    ⟨fieldLanes op code bytes,
      if (floatFmt code).isSome then ofBytesLE ((bytes.drop (fieldBytes op code)).take 4) else 0⟩ := by
  interval_cases op <;> rfl

@[simp] theorem length_packSum (code : Nat) (l : Lane) : (packSum code l).length = (compactWord code).1 / 8 := by
  simp [packSum]

/-- The fields of a partial's lanes have the bytes of its layout. -/
theorem length_laneFields {op : Nat} (h9 : op ≤ 9) {code : Nat} {ls : List Lane} (h : ls.length = laneCount code) :
    (laneFields op code ls).length = fieldBytes op code := by
  obtain ⟨-, h64, -⟩ := laneWidth_bytes code
  have hvalues : (ls.flatMap fun l => bytesLE (laneWidth code / 8) l.bits).length = 64 := by
    rw [length_fields (fun l _ => length_bytesLE _ l.bits), h, h64]
  have hindex : (ls.flatMap fun l => bytesLE 4 l.index).length = 4 * laneCount code := by
    rw [length_fields (fun l _ => length_bytesLE _ l.index), h]
  have hsum : (ls.flatMap (packSum code)).length = (compactWord code).1 / 8 * laneCount code := by
    rw [length_fields (fun l _ => length_packSum code l), h]
  have hcount : (ls.flatMap fun l => bytesLE 4 l.sum.toNat).length = 4 * laneCount code := by
    rw [length_fields (fun l _ => length_bytesLE _ l.sum.toNat), h]
  interval_cases op <;> simp only [laneFields, fieldBytes, List.length_append, hvalues, hindex, hsum, hcount]

/-- The segments of a partial hold its fields and its trailer (Table 6.3). -/
theorem fieldBytes_segments {op code : Nat} (h1 : 1 ≤ op) (h9 : op ≤ 9) (hc0 : code ≠ 0) (hc7 : code ≤ 7)
    (hbit : 4 ≤ op → op ≤ 6 → floatFmt code = none) :
    fieldBytes op code + (if (floatFmt code).isSome then 8 else 0) ≤ 64 * segmentCount op code := by
  have htable : ∀ op < 10, ∀ code < 8, 1 ≤ op ∧ code ≠ 0 ∧ (4 ≤ op ∧ op ≤ 6 → (floatFmt code).isSome = false) →
      fieldBytes op code + (if (floatFmt code).isSome then 8 else 0) ≤ 64 * segmentCount op code := by decide
  exact htable op (by omega) code (by omega) ⟨h1, hc0, fun ⟨h4, h6⟩ => by rw [hbit h4 h6]; rfl⟩

/-! ## Lanes that their fields hold (R199 to R201) -/

/-- An integer lane's compact word counts ones (Table 6.5). -/
theorem compactWord_integer {code : Nat} (h : floatFmt code = none) : (compactWord code).2 = 0 := by
  rcases format_cases code with hc | ⟨-, -, hw⟩
  · exact (by decide : ∀ c < 8, floatFmt c = none → (compactWord c).2 = 0) code hc h
  · rw [hw]

/-- A signed number in the range of a lane is its value there. -/
theorem signedLane_toLane {w : Nat} (hw : 0 < w) {z : ℤ} (hlo : -2 ^ (w - 1) ≤ z) (hhi : z < 2 ^ (w - 1)) :
    toLane w z < 2 ^ w ∧ signedLane w (toLane w z) = z := by
  have hpow : (2 : ℤ) ^ w = 2 * 2 ^ (w - 1) := (mul_pow_sub_one hw.ne' 2).symm
  have hpow' : 2 ^ w = 2 * 2 ^ (w - 1) := (mul_pow_sub_one hw.ne' 2).symm
  have hcast : ((2 ^ (w - 1) : Nat) : ℤ) = 2 ^ (w - 1) := by push_cast; rfl
  have hmod : z % 2 ^ w = if 0 ≤ z then z else z + 2 ^ w := by
    split
    · rename_i h0; exact Int.emod_eq_of_lt h0 (by omega)
    · rw [← Int.add_emod_right]; exact Int.emod_eq_of_lt (by omega) (by omega)
  rw [hpow] at hmod
  simp only [signedLane, toLane, hpow, hpow', hmod]
  generalize (2 : ℤ) ^ (w - 1) = m at *
  generalize 2 ^ (w - 1) = m' at *
  split
  · exact ⟨by omega, by rw [if_pos (by omega)]; omega⟩
  · exact ⟨by omega, by rw [if_neg (by omega)]; omega⟩

/-- Three flags above a field are read back, and the field below them. -/
theorem flags_above {n x : Nat} (hx : x < 2 ^ n) (a b c : Bool) :
    let v := x + (flag a * 2 ^ (n + 2) + flag b * 2 ^ (n + 1) + flag c * 2 ^ n)
    v < 2 ^ (n + 3) ∧ v % 2 ^ n = x ∧ (v / 2 ^ (n + 2) % 2 == 1) = a ∧ (v / 2 ^ (n + 1) % 2 == 1) = b ∧
      (v / 2 ^ n % 2 == 1) = c := by
  intro v
  have hv : v = x + 2 ^ n * (4 * flag a + 2 * flag b + flag c) := by simp only [v]; ring
  have hflags : 4 * flag a + 2 * flag b + flag c < 8 := by cases a <;> cases b <;> cases c <;> decide
  have hdiv : v / 2 ^ n = 4 * flag a + 2 * flag b + flag c := by
    rw [hv, Nat.add_mul_div_left _ _ (Nat.two_pow_pos n), Nat.div_eq_of_lt hx, Nat.zero_add]
  have hmod : v % 2 ^ n = x := by rw [hv, Nat.add_mul_mod_self_left, Nat.mod_eq_of_lt hx]
  have hlt : v < 8 * 2 ^ n := (Nat.div_lt_iff_lt_mul (Nat.two_pow_pos n)).mp (hdiv ▸ hflags)
  rw [pow_add, pow_add, pow_add, ← Nat.div_div_eq_div_mul, ← Nat.div_div_eq_div_mul, hdiv, hmod]
  refine ⟨by omega, rfl, ?_⟩
  cases a <;> cases b <;> cases c <;> decide

/-- A SUM lane of `n` contributions: in units of its compact word's bit 0 the sum grows by less than the word's headroom, and
only floating-point lanes have flags. -/
structure SumLane (code n : Nat) (l : Lane) : Prop where
  bits : l.bits = 0
  index : l.index = 0
  flags : (floatFmt code).isSome = false → l.nan = false ∧ l.pinf = false ∧ l.ninf = false
  units : ∃ z : ℤ, l.sum = z * 2 ^ (compactWord code).2 ∧ |z| ≤ n * 2 ^ ((compactWord code).1 - 19)

/-- The width of a compact word is a number of whole bytes, with 19 bits for flags, sign and growth. -/
theorem compactWord_width (code : Nat) : ∃ c, (compactWord code).1 = c + 19 ∧ c + 19 = 8 * ((compactWord code).1 / 8) := by
  have h : 19 ≤ (compactWord code).1 ∧ (compactWord code).1 = 8 * ((compactWord code).1 / 8) := by
    rcases format_cases code with h | ⟨-, -, h⟩
    · revert code; decide
    · simp [h]
  exact ⟨(compactWord code).1 - 19, by omega, by omega⟩

/-- A signed lane lies in the range of its width. -/
theorem signedLane_abs {w x : Nat} (hw : 0 < w) (hx : x < 2 ^ w) : |signedLane w x| ≤ 2 ^ (w - 1) := by
  have hpow : 2 ^ w = 2 * 2 ^ (w - 1) := (mul_pow_sub_one hw.ne' 2).symm
  have hcast : ((2 ^ w : Nat) : ℤ) = 2 ^ w := by push_cast; rfl
  have hcast' : ((2 ^ (w - 1) : Nat) : ℤ) = 2 ^ (w - 1) := by push_cast; rfl
  rw [abs_le]
  unfold signedLane
  split <;> omega

/-- A finite element is a whole number of its compact word's units, at most 2^(W - 19) of them (R197). -/
theorem FloatFmt.exact_units {code : Nat} {f : FloatFmt} (hf : floatFmt code = some f) (x : Nat) :
    ∃ z : ℤ, f.exact x = z * 2 ^ (compactWord code).2 ∧ |z| ≤ 2 ^ ((compactWord code).1 - 19) := by
  have hfmt : f.bf ≤ 149 ∧ (compactWord code).2 = 149 - f.bf ∧
      f.k + 1 + (2 ^ (f.width - 1 - f.k) - 2) ≤ (compactWord code).1 - 19 ∧ 2 ≤ 2 ^ (f.width - 1 - f.k) := by
    have hc := floatFmt_code (Option.isSome_of_eq_some hf)
    simp only [List.mem_cons, List.not_mem_nil, or_false] at hc
    rcases hc with rfl | rfl | rfl | rfl | rfl <;> (cases hf; decide)
  obtain ⟨hbf, hshift, hroom, htwo⟩ := hfmt
  have hman : f.manOf x < 2 ^ f.k := Nat.mod_lt _ (Nat.two_pow_pos _)
  have hexp : f.expOf x < 2 ^ (f.width - 1 - f.k) := Nat.mod_lt _ (Nat.two_pow_pos _)
  have hsig : (if f.expOf x = 0 then f.manOf x else f.manOf x + 2 ^ f.k) ≤ 2 ^ (f.k + 1) := by
    rw [pow_succ]; split <;> omega
  have hexact : ∃ m : Nat, f.exact x = (if f.negOf x then -1 else 1) * (m : ℤ) * 2 ^ (compactWord code).2 ∧
      m ≤ 2 ^ ((compactWord code).1 - 19) := by
    refine ⟨(if f.expOf x = 0 then f.manOf x else f.manOf x + 2 ^ f.k) * 2 ^ (max (f.expOf x) 1 - 1), ?_, ?_⟩
    · have hsplit : max (f.expOf x) 1 - 1 + 149 - f.bf = max (f.expOf x) 1 - 1 + (compactWord code).2 := by omega
      simp only [FloatFmt.exact, hsplit, pow_add]
      split <;> push_cast <;> ring
    · calc _ ≤ 2 ^ (f.k + 1) * 2 ^ (2 ^ (f.width - 1 - f.k) - 2) :=
            Nat.mul_le_mul hsig (Nat.pow_le_pow_right (by decide) (by omega))
        _ ≤ _ := by rw [← pow_add]; exact Nat.pow_le_pow_right (by decide) hroom
  obtain ⟨m, hm, hle⟩ := hexact
  refine ⟨_, hm, ?_⟩
  rw [abs_mul, Nat.abs_cast]
  have hunit : |if f.negOf x then (-1 : ℤ) else 1| = 1 := by split <;> decide
  rw [hunit, one_mul]
  exact_mod_cast hle

/-- The lane of an element is one of one contribution (R197, R200). -/
theorem sumLane_element {code x : Nat} (hc0 : code ≠ 0) (hc7 : code ≤ 7) (hx : x < 2 ^ laneWidth code) (i : Nat) :
    SumLane code 1 (elementLane 1 code x i) := by
  cases hf : floatFmt code with
  | none =>
    have hfmt : (compactWord code).2 = 0 ∧ laneWidth code - 1 ≤ (compactWord code).1 - 19 := by
      exact (by decide : ∀ c < 8, c ≠ 0 → floatFmt c = none → (compactWord c).2 = 0 ∧
        laneWidth c - 1 ≤ (compactWord c).1 - 19) code (by omega) hc0 hf
    obtain ⟨hshift, hroom⟩ := hfmt
    obtain ⟨-, -, hpos, -⟩ := laneWidth_bytes code
    simp only [elementLane, hf]
    refine ⟨rfl, rfl, fun _ => ⟨rfl, rfl, rfl⟩, signedLane (laneWidth code) x, by rw [hshift, pow_zero, mul_one], ?_⟩
    rw [Nat.cast_one, one_mul]
    exact (signedLane_abs hpos hx).trans (pow_le_pow_right₀ (by decide) hroom)
  | some f =>
    have hzero : ∃ z : ℤ, (0 : ℤ) = z * 2 ^ (compactWord code).2 ∧ |z| ≤ (1 : Nat) * 2 ^ ((compactWord code).1 - 19) :=
      ⟨0, by simp, by simp⟩
    have hfloat : ¬ (floatFmt code).isSome = false := by simp [hf]
    simp only [elementLane, hf]
    split
    · exact ⟨rfl, rfl, fun h => absurd h hfloat, hzero⟩
    · split
      · split <;> exact ⟨rfl, rfl, fun h => absurd h hfloat, hzero⟩
      · obtain ⟨z, hz, hle⟩ := f.exact_units hf x
        exact ⟨rfl, rfl, fun h => absurd h hfloat, z, hz, by simpa using hle⟩

/-- Two merged lanes of SUM are one of all their contributions. -/
theorem SumLane.merge {code m n : Nat} {a b : Lane} (ha : SumLane code m a) (hb : SumLane code n b) :
    SumLane code (m + n) (mergeLane 1 code a b) := by
  obtain ⟨-, -, hfa, y, hya, hyn⟩ := ha
  obtain ⟨-, -, hfb, z, hzb, hzn⟩ := hb
  refine ⟨rfl, rfl, fun h => ?_, y + z, ?_, ?_⟩
  · obtain ⟨ha1, ha2, ha3⟩ := hfa h
    obtain ⟨hb1, hb2, hb3⟩ := hfb h
    simp only [mergeLane, ha1, ha2, ha3, hb1, hb2, hb3, Bool.or_false, and_self]
  · simp only [mergeLane, hya, hzb, Int.add_mul]
  · rw [Nat.cast_add, Int.add_mul]
    exact (abs_add_le y z).trans (Int.add_le_add hyn hzn)

/-- The compact word of a SUM lane of at most 16384 contributions gives the lane back (R201). -/
theorem unpackSum_packSum {code n : Nat} (hn : n ≤ 16384) {l : Lane} (h : SumLane code n l) :
    unpackSum code (packSum code l) = l := by
  obtain ⟨sum, nan, pinf, ninf, _, _⟩ := l
  obtain ⟨rfl, rfl, hflags, z, rfl, hzn⟩ := h
  obtain ⟨c, hc, hc8⟩ := compactWord_width code
  have hunits : z * 2 ^ (compactWord code).2 / 2 ^ (compactWord code).2 = z := Int.mul_ediv_cancel z (by positivity)
  have hbound : |z| ≤ 2 ^ (c + 14) := by
    rw [hc, Nat.add_sub_cancel] at hzn
    rw [pow_add, mul_comm]
    exact hzn.trans (mul_le_mul_of_nonneg_right (by exact_mod_cast hn) (by positivity))
  have hrange : ∀ w, c + 14 < w - 1 → toLane w z < 2 ^ w ∧ signedLane w (toLane w z) = z := fun w hw => by
    have hlt : (2 : ℤ) ^ (c + 14) < 2 ^ (w - 1) := pow_lt_pow_right₀ (by decide) hw
    obtain ⟨hlo, hhi⟩ := abs_le.mp hbound
    exact signedLane_toLane (by omega) (by omega) (by omega)
  have hbytes : 256 ^ ((c + 19) / 8) = 2 ^ (c + 19) := by
    rw [show 256 = 2 ^ 8 from rfl, ← pow_mul]; congr 1; omega
  unfold unpackSum packSum
  simp only [hunits, hc]
  cases hf : (floatFmt code).isSome with
  | true =>
    obtain ⟨hlt, hback⟩ := hrange (c + 16) (by omega)
    obtain ⟨hfit, hlow, hnan, hpinf, hninf⟩ := flags_above hlt nan pinf ninf
    rw [← hbytes] at hfit
    simp only [if_true, Nat.reduceSubDiff, ofBytesLE_bytesLE hfit, hlow, hnan, hpinf, hninf, hback, Lane.zero]
  | false =>
    obtain ⟨hlt, hback⟩ := hrange (c + 19) (by omega)
    obtain ⟨rfl, rfl, rfl⟩ := hflags hf
    rw [← hbytes] at hlt
    have hunit : (compactWord code).2 = 0 := compactWord_integer (Option.isNone_iff_eq_none.mp (Option.isSome_eq_false_iff.mp hf))
    simp only [Bool.false_eq_true, if_false, Nat.add_zero, ofBytesLE_bytesLE hlt, hback, hunit, pow_zero, mul_one, Lane.zero]

/-- A lane of `n` contributions that fits in its fields, by the operation (R195, R199, R203). -/
def FieldLane (op code n : Nat) (l : Lane) : Prop :=
  match op with
  | 1 => SumLane code n l
  | 7 => 0 ≤ l.sum ∧ l.sum ≤ n
  | 2 | 3 => MinMaxLane code l
  | 8 | 9 => l.bits < 2 ^ laneWidth code ∧ l.index < 16384
  | _ => l.bits < 2 ^ laneWidth code

/-- The lane of an element fits. -/
theorem fieldLane_element {op code x i : Nat} (h1 : 1 ≤ op) (h9 : op ≤ 9) (hc0 : code ≠ 0) (hc7 : code ≤ 7)
    (hx : x < 2 ^ laneWidth code) (hi : i < 16384) : FieldLane op code 1 (elementLane op code x i) := by
  rcases operation_cases h1 h9 with rfl | hop | hop | rfl | hop
  · exact sumLane_element hc0 hc7 hx i
  · have hlane := minMaxLane_element hop hx i
    rcases hop with rfl | rfl <;> exact hlane
  · rcases hop with rfl | rfl | rfl <;> exact hx
  · cases hf : floatFmt code <;> simp only [FieldLane, elementLane, hf] <;> split <;> decide
  · rcases hop with rfl | rfl <;> exact ⟨hx, hi⟩

/-- Two merged lanes fit, with all their contributions. -/
theorem FieldLane.merge {op code m n : Nat} (h1 : 1 ≤ op) (h9 : op ≤ 9) {a b : Lane} (ha : FieldLane op code m a)
    (hb : FieldLane op code n b) : FieldLane op code (m + n) (mergeLane op code a b) := by
  have hselected : ∀ P : Lane → Prop, P a → P b → op ∈ [2, 3, 8, 9] → P (mergeLane op code a b) := fun P ha hb hop => by
    rcases mergeLane_mem hop code a b with h | h <;> rw [h] <;> assumption
  rcases operation_cases h1 h9 with rfl | hop | hop | rfl | hop
  · exact SumLane.merge ha hb
  · rcases hop with rfl | rfl <;> exact hselected _ ha hb (by decide)
  · rcases hop with rfl | rfl | rfl
    · exact Nat.and_lt_two_pow _ hb
    · exact Nat.or_lt_two_pow ha hb
    · exact Nat.xor_lt_two_pow ha hb
  · obtain ⟨ha0, han⟩ := ha
    obtain ⟨hb0, hbn⟩ := hb
    refine ⟨Int.add_nonneg ha0 hb0, ?_⟩
    push_cast
    exact Int.add_le_add han hbn
  · rcases hop with rfl | rfl <;> exact hselected _ ha hb (by decide)

/-- The lanes of an order fit, with as many contributions as it merges. -/
theorem fieldLane_lane {op code : Nat} (h1 : 1 ≤ op) (h9 : op ≤ 9) (hc0 : code ≠ 0) (hc7 : code ≤ 7) {t : MergeTree}
    (hi : ∀ x ∈ t.leaves, x.2 < 16384) (k : Nat) : FieldLane op code t.leaves.length (t.lane op code k) :=
  MergeTree.lane_induct (FieldLane op code) t (fun x hx => fieldLane_element h1 h9 hc0 hc7 (elementOf_lt ..) (hi x hx))
    fun _ _ _ _ ha hb => ha.merge h1 h9 hb

section Fields

variable {code : Nat} {ls : List Lane} (hlen : ls.length = laneCount code) (rest : List Byte)
include hlen

/-- SUM lanes of at most 16384 contributions come back from their compact words. -/
theorem fieldLanes_sum {n : Nat} (hn : n ≤ 16384) (h : ∀ l ∈ ls, SumLane code n l) :
    fieldLanes 1 code (laneFields 1 code ls ++ rest) = ls := by
  simp only [fieldLanes, laneFields, ← hlen, pieces_fields fun l _ => length_packSum code l, List.map_map]
  exact (List.map_congr_left fun l hl => unpackSum_packSum hn (h l hl)).trans (List.map_id _)

/-- Counts come back from 32 bits. -/
theorem fieldLanes_count (h : ∀ l ∈ ls, 0 ≤ l.sum ∧ l.sum < 2 ^ 32) :
    fieldLanes 7 code (laneFields 7 code ls ++ rest) = ls.map fun l => { Lane.zero with sum := l.sum } := by
  simp only [fieldLanes, laneFields, ← hlen, pieces_fields (fun (l : Lane) _ => length_bytesLE 4 l.sum.toNat), List.map_map]
  refine List.map_congr_left fun l hl => ?_
  obtain ⟨h0, hlt⟩ := h l hl
  have hsum : ((ofBytesLE (bytesLE 4 l.sum.toNat) : Nat) : ℤ) = l.sum := by rw [ofBytesLE_bytesLE (by omega)]; omega
  simp only [Function.comp_apply, hsum]

/-- The lane values stand first in their fields. -/
theorem pieces_values : pieces (laneWidth code / 8) (laneCount code)
    ((ls.flatMap fun l => bytesLE (laneWidth code / 8) l.bits) ++ rest) =
      ls.map fun l => bytesLE (laneWidth code / 8) l.bits :=
  hlen ▸ pieces_fields (fun l _ => length_bytesLE _ l.bits) rest

/-- Values come back in their lane's width, a NaN known by its bits. -/
theorem fieldLanes_values {op : Nat} (h2 : 2 ≤ op) (h6 : op ≤ 6) (h : ∀ l ∈ ls, l.bits < 2 ^ laneWidth code) :
    fieldLanes op code (laneFields op code ls ++ rest) =
      ls.map fun l => { Lane.zero with bits := l.bits, nan := (op == 2 || op == 3) && nanOf code l.bits } := by
  have hfields : fieldLanes op code (laneFields op code ls ++ rest) =
      (ls.map fun l => bytesLE (laneWidth code / 8) l.bits).map fun b =>
        { Lane.zero with bits := ofBytesLE b, nan := (op == 2 || op == 3) && nanOf code (ofBytesLE b) } := by
    rw [← pieces_values hlen rest]
    interval_cases op <;> rfl
  rw [hfields, List.map_map]
  refine List.map_congr_left fun l hl => ?_
  simp only [Function.comp_apply, ofBytesLE_bytesLE ((h l hl).trans_eq (pow_laneBytes code).symm)]

/-- Values and indices come back together. -/
theorem fieldLanes_selected {op : Nat} (hop : op = 8 ∨ op = 9)
    (h : ∀ l ∈ ls, l.bits < 2 ^ laneWidth code ∧ l.index < 2 ^ 32) :
    fieldLanes op code (laneFields op code ls ++ rest) =
      ls.map fun l => { Lane.zero with bits := l.bits, index := l.index } := by
  obtain ⟨-, hbytes, -⟩ := laneWidth_bytes code
  have h64 : (ls.flatMap fun l => bytesLE (laneWidth code / 8) l.bits).length = 64 := by
    rw [length_fields fun l _ => length_bytesLE _ l.bits, hlen, hbytes]
  have hindex := hlen ▸ pieces_fields (ls := ls) (fun l _ => length_bytesLE 4 l.index) rest
  have hfields : fieldLanes op code (laneFields op code ls ++ rest) =
      ((ls.map fun l => bytesLE (laneWidth code / 8) l.bits).zip (ls.map fun l => bytesLE 4 l.index)).map fun b =>
        { Lane.zero with bits := ofBytesLE b.1, index := ofBytesLE b.2 } := by
    rcases hop with rfl | rfl <;>
      simp only [fieldLanes, laneFields, List.append_assoc, pieces_values hlen, List.drop_left' h64, hindex]
  rw [hfields, List.zip_map', List.map_map]
  refine List.map_congr_left fun l hl => ?_
  obtain ⟨hbits, hlt⟩ := h l hl
  simp only [Function.comp_apply, ofBytesLE_bytesLE (hbits.trans_eq (pow_laneBytes code).symm),
    ofBytesLE_bytesLE (show l.index < 256 ^ 4 by omega)]

/-- Fields give back what their lanes show. -/
theorem fieldLanes_shown {op n : Nat} (h1 : 1 ≤ op) (h9 : op ≤ 9) (hn : n ≤ 16384)
    (h : ∀ l ∈ ls, FieldLane op code n l) :
    (fieldLanes op code (laneFields op code ls ++ rest)).map (Lane.shown op) = ls.map (Lane.shown op) := by
  rcases operation_cases h1 h9 with rfl | hop | hop | rfl | hop
  · rw [fieldLanes_sum hlen rest hn h]
  · have hlane : ∀ l ∈ ls, MinMaxLane code l := by rcases hop with rfl | rfl <;> exact h
    rw [fieldLanes_values hlen rest (by omega) (by omega) fun l hl => (hlane l hl).width, List.map_map]
    refine List.map_congr_left fun l hl => ?_
    rcases hop with rfl | rfl <;> exact congrArg (Lane.mk 0 · false false l.bits 0) (hlane l hl).nan.symm
  · have hwidth : ∀ l ∈ ls, l.bits < 2 ^ laneWidth code := by rcases hop with rfl | rfl | rfl <;> exact h
    rw [fieldLanes_values hlen rest (by omega) (by omega) hwidth, List.map_map]
    rcases hop with rfl | rfl | rfl <;> rfl
  · have hcount : ∀ l ∈ ls, 0 ≤ l.sum ∧ l.sum < 2 ^ 32 := fun l hl => by
      obtain ⟨h0, hle⟩ := h l hl
      exact ⟨h0, by omega⟩
    rw [fieldLanes_count hlen rest hcount, List.map_map]
    rfl
  · have hfit : ∀ l ∈ ls, l.bits < 2 ^ laneWidth code ∧ l.index < 2 ^ 32 := fun l hl => by
      obtain ⟨hbits, hindex⟩ : l.bits < 2 ^ laneWidth code ∧ l.index < 16384 := by
        rcases hop with rfl | rfl <;> exact h l hl
      exact ⟨hbits, by omega⟩
    rw [fieldLanes_selected hlen rest hop hfit, List.map_map]
    rcases hop with rfl | rfl <;> rfl

end Fields

/-- Contributions of an integer format have no non-finite elements. -/
theorem MergeTree.nonfinite_integer {op code : Nat} (h : floatFmt code = none) (t : MergeTree) : t.nonfinite op code = 0 := by
  rw [MergeTree.nonfinite, List.map_congr_left fun x _ => (contribution_nf op code x.1 x.2).2 h]
  simp

/-- A partial that arrives in segments has its count, and lanes that show what it showed. -/
theorem ofSegments_segmentsOf {op code n : Nat} (h1 : 1 ≤ op) (h9 : op ≤ 9) (hc0 : code ≠ 0) (hc7 : code ≤ 7)
    (hbit : 4 ≤ op → op ≤ 6 → floatFmt code = none) (hn : n ≤ 16384) {p : Partial} (hlen : p.lanes.length = laneCount code)
    (hls : ∀ l ∈ p.lanes, FieldLane op code n l) (hnf : p.nf < 2 ^ 32) (hint : floatFmt code = none → p.nf = 0) :
    (ofSegments op code (segmentsOf op code p)).lanes.map (Lane.shown op) = p.lanes.map (Lane.shown op) ∧
      (ofSegments op code (segmentsOf op code p)).nf = p.nf := by
  obtain ⟨-, -, -, hpos, -⟩ := laneWidth_bytes code
  have hne : p.lanes ≠ [] := List.ne_nil_of_length_pos (hlen ▸ hpos)
  have hfields := length_laneFields h9 hlen
  have hpack := packPartial_lanes (code := code) h9 hne
  have hfit : (packPartial op code p).length ≤ 64 * segmentCount op code := by
    refine le_trans (le_of_eq ?_) (fieldBytes_segments h1 h9 hc0 hc7 hbit)
    rw [hpack, List.length_append, hfields]
    split <;> simp
  rw [ofSegments, segmentsOf, segments_bytes _ _ hfit, unpackPartial_fields h9, hpack, List.append_assoc]
  refine ⟨fieldLanes_shown hlen _ h1 h9 hn hls, ?_⟩
  rw [← hfields, List.drop_left]
  cases hf : floatFmt code with
  | none => simp [hint hf]
  | some f =>
    simp only [Option.isSome_some, if_true, List.append_assoc]
    rw [List.take_left' (length_bytesLE 4 _)]
    exact ofBytesLE_bytesLE (by omega)

/-- Settles O60, by the layout of the partial: its lanes are those of at most 16384 contributions, which their fields hold. -/
theorem segmentsCarryPartials : Obligations.SegmentsCarryPartials := by
  unfold Obligations.SegmentsCarryPartials
  intro p n seed index epoch t hok h0 hc7 hcount hi
  obtain ⟨h1, h9, hc0, hbit⟩ := redOk_bounds hok h0
  rw [MergeTree.partial_eq]
  have hlanes : ∀ l ∈ (List.range (laneCount p.inFormat)).map fun k => t.lane p.redOp p.inFormat k,
      FieldLane p.redOp p.inFormat t.leaves.length l := by
    simpa using fun k _ => fieldLane_lane h1 h9 hc0 hc7 hi k
  obtain ⟨hshown, hnf⟩ := ofSegments_segmentsOf (p := ⟨_, min 0xFFFFFFFF (t.nonfinite p.redOp p.inFormat)⟩) h1 h9 hc0 hc7 hbit
    hcount (by simp) hlanes (by dsimp only; omega) fun hint => by simp [MergeTree.nonfinite_integer hint]
  exact finishPartial_congr h9 seed index epoch hshown hnf

end Sys2Proof.Machine
end

/-!
PROOFS of landing counters and seals (chapter 07): the operations on a landing counter at its home, the reports that credit it,
and the messages that move a seal entry.
-/

section
namespace Sys2Proof.Machine

/-! ## Operations that meet their landing counter at their own station -/

/-- An operation on a landing counter that has not failed, other than DESTROY and CANCEL, is the counter's. -/
theorem runOn_landing (s : State) (n : Nat) {o : Obj} {l : Landing} (f : FwdOp) (hb : o.body = .landing l)
    (hf : o.failed = false) (hd : f.op ≠ .destroy) (hc : f.op ≠ .cancel) : runOn s n o f = homeLanding s n o l f := by
  simp only [runOn, hd, hc, hf, hb, Bool.false_eq_true, if_false]

/-- So it is for a record that meets its landing counter at its own station. -/
theorem exec_landingHere (op : Opcode) {r : OpRec} {s : State} {o : Obj} {l : Landing} (hb : o.body = .landing l)
    {effect : State → Obj → FwdOp → State} (ho : ordinary op = true) (hd : op ≠ .destroy) (h : MeetsHere op r s o)
    (he : ∀ t o', o'.hi = o.hi → homeLanding t r.station o' l (travelling op r (admitted r s) 0) =
      effect t o' (travelling op r (admitted r s) 0)) :
    exec (recordCommand op r) s = .next (settled (doneHere op r s o effect)) := by
  have hc : op ≠ .cancel := by rintro rfl; exact absurd ho (by decide)
  refine exec_meetsHere_as op r s o ho h fun t o' hbody hhi hfailed => ?_
  rw [runOn_landing t r.station _ (hbody.trans hb) hfailed hd hc, he t o' hhi]

/-- And for a LAND_WAIT, with its waiter record taken. -/
theorem exec_landingWaits {r : OpRec} {s : State} {o : Obj} {l : Landing} (hb : o.body = .landing l)
    {effect : State → Obj → FwdOp → State} (h : WaitsHere .landWait r s o)
    (he : ∀ t o', homeLanding t r.station o' l (waitingOp .landWait r s r.station) =
      effect t o' (waitingOp .landWait r s r.station)) :
    exec (.landWait r) s = .next (settled (waitedHere .landWait r s o effect)) := by
  refine exec_waitsHere_as .landWait r s o (.inr (.inr (.inl rfl))) h fun t o' hbody _ hfailed => ?_
  rw [← he t o']
  exact runOn_landing t r.station _ (hbody.trans hb) hfailed nofun nofun

/-- A selector that is not the extra generation is STALE; LAND_READ's answer then gives the present handle (R219). -/
theorem homeLanding_stale (s : State) (n : Nat) (o : Obj) {l : Landing} {f : FwdOp} (hsel : Handle.sel f.handle ≠ l.xgen.toNat) :
    homeLanding s n o l f =
      answer s n f ⟨.stale, if f.op = .landRead then landHandle s o l else 0, 0, none, none⟩ :=
  if_pos hsel

/-! ## The operations on the present generation (R226 to R228, R240) -/

section Present

variable (s : State) (n : Nat) (o : Obj) {l : Landing} {f : FwdOp} (hsel : Handle.sel f.handle = l.xgen.toNat)
include hsel

/-- LAND_EXPECT of a number that fits adds it to what is expected, and answers what was expected before. -/
theorem homeLanding_landExpect_fits (hop : f.op = .landExpect) (ha : f.a ≠ 0) (hfits : l.expect.toNat + f.a.toNat < 2 ^ 64) :
    homeLanding s n o l f =
      reply (noteShadow (setObj s n (hiIndex o.hi) { o with body := .landing { l with expect := l.expect + f.a } })
        { o with body := .landing { l with expect := l.expect + f.a } } 2 .ok f.agent) n f l.expect 0 := by
  have hok : ¬ (f.a = 0 ∨ 2 ^ 64 ≤ l.expect.toNat + f.a.toNat) := not_or.2 ⟨ha, Nat.not_le.2 hfits⟩
  simp only [homeLanding, hsel, hop, landExpect, ne_eq, not_true_eq_false, if_false]
  exact if_neg hok

/-- LAND_EXPECT of 0, or beyond the largest number, is refused. -/
theorem homeLanding_landExpect_refused (hop : f.op = .landExpect) (ha : f.a = 0 ∨ 2 ^ 64 ≤ l.expect.toNat + f.a.toNat) :
    homeLanding s n o l f = refuse s n f .privilege := by
  simp only [homeLanding, hsel, hop, landExpect, ne_eq, not_true_eq_false, if_false]
  exact if_pos ha

/-- LAND_READ answers what has landed and what is expected. -/
theorem homeLanding_landRead (hop : f.op = .landRead) : homeLanding s n o l f = reply s n f l.landed l.expect := by
  simp only [homeLanding, hsel, hop, ne_eq, not_true_eq_false, if_false]

/-- A LAND_WAIT for bytes that have landed ends at once. -/
theorem homeLanding_landWait_ends (hop : f.op = .landWait)
    (hle : (if f.a = 0 then l.expect else f.a).toNat ≤ l.landed.toNat) : homeLanding s n o l f = reply s n f 0 0 := by
  simp only [homeLanding, hsel, hop, landWait, ne_eq, not_true_eq_false, if_false]
  exact if_pos hle

/-- Else it is registered, in one of at most four eddies. -/
theorem homeLanding_landWait_registers (hop : f.op = .landWait)
    (hlt : l.landed.toNat < (if f.a = 0 then l.expect else f.a).toNat) :
    homeLanding s n o l f = registerWait s n o l.eddies 4 false (if f.a = 0 then l.expect else f.a) f false
      fun es => .landing { l with eddies := es } := by
  simp only [homeLanding, hsel, hop, landWait, ne_eq, not_true_eq_false, if_false]
  exact if_neg (Nat.not_le.2 hlt)

/-- LAND_RENEW renews the counter. -/
theorem homeLanding_landRenew (hop : f.op = .landRenew) : homeLanding s n o l f = landRenew s n o l f := by
  simp only [homeLanding, hsel, hop, ne_eq, not_true_eq_false, if_false]

/-- LAND_SEAL seals it. -/
theorem homeLanding_landSeal (hop : f.op = .landSeal) : homeLanding s n o l f = landSeal s n o l f := by
  simp only [homeLanding, hsel, hop, ne_eq, not_true_eq_false, if_false]

end Present

/-- Settles O11, by the operation; LAND_EXPECT by whether its number fits, and LAND_WAIT by whether its bytes have landed. -/
theorem landingOperations : Obligations.LandingOperations := by
  unfold Obligations.LandingOperations
  intro r s o l hb hsel
  refine ⟨fun h ha hfits => ?fits, fun h ha => ?refused, fun h => ?read, fun h hle => ?ends, fun n h hn hlt => ?registers,
    fun h => ?renew⟩
  case fits =>
    refine exec_landingHere .landExpect hb rfl nofun h fun t o' hhi => ?_
    rw [homeLanding_landExpect_fits t r.station o' hsel rfl ha hfits, hhi]; rfl
  case refused =>
    exact exec_landingHere .landExpect hb rfl nofun h fun t o' _ => homeLanding_landExpect_refused t r.station o' hsel rfl ha
  case read => exact exec_landingHere .landRead hb rfl nofun h fun t o' _ => homeLanding_landRead t r.station o' hsel rfl
  case ends => exact exec_landingWaits hb h fun t o' => homeLanding_landWait_ends t r.station o' hsel rfl hle
  case registers =>
    subst hn
    exact exec_landingWaits hb h fun t o' => homeLanding_landWait_registers t r.station o' hsel rfl hlt
  case renew =>
    refine exec_landingHere .landRenew hb rfl nofun h fun t o' hhi => ?_
    rw [homeLanding_landRenew t r.station o' hsel rfl, landRenew, hhi]; rfl

/-- Settles O12: the selector is checked before the operation. -/
theorem landingStale : Obligations.LandingStale := by
  unfold Obligations.LandingStale
  intro r s o l hb hsel
  refine ⟨fun op hop h => ?here, fun h => ?waits⟩
  case here =>
    obtain ⟨ho, hd⟩ : ordinary op = true ∧ op ≠ .destroy := by fin_cases hop <;> exact ⟨rfl, nofun⟩
    exact exec_landingHere op hb ho hd h fun t o' _ => homeLanding_stale t r.station o' hsel
  case waits => exact exec_landingWaits hb h fun t o' => homeLanding_stale t r.station o' hsel

/-! ## LAND_SEAL (R234, R236) -/

/-- A record's seal is not valid where its mask is zero, its address is not aligned to 64 bytes, or it has no payload. -/
theorem sealOk_travelling (op : Opcode) (r : OpRec) (s : State) (wait : Nat) :
    sealOk (travelling op r s wait) = false ↔ r.operandB = 0 ∨ r.operandA.toNat % 64 ≠ 0 ∨ r.payload = false := by
  by_cases hp : r.payload = true <;> simp [sealOk, travelling, bits, hp, or_iff_not_imp_left]

section Seal

variable {s : State} {n : Nat} {o : Obj} {l : Landing} {f : FwdOp} {p : Payload}

/-- A seal that finds no entry is refused with QUOTA. -/
theorem landSeal_noEntry (hc : chooseSeal s n = none) : landSeal s n o l f = refuse s n f .quota := by
  simp only [landSeal, hc]

variable {b e : Nat} (hc : chooseSeal s n = some (b, e))
include hc

/-- So is one that would be held beyond what may be. -/
theorem landSeal_holdRefused (hlt : l.landed.toNat < l.expect.toNat) (hr : holdRefused s n o l = true) :
    landSeal s n o l f = refuse s n f .quota := by
  simp only [landSeal, hc, Nat.not_le.2 hlt, hr, decide_false, Bool.not_false, Bool.and_self, if_true]

/-- Else one whose operands are not valid is refused with PRIVILEGE. -/
theorem landSeal_invalid (hr : ¬ (l.landed.toNat < l.expect.toNat ∧ holdRefused s n o l = true)) (hok : sealOk f = false) :
    landSeal s n o l f = refuse s n f .privilege := by
  have hq : (!decide (l.expect.toNat ≤ l.landed.toNat) && holdRefused s n o l) = false := by
    simpa using hr
  simp only [landSeal, hc, hq, hok, Bool.not_false, Bool.false_eq_true, if_false, if_true]

variable (hok : sealOk f = true) (hd : f.data = some p)
include hok hd

/-- One whose counter has landed what it expects is deposited and released at once. -/
theorem landSeal_released (hle : l.expect.toNat ≤ l.landed.toNat) :
    landSeal s n o l f =
      let t := onStation s n fun st => { st with sealsUsed := st.sealsUsed ++ [256 * b + e] }
      let u := send t n (bufferStation t b) (.sealDeposit ⟨o.hi, l.xgen, b, e⟩ f.a f.b p)
      reply (send u n (bufferStation u b) (.sealRelease ⟨o.hi, l.xgen, b, e⟩)) n f 0 1 := by
  have hnow : decide (l.expect.toNat ≤ l.landed.toNat) = true := decide_eq_true hle
  simp only [landSeal, hc, hnow, hok, hd, Bool.not_true, Bool.false_and, Bool.false_eq_true, if_false]
  rw [if_pos hle]; rfl

/-- Any other is deposited and held. -/
theorem landSeal_held (hlt : l.landed.toNat < l.expect.toNat) (hr : holdRefused s n o l = false) :
    landSeal s n o l f =
      let t := onStation s n fun st => { st with sealsUsed := st.sealsUsed ++ [256 * b + e] }
      let u := send t n (bufferStation t b) (.sealDeposit ⟨o.hi, l.xgen, b, e⟩ f.a f.b p)
      reply (setObj u n (hiIndex o.hi) { o with body := .landing { l with seals := l.seals ++ [⟨l.xgen, b, e⟩] } })
        n f 0 0 := by
  have hnow : decide (l.expect.toNat ≤ l.landed.toNat) = false := decide_eq_false (Nat.not_le.2 hlt)
  simp only [landSeal, hc, hr, hnow, hok, hd, Bool.not_true, Bool.and_false, Bool.false_eq_true, if_false]
  rw [if_neg (Nat.not_le.2 hlt)]; rfl

end Seal

/-- Settles O13, by the entry that the seal finds, then by each of its checks in turn. -/
theorem landSeal_holds : Obligations.LandSeal := by
  unfold Obligations.LandSeal
  intro r s o l hb hsel h
  refine exec_landingHere .landSeal hb rfl nofun h fun t o' hhi => ?_
  rw [homeLanding_landSeal t r.station o' hsel rfl, ← hhi]
  have hinvalid := sealOk_travelling .landSeal r (admitted r s) 0
  dsimp only
  split
  case h_1 hc => exact landSeal_noEntry hc
  case h_2 b e hc =>
    split_ifs with hr hbad hle
    · exact landSeal_holdRefused hc hr.1 hr.2
    · exact landSeal_invalid hc hr (hinvalid.2 hbad)
    all_goals
      have hok := Bool.eq_true_of_not_eq_false (mt hinvalid.1 hbad)
      have hpayload := Bool.eq_true_of_not_eq_false fun hp => hbad (.inr (.inr hp))
      have hdata : (travelling .landSeal r (admitted r s) 0).data = some r.data := if_pos hpayload
    · exact landSeal_released hc hok hdata hle
    · have hlt := Nat.not_le.1 hle
      exact landSeal_held hc hok hdata hlt (Bool.eq_false_of_not_eq_true fun hheld => hr ⟨hlt, hheld⟩)

/-! ## Landing reports (R220 to R225, R538) -/

/-- A report that comes to its port is taken in a step of its attach station. -/
theorem exec_landingReport {p : ReportIn} {s : State} (h : ReportComes p s) :
    exec (.landingReport p) s = conclude (stepOn (reportTaken p s) (reportStation s p.port) p.handle
      (takeReport (atStep (reportTaken p s)) p (reportStation s p.port))) := by
  obtain ⟨hlive, hport, hcredit, hcode⟩ := h
  show execLandingReport p s = _
  simp only [execLandingReport, reportPresented, hlive, hport, hcredit, hcode, Bool.not_true, Bool.or_self,
    Bool.false_eq_true, if_false]
  rfl

/-- A report that another station sent is a step of the station that takes it. -/
theorem exec_reportCredit {s : State} {src dst : Nat} {r : Report} {rest : List Msg} (ht : TakesMsg s src dst (.report r) rest) :
    exec (.reportCredit src dst) s =
      conclude (stepOn (taken s dst rest) dst r.handle (reportArrives (atStep (taken s dst rest)) dst r)) := by
  show execReportCredit src dst s = _
  exact arrives_takes s src dst _ rest _ _ 0 rfl ht rfl

/-- A report in form is of an enabled function. -/
theorem fn_enabled_of_reportRefusal {s : State} {p : ReportIn} (h : reportRefusal s p = none) :
    (fnOf s p.fnStamp.toNat).state = .enabled := by
  by_contra hs
  simp only [reportRefusal, hs, ne_eq, not_false_eq_true, if_true] at h
  split at h <;> cases h

section TakeReport

variable {s : State} {p : ReportIn} {n : Nat}

/-- A report that fails a check is discarded and counted, and its credit returns. -/
theorem takeReport_refused {k : Nat} (h : reportRefusal s p = some k) :
    takeReport s p n = returnReportCredit (discardReport s k p.fnStamp.toNat) p.port := by
  simp only [takeReport, h]

/-- One in form has arrived at its attach station. -/
theorem takeReport_inForm (h : reportRefusal s p = none) :
    takeReport s p n = reportArrives s n ⟨p.handle, p.fnStamp.toNat, p.bytes.toNat, 0, some p.port⟩ := by
  simp only [takeReport, h]

end TakeReport

/-- A credit that returns to its port changes the transfers driven, or what a link port owes. -/
theorem returnReportCredit_port (s : State) (p : ReportPort) :
    ∃ o l, returnReportCredit s p = { s with outputs := o, links := l } := by
  unfold returnReportCredit
  split
  · obtain ⟨o, ho⟩ := drive_outputs s [.reportCredit p]
    exact ⟨o, s.links, ho⟩
  · cases p with
    | landing n => exact ⟨s.outputs, s.links, rfl⟩
    | link n => exact ⟨s.outputs, _, rfl⟩

section Arrives

variable {s : State} {n : Nat} {r : Report}

section Elsewhere

variable {e : ChartEntry} (hc : chartAt s n (Handle.index r.handle) = some e) (hn : e.home ≠ n)
include hc hn

/-- A report for another home is forwarded there. -/
theorem reportArrives_forwarded (hh : r.hops < 2) : reportArrives s n r = forwardReport s n e.home r := by
  simp only [reportArrives, hc, hn, Nat.not_le.2 hh, ne_eq, not_false_eq_true, if_true, if_false]

/-- One that has been forwarded twice is kept (R224). -/
theorem reportArrives_kept (hh : 2 ≤ r.hops) : reportArrives s n r = keepReport s n r := by
  simp only [reportArrives, hc, hn, hh, ne_eq, not_false_eq_true, if_true]

end Elsewhere

section Here

variable (hc : chartAt s n (Handle.index r.handle) = some ⟨0, n⟩)
include hc

/-- A report for an object on the move is kept. -/
theorem reportArrives_moving (hm : movingHere (station s n) (Handle.index r.handle) = true) :
    reportArrives s n r = keepReport s n r := by
  simp only [reportArrives, hc, hm, ne_eq, not_true_eq_false, if_true, if_false]

/-- At its home a report's credit returns, and the home takes it. -/
theorem reportArrives_home (hm : movingHere (station s n) (Handle.index r.handle) = false) :
    reportArrives s n r = reportHome (creditReport s r) n r := by
  simp only [reportArrives, hc, hm, ne_eq, not_true_eq_false, Bool.false_eq_true, if_false]

end Here

section Home

variable {o : Obj} {l : Landing} (he : (fnOf s r.fnStamp).state = .enabled) (ho : liveObj s n r.handle = some o)
  (hb : o.body = .landing l) (hf : o.failed = false)
include he ho hb hf

/-- The home credits the counter of the report's generation. -/
theorem reportHome_credits (hsel : Handle.sel r.handle = l.xgen.toNat) :
    reportHome s n r = creditLanding s n o l r.bytes := by
  simp only [reportHome, he, ho, hb, hf, hsel, ne_eq, not_true_eq_false, Bool.false_eq_true, if_false]

/-- A report of another generation is discarded. -/
theorem reportHome_otherGeneration (hsel : Handle.sel r.handle ≠ l.xgen.toNat) :
    reportHome s n r = discardReport s 0x270205 r.fnStamp := by
  simp only [reportHome, he, ho, hb, hf, hsel, ne_eq, not_true_eq_false, not_false_eq_true, Bool.false_eq_true, if_false,
    if_true]

end Home

/-- A report of an enabled function that lands at a station credits its counter there, its credit returned first. -/
theorem reportArrives_lands {o : Obj} {l : Landing} (he : (fnOf s r.fnStamp).state = .enabled) (hl : LandsAt s n r.handle o l) :
    reportArrives s n r = creditLanding (creditReport s r) n o l r.bytes := by
  obtain ⟨hc, hm, ho, hb, hf, hsel⟩ := hl
  obtain ⟨x, y, hx⟩ : ∃ x y, creditReport s r = { s with outputs := x, links := y } := by
    cases hp : r.port with
    | none => exact ⟨s.outputs, s.links, by simp only [creditReport, hp]⟩
    | some p => simpa only [creditReport, hp] using returnReportCredit_port s p
  rw [reportArrives_home hc hm, hx]
  exact reportHome_credits he ho hb hf hsel

end Arrives

/-! ## A report to a counter that nothing waits on (R223) -/

/-- Every other value of a function is left alone. -/
theorem fnSetting_setFnSetting_other (s : State) (f g sub sub' v : Nat) (h : 256 * g + sub' ≠ 256 * f + sub) :
    fnSetting (setFnSetting s f sub v) g sub' = fnSetting s g sub' := by
  simp only [fnSetting, setFnSetting, tgetD, tget_tput_other _ _ _ _ h]

/-- An object of a function that is not host-observed makes no shadow record due. -/
theorem noteShadow_unobserved {s : State} {o : Obj} (event : Nat) (outcome : Status) (agent : Nat)
    (h : hostObserved s (hiFn o.hi) = false) : noteShadow s o event outcome agent = s := by
  simp only [noteShadow, shadowed, h, Bool.false_and, Bool.false_eq_true, if_false]

/-- No message sent leaves the state as it is. -/
@[simp] theorem sendAll_nil (s : State) (n : Nat) : sendAll s n [] = s := by
  simp only [sendAll, List.map_nil, List.append_nil]

/-- An object without watches is put back as it is. -/
theorem putObserved_unwatched (s : State) (home : Nat) {o : Obj} (h : o.watches = []) :
    putObserved s home o = setObj s home (hiIndex o.hi) o := by
  obtain ⟨hi, body, failed, watches, tracker⟩ := o
  subst h
  simp only [putObserved, List.filter_nil, List.map_nil, sendAll_nil]

/-- Whether a report takes a counter past what it expects (R223). -/
abbrev passesExpect (l : Landing) (bytes : Nat) : Prop :=
  l.expect ≠ 0 ∧ l.expect.toNat < (l.landed + BitVec.ofNat 64 bytes).toNat

/-- A counter once a report has been credited. -/
def creditedWith (l : Landing) (bytes : Nat) : Landing := { l with
  landed := l.landed + BitVec.ofNat 64 bytes
  overruns := if passesExpect l bytes then min 0xFFFF (l.overruns + 1) else l.overruns }

/-- The state once a report has been counted, and for the counter's function its overrun. -/
def reportCounted (s : State) (fn : Nat) (l : Landing) (bytes : Nat) : State :=
  bump (if passesExpect l bytes then bumpFn s fn 0x1F else s) 0x270102

/-- Counting a report changes the dictionary, and no function's host-observed mode. -/
theorem reportCounted_others (s : State) (fn : Nat) (l : Landing) (bytes : Nat) :
    (reportCounted s fn l bytes).stations = s.stations ∧ (reportCounted s fn l bytes).course = s.course ∧
    ∀ g, hostObserved (reportCounted s fn l bytes) g = hostObserved s g := by
  unfold reportCounted
  split
  · refine ⟨rfl, rfl, fun g => ?_⟩
    have hother := fnSetting_setFnSetting_other s fn g 0x1F 0x2E ((fnSetting s fn 0x1F + 1) % 256 ^ rowSize fnRows 0x1F)
      (by omega)
    exact congrArg (· == 1) hother
  · exact ⟨rfl, rfl, fun _ => rfl⟩

/-- A report to a counter without waits, seals and watches is counted, and puts the counter back credited. -/
theorem creditLanding_alone (s : State) (home bytes : Nat) {o : Obj} {l : Landing} (he : l.eddies = []) (hs : l.seals = [])
    (hw : o.watches = []) (hh : hostObserved s (hiFn o.hi) = false) :
    creditLanding s home o l bytes = setObj (reportCounted s (hiFn o.hi) l bytes) home (hiIndex o.hi)
      { o with body := .landing (creditedWith l bytes) } := by
  obtain ⟨landed, expect, xgen, eddies, seals, overruns⟩ := l
  obtain ⟨hi, body, failed, watches, tracker⟩ := o
  subst he hs hw
  obtain ⟨_, _, hmode⟩ := reportCounted_others s (hiFn hi) ⟨landed, expect, xgen, [], [], overruns⟩ bytes
  have hpast : (expect != 0 && decide (expect.toNat < (landed + BitVec.ofNat 64 bytes).toNat)) = true ↔
      passesExpect ⟨landed, expect, xgen, [], [], overruns⟩ bytes := by simp [passesExpect]
  simp only [creditLanding, evalEddies, grantAll, sampleFanout, sealMsgs, List.filter_nil, List.flatMap_nil, List.map_nil,
    List.sum_nil, sendAll_nil, if_true, ite_self, putObserved_unwatched, hpast]
  rw [noteShadow_unobserved 2 .ok 0 ((hmode (hiFn hi)).trans hh), ite_self]
  rfl

/-- Settles O37: a report that comes to its port by its checks and then by where its counter is, one that was forwarded by where
its counter is, and the credit of a counter that nothing waits on. -/
theorem landingReports : Obligations.LandingReports := by
  unfold Obligations.LandingReports
  refine ⟨?comes, ?forwarded, ?alone⟩
  case comes =>
    rintro s _ p _ h rfl rfl
    rw [exec_landingReport h]
    refine ⟨fun o l hok hl => ?lands, fun k hk => ?refused, fun e hok hc hn => ?away, fun hok hc hm => ?moving⟩
    case lands =>
      rw [takeReport_inForm hok, reportArrives_lands (fn_enabled_of_reportRefusal hok) hl]; rfl
    case refused => rw [takeReport_refused hk]; rfl
    case away => rw [takeReport_inForm hok, reportArrives_forwarded hc hn (by simp only [Nat.ofNat_pos])]; rfl
    case moving => rw [takeReport_inForm hok, reportArrives_moving hc hm]; rfl
  case forwarded =>
    rintro s _ src dst ⟨handle, fnStamp, bytes, hops, _⟩ rest ht rfl rfl
    rw [exec_reportCredit ht]
    refine ⟨fun o l he hl => ?lands, fun o l he hc hm ho hb hf hsel => ?otherGeneration, fun e hc hn =>
      ⟨fun hh => ?again, fun hh => ?twice⟩⟩
    case lands => rw [reportArrives_lands he hl]; rfl
    case otherGeneration =>
      rw [reportArrives_home hc hm]
      exact congrArg (fun t => conclude (stepOn _ _ _ t)) (reportHome_otherGeneration he ho hb hf hsel)
    case again => rw [reportArrives_forwarded hc hn hh]; rfl
    case twice => rw [reportArrives_kept hc hn hh]; rfl
  case alone =>
    intro s home bytes o l _ he hs hw hh
    obtain ⟨hstations, hcourse, _⟩ := reportCounted_others s (hiFn o.hi) l bytes
    have hobjs : ∀ n i, objAt (reportCounted s (hiFn o.hi) l bytes) n i = objAt s n i := fun n i => by
      simp only [objAt, station, hstations]
    refine ⟨_, creditLanding_alone s home bytes he hs hw hh, objAt_setObj_same .., fun n i h => ?_, ?_⟩
    · rw [objAt_setObj_other _ _ _ _ _ _ h, hobjs]
    · exact hcourse

/-! ## The states of a seal entry (Table 7.9, R236) -/

section Entry

variable {s : State} {r : SealRef} {e : SealEntry} (he : tget s.seals (sealKey r) = some e)
include he

/-- A released HELD entry is WRITING, and its write waits at the buffer's initiator until it has credit. -/
theorem sealReleased_held {t : State} (hstate : e.state = 1)
    (ht : t = { s with seals := tput s.seals (sealKey r) { e with state := 2 } }) :
    sealReleased s r = driveSeals ((xiAt t (bufferInitiator t r.buffer)).sealsWait.length + 1)
      (setXi t (bufferInitiator t r.buffer) { xiAt t (bufferInitiator t r.buffer) with
        sealsWait := (xiAt t (bufferInitiator t r.buffer)).sealsWait ++ [sealKey r] }) (bufferInitiator t r.buffer) := by
  subst ht
  simp only [sealReleased, he, hstate, if_true]
  rfl

/-- A discarded HELD entry is free and counted. -/
theorem sealDropped_held (hstate : e.state = 1) :
    sealDropped s r = countSealDiscard (freeSeal s (sealKey r) e) (hiFn e.hi) := by
  simp only [sealDropped, he, hstate, if_true]

/-- Any other completes its write. -/
theorem sealDropped_writing (hstate : e.state ≠ 1) : sealDropped s r = s := by
  simp only [sealDropped, he, hstate, if_false]

end Entry

/-- A registration that passes the checks of its counter's home is a step of the home on the counter (R238). -/
theorem sealRegistered_accepted {s t : State} {n : Nat} {r : SealRef} {f : FwdOp} {o : Obj} {l : Landing} (ht : t = atStep s)
    (hfn : (fnOf s (Handle.fn f.handle)).state = .enabled) (ho : liveObj s n f.handle = some o) (hb : o.body = .landing l)
    (hf : o.failed = false) (hsel : Handle.sel f.handle = l.xgen.toNat) (hok : sealOk f = true) :
    sealRegistered s n r f = homeStep s n o.hi fun _ =>
      registerLinkSeal (setObj t n (hiIndex o.hi) (track t o f)) n (track t o f) l r f := by
  have hstate : stateRefusal s (Handle.fn f.handle) = none := by simp only [stateRefusal, hfn]
  simp only [sealRegistered, hstate, ho]
  rw [homeStep_eq, ← ht]
  simp only [hb, hf, hsel, hok, Bool.not_true, ne_eq, not_true_eq_false, Bool.false_eq_true, if_false]

section Messages

variable {s : State} {src dst : Nat} {r : SealRef} {rest : List Msg}

/-- A deposit reaches its buffer. -/
theorem exec_sealDeposit {address mask : Word} {data : Payload} (ht : TakesMsg s src dst (.sealDeposit r address mask data) rest) :
    exec (.sealDeposit src dst) s = conclude (sealDeposited (taken s dst rest) r address mask data) := by
  show execSealDeposit src dst s = _
  exact arrives_takes s src dst _ rest _ _ 0 rfl ht rfl

/-- So does a release. -/
theorem exec_sealRelease (ht : TakesMsg s src dst (.sealRelease r) rest) :
    exec (.sealRelease src dst) s = conclude (sealReleased (taken s dst rest) r) := by
  show execSealRelease src dst s = _
  exact arrives_takes s src dst _ rest _ _ 0 rfl ht rfl

/-- And a discard. -/
theorem exec_sealDiscard (ht : TakesMsg s src dst (.sealDiscard r) rest) :
    exec (.sealDiscard src dst) s = conclude (sealDropped (taken s dst rest) r) := by
  show execSealDiscard src dst s = _
  exact arrives_takes s src dst _ rest _ _ 0 rfl ht rfl

/-- A free notice reaches the entry's owner. -/
theorem exec_freeNotice {buffer entry : Nat} (ht : TakesMsg s src dst (.freeNotice buffer entry) rest) :
    exec (.freeNotice src dst) s = conclude (sealNoticed (taken s dst rest) dst buffer entry) := by
  show execFreeNotice src dst s = _
  exact arrives_takes s src dst _ rest _ _ 1 rfl ht rfl

/-- A registration reaches the home of its counter, which is not on the move. -/
theorem exec_sealRegister {f : FwdOp} (ht : TakesMsg s src dst (.sealRegister r f) rest)
    (hh : HomeHere (taken s dst rest) dst f.handle) :
    exec (.sealRegister src dst) s = conclude (sealRegistered (taken s dst rest) dst r f) := by
  obtain ⟨hhome, hleaving, hcoming⟩ := hh
  have hat : atObject (taken s dst rest) dst f.handle (.sealRegister r f) (fun u => sealRegistered u dst r f) =
      sealRegistered (taken s dst rest) dst r f := by
    simp only [atObject, hhome, hleaving, hcoming, ne_eq, not_true_eq_false, Bool.or_self, Bool.false_eq_true, if_false]
  show execSealRegister src dst s = _
  exact arrives_takes s src dst _ rest _ _ 0 rfl ht (congrArg some hat)

end Messages

/-- Settles O38, by the message; a discard by the state of its entry. -/
theorem sealMessages : Obligations.SealMessages := by
  unfold Obligations.SealMessages
  refine ⟨fun s src dst r rest => ⟨fun address mask data ht => ?deposit, fun e t ht he hstate htput => ?release,
    fun e ht he => ⟨fun hstate => ?held, fun hstate => ?writing⟩, fun buffer entry ht => ?notice⟩, ?register⟩
  case deposit => exact exec_sealDeposit ht
  case release => exact (exec_sealRelease ht).trans (congrArg conclude (sealReleased_held he hstate htput))
  case held => exact (exec_sealDiscard ht).trans (congrArg conclude (sealDropped_held he hstate))
  case writing => exact (exec_sealDiscard ht).trans (congrArg conclude (sealDropped_writing he hstate))
  case notice => exact exec_freeNotice ht
  case register =>
    intro s t src dst r f rest o l ht hh hfn ho hb hf hsel hok hstep
    exact (exec_sealRegister ht hh).trans (congrArg conclude (sealRegistered_accepted hstep hfn ho hb hf hsel hok))

end Sys2Proof.Machine
end

/-!
PROOFS of token queues (chapter 08): the operations on a queue at its home, the tail window, the idle timeout, and the messages
between a queue's home and the slice that holds its spilled blocks.
-/

section
namespace Sys2Proof.Machine

/-! ## Operations that meet their queue at their own station -/

/-- An operation on a queue that has not failed, other than DESTROY and CANCEL, is the queue's. -/
theorem runOn_queue (s : State) (n : Nat) {o : Obj} {q : Queue} (f : FwdOp) (hb : o.body = .queue q)
    (hf : o.failed = false) (hd : f.op ≠ .destroy) (hc : f.op ≠ .cancel) : runOn s n o f = homeQueue s n o q f := by
  simp only [runOn, hd, hc, hf, hb, Bool.false_eq_true, if_false]

/-- So it is for a record that meets its queue at its own station. -/
theorem exec_queueHere (op : Opcode) {r : OpRec} {s : State} {o : Obj} {q : Queue} (hb : o.body = .queue q)
    {effect : State → Obj → FwdOp → State} (ho : ordinary op = true) (hd : op ≠ .destroy) (h : MeetsHere op r s o)
    (he : ∀ t o', o'.hi = o.hi → homeQueue t r.station o' q (travelling op r (admitted r s) 0) =
      effect t o' (travelling op r (admitted r s) 0)) :
    exec (recordCommand op r) s = .next (settled (doneHere op r s o effect)) := by
  have hc : op ≠ .cancel := by rintro rfl; exact absurd ho (by decide)
  refine exec_meetsHere_as op r s o ho h fun t o' hbody hhi hfailed => ?_
  rw [runOn_queue t r.station _ (hbody.trans hb) hfailed hd hc, he t o' hhi]

/-- And for a Q_POP or Q_TOLL, with its waiter record taken. -/
theorem exec_queueWaits {op : Opcode} (hop : op = .qPop ∨ op = .qToll) {r : OpRec} {s : State} {o : Obj} {q : Queue}
    (hb : o.body = .queue q) {effect : State → Obj → FwdOp → State} (h : WaitsHere op r s o)
    (he : ∀ t o', o'.hi = o.hi → homeQueue t r.station o' q (waitingOp op r s r.station) =
      effect t o' (waitingOp op r s r.station)) :
    exec (recordCommand op r) s = .next (settled (waitedHere op r s o effect)) := by
  refine exec_waitsHere_as op r s o (.inr (.inr (.inr hop))) h fun t o' hbody hhi hfailed => ?_
  rw [← he t o' hhi]
  obtain rfl | rfl := hop
  · exact runOn_queue t r.station _ (hbody.trans hb) hfailed nofun nofun
  · exact runOn_queue t r.station _ (hbody.trans hb) hfailed nofun nofun

section AtHome

variable {s : State} {n : Nat} {o : Obj} {q : Queue} {f : FwdOp} (hq : q.faultAt = none)
include hq

/-- A queue that is not in FAULT takes a Q_PUSH. -/
theorem homeQueue_qPush (hop : f.op = .qPush) : homeQueue s n o q f = qPush s n o q f := by
  simp only [homeQueue, hop, hq, Option.isSome_none, Bool.false_eq_true, if_false]

/-- It takes a Q_POP. -/
theorem homeQueue_qPop (hop : f.op = .qPop) : homeQueue s n o q f = qPop s n o q f := by
  simp only [homeQueue, hop, hq, Option.isSome_none, Bool.false_eq_true, if_false]

/-- Q_MARK sets its mark to read. -/
theorem homeQueue_qMark (hop : f.op = .qMark) :
    homeQueue s n o q f = reply (setObj s n (hiIndex o.hi)
      { o with body := .queue { q with mark := q.read, marksSince := 0, markValid := true } }) n f
      (BitVec.ofNat 64 q.read) 0 := by
  simp only [homeQueue, hop, hq, Option.isSome_none, Bool.false_eq_true, if_false]

/-- It takes a Q_REWIND. -/
theorem homeQueue_qRewind (hop : f.op = .qRewind) : homeQueue s n o q f = qRewind s n o q f := by
  simp only [homeQueue, hop, hq, Option.isSome_none, Bool.false_eq_true, if_false]

/-- It takes a Q_RELEASE. -/
theorem homeQueue_qRelease (hop : f.op = .qRelease) : homeQueue s n o q f = qRelease s n o q f := by
  simp only [homeQueue, hop, hq, Option.isSome_none, Bool.false_eq_true, if_false]

/-- It takes a Q_TOLL. -/
theorem homeQueue_qToll (hop : f.op = .qToll) : homeQueue s n o q f = qToll s n o q f := by
  simp only [homeQueue, hop, hq, Option.isSome_none, Bool.false_eq_true, if_false]

/-- It takes a Q_POLICY. -/
theorem homeQueue_qPolicy (hop : f.op = .qPolicy) : homeQueue s n o q f = qPolicy s n o q f := by
  simp only [homeQueue, hop, hq, Option.isSome_none, Bool.false_eq_true, if_false]

/-- Q_READ answers its unread tokens, packets, toll and state. -/
theorem homeQueue_qRead (hop : f.op = .qRead) :
    homeQueue s n o q f = reply s n f (BitVec.ofNat 64 (q.push - q.read))
      (BitVec.ofNat 64 (q.packets + q.tollOut * 2 ^ 29 + q.state * 2 ^ 58)) := by
  simp only [homeQueue, hop, qRead, hq]

end AtHome

/-! ## Q_PUSH and the tail window (R262, R266, R267) -/

section Push

variable {s : State} {n : Nat} {o : Obj} {q : Queue} {f : FwdOp} {toks : List Token} (ht : pushTokens f = some toks)
include ht

/-- A push with enough toll takes its tokens from the toll and goes on. -/
theorem qPush_tolled (h : toks.length ≤ q.tollOut) :
    qPush s n o q f =
      let p : Pushing := ⟨f.agent, f.entry, f.tag, f.release, f.scope, q.push, endCount toks, toks⟩
      continuePush s n o { q with
        tollOut := q.tollOut - toks.length, pushing := some p
        quals := (q.quals.filter fun x => q.rel < x.2.1) ++ [(q.push, q.push + toks.length, f.scope, f.release)] } p := by
  simp only [qPush, ht, Nat.not_lt.2 h, if_false]

/-- One with less is refused with QUOTA, and counted. -/
theorem qPush_untolled (h : q.tollOut < toks.length) :
    qPush s n o q f = refuse (bumpFn s (hiFn o.hi) 0x20) n f .quota := by
  simp only [qPush, ht, h, if_true]

end Push

/-- Settles O14, by whether the toll is enough. -/
theorem queuePush : Obligations.QueuePush := by
  unfold Obligations.QueuePush
  intro r s o q toks hb hq h ht
  refine ⟨fun hle => ?tolled, fun hlt => ?untolled⟩
  case tolled =>
    refine exec_queueHere .qPush hb rfl nofun h fun t o' _ => ?_
    rw [homeQueue_qPush hq rfl, qPush_tolled ht hle]; rfl
  case untolled =>
    refine exec_queueHere .qPush hb rfl nofun h fun t o' hhi => ?_
    rw [homeQueue_qPush hq rfl, qPush_untolled ht hlt, hhi]

/-- Settles O15: the tokens are fewer than the places left, so that all are taken and the window is not full. -/
theorem tailTakesTokens : Obligations.TailTakesTokens := by
  unfold Obligations.TailTakesTokens
  intro s home hi q l fuel hspill hroom
  by_cases hl : l = []
  · subst hl
    simp only [writeTail, List.isEmpty_nil, true_or, if_true, List.append_nil, List.length_nil, Nat.add_zero]
  · have hgo : ¬ (l.isEmpty = true ∨ q.spillTail ≠ 0) := by simp [hl, hspill]
    have htake : l.take (16 - q.tail.length) = l := List.take_of_length_le (by omega)
    have hdrop : l.drop (16 - q.tail.length) = [] := List.drop_eq_nil_of_le (by omega)
    have hnotFull : (q.tail ++ l).length ≠ 16 := by rw [List.length_append]; omega
    simp only [writeTail, hgo, htake, hdrop, hnotFull, if_false]

/-! ## Q_POP (R263, R268 to R270, R275) -/

/-- The low bits of a number. -/
theorem bits_low {w : Nat} (v : BitVec w) (hi : Nat) : bits v hi 0 = v.toNat % 2 ^ (hi + 1) := by
  rw [bits, Nat.pow_zero, Nat.div_one, Nat.sub_zero]

/-- How a pop with a packet threshold ends at once; none where it waits. -/
def Queue.popStatus (q : Queue) (k : Nat) : Option Status :=
  let now := decide (q.read < q.push) && q.present
  if !q.returned.isEmpty || (now && q.holds k) then some .ok
  else if now && q.idleDue && decide (1 ≤ k) then some .idleTail else none

section Pop

variable {s : State} {n : Nat} {o : Obj} {q : Queue} {f : FwdOp}

section Ends

variable {k m : Nat} {stop : Bool} (hm : bits f.a 3 0 = m) (h1 : 1 ≤ m) (h8 : m ≤ 8) (hs : bit f.a 8 = stop)
  (hk : bits f.b 28 0 = k) (hcap : k ≤ q.capacity)
include hm h1 h8 hs hk hcap

/-- A pop that is OK answers what the queue gives it, once the queue has settled without those tokens. -/
theorem qPop_ok {p : Nat} {toks : List Token} {q0 : Queue} (hst : q.popStatus k = some .ok)
    (hg : q.give stop m = (p, toks, q0)) :
    qPop s n o q f =
      let (u, o1) := settleQueue (bumpBy s 0x280103 toks.length) n o (q0.rearm s) none
      answer (noteShadow u o1 2 .ok f.agent) n f (popInfo .ok p toks none) := by
  have hform : ¬ (m = 0 ∨ 8 < m ∨ q.capacity < k) := by omega
  unfold Queue.popStatus at hst
  simp only [qPop, hm, hs, hk, hform, hst, hg, reduceCtorEq, if_false]
  rfl

/-- One that ends with IDLE_TAIL is counted, and the idle time begins anew. -/
theorem qPop_idleTail {p : Nat} {toks : List Token} {q0 : Queue} (hst : q.popStatus k = some .idleTail)
    (hg : q.give stop m = (p, toks, q0)) :
    qPop s n o q f =
      let (u, o1) := settleQueue (bumpBy (bump s 0x280404) 0x280103 toks.length) n o
        (({ q0 with idleDue := false } : Queue).rearm s) none
      answer (noteShadow u o1 2 .ok f.agent) n f (popInfo .idleTail p toks none) := by
  have hform : ¬ (m = 0 ∨ 8 < m ∨ q.capacity < k) := by omega
  unfold Queue.popStatus at hst
  simp only [qPop, hm, hs, hk, hform, hst, hg, if_false, if_true]
  rfl

/-- Any other joins the eddy of its operands. -/
theorem qPop_waits (hst : q.popStatus k = none) :
    qPop s n o q f = registerWait s n o q.popEddies 4 true (popKey k m stop) f false
      fun es => .queue { q with popEddies := es } := by
  have hform : ¬ (m = 0 ∨ 8 < m ∨ q.capacity < k) := by omega
  unfold Queue.popStatus at hst
  simp only [qPop, hm, hs, hk, hform, hst, if_false]

end Ends

/-- With none that came back, a pop takes tokens from read on. -/
theorem give_unread {stop : Bool} {m : Nat} (hr : q.returned = []) :
    q.give stop m = (q.read, q.takeTokens stop m q.read, q.popped (q.takeTokens stop m q.read)) := by
  simp only [Queue.give, hr]

/-- Tokens that came back go first. -/
theorem give_returned {stop : Bool} {m p : Nat} {tok : Token} {rest : List (Nat × Token)} (hr : q.returned = (p, tok) :: rest) :
    q.give stop m = (p, takeRun stop m p q.returned,
      { q with returned := q.returned.drop (takeRun stop m p q.returned).length }) := by
  simp only [Queue.give, hr]

variable {k : Nat}

/-- A pop to which tokens come back is OK. -/
theorem popStatus_returned (hr : q.returned ≠ []) : q.popStatus k = some .ok := by
  simp [Queue.popStatus, hr]

section Unread

variable (hr : q.returned = [])
include hr

/-- So is one whose condition holds on tokens in a window. -/
theorem popStatus_holds (hn : (decide (q.read < q.push) && q.present) = true) (hk : q.holds k = true) :
    q.popStatus k = some .ok := by
  simp only [Queue.popStatus, hr, hn, hk, List.isEmpty_nil, Bool.not_true, Bool.and_self, Bool.or_true, if_true]

/-- One whose condition does not hold ends with IDLE_TAIL where the idle time has passed and its threshold is 1 or more. -/
theorem popStatus_idle (hn : (decide (q.read < q.push) && q.present) = true) (hk : q.holds k = false) (hi : q.idleDue = true)
    (h1 : 1 ≤ k) : q.popStatus k = some .idleTail := by
  simp only [Queue.popStatus, hr, hn, hk, hi, h1, List.isEmpty_nil, Bool.not_true, Bool.and_false, Bool.or_false,
    Bool.false_eq_true, if_false, decide_true, Bool.and_self, if_true]

/-- Any other waits. -/
theorem popStatus_waits (h : (decide (q.read < q.push) && q.present) = false ∨
    (q.holds k = false ∧ (q.idleDue = false ∨ k = 0))) : q.popStatus k = none := by
  obtain hn | ⟨hk, hi | rfl⟩ := h
  · simp only [Queue.popStatus, hr, hn, List.isEmpty_nil, Bool.not_true, Bool.false_and, Bool.or_false, Bool.false_eq_true,
      if_false]
  · simp only [Queue.popStatus, hr, hk, hi, List.isEmpty_nil, Bool.not_true, Bool.and_false, Bool.false_and, Bool.or_false,
      Bool.false_eq_true, if_false]
  · simp only [Queue.popStatus, hr, hk, List.isEmpty_nil, Bool.not_true, Bool.and_false, Bool.or_false,
      decide_eq_false (Nat.not_succ_le_zero 0), Bool.false_eq_true, if_false]

end Unread

end Pop

/-- Settles O16, by how the pop ends, and by whether tokens came back. -/
theorem queuePop : Obligations.QueuePop := by
  unfold Obligations.QueuePop
  rintro r s o q k m stop _ hb hq h hm h1 h8 hs hk hcap rfl
  have hm := (bits_low r.operandA 3).trans hm.symm
  have hk := (bits_low r.operandB 28).trans hk.symm
  refine ⟨fun hr hn hholds => ?holds, fun hr hn hholds hi hk1 => ?idle, fun hr hw => ?waits, fun p tok rest hr => ?returned⟩ <;>
    refine exec_queueWaits (op := .qPop) (.inl rfl) hb h fun t o' _ => (homeQueue_qPop hq rfl).trans ?_
  case holds => exact qPop_ok hm h1 h8 hs.symm hk hcap (popStatus_holds hr hn hholds) (give_unread hr)
  case idle => exact qPop_idleTail hm h1 h8 hs.symm hk hcap (popStatus_idle hr hn hholds hi hk1) (give_unread hr)
  case waits => exact qPop_waits hm h1 h8 hs.symm hk hcap (popStatus_waits hr hw)
  case returned =>
    exact qPop_ok hm h1 h8 hs.symm hk hcap (popStatus_returned (by rw [hr]; exact List.cons_ne_nil _ _)) (give_returned hr)

/-! ## Q_MARK, Q_REWIND, Q_RELEASE and Q_READ (R271 to R273) -/

section Cursors

variable {s : State} {n : Nat} {o : Obj} {q : Queue} {f : FwdOp}

/-- A rewind without a valid mark is STALE. -/
theorem qRewind_unmarked (hm : q.markValid = false) : qRewind s n o q f = refuse s n f .stale := by
  simp only [qRewind, hm, Bool.not_false, if_true]

/-- With one, read goes back to the mark, and the queue settles with what is unread again. -/
theorem qRewind_marked (hm : q.markValid = true) :
    qRewind s n o q f =
      let back := { q with
        packets := q.packets + q.marksSince, marksSince := 0, read := q.mark
        returned := q.returned.filter fun x => x.1 < q.mark || q.read ≤ x.1 }
      let (u, o1) := settleQueue (bumpFn s (hiFn o.hi) 0x22) n o
        (if q.read = q.push ∧ q.mark ≠ q.push then back.arm s else back) none
      reply (noteShadow u o1 2 .ok f.agent) n f (BitVec.ofNat 64 (q.read - q.mark)) 0 := by
  simp only [qRewind, hm, Bool.not_true, Bool.false_eq_true, if_false]

variable {k : Nat} (hk : k = if f.a = 0 then q.read - q.rel else f.a.toNat)
include hk

/-- A release of more than has been read is refused. -/
theorem qRelease_tooMany (h : q.read < q.rel + k) : qRelease s n o q f = refuse s n f .privilege := by
  simp only [qRelease, ← hk, h, if_true]

/-- Any other releases its tokens, and answers rel and the free space. -/
theorem qRelease_releases (h : q.rel + k ≤ q.read) :
    qRelease s n o q f =
      let (u, o1) := releaseTokens s n o q k (some f)
      reply (noteShadow u o1 2 .ok f.agent) n f (BitVec.ofNat 64 (q.rel + k))
        (BitVec.ofNat 64 (match o1.body with | .queue x => x.free | _ => 0)) := by
  subst hk
  exact if_neg (Nat.not_lt.2 h)

end Cursors

/-- Settles O17, by the operation; Q_REWIND by whether the mark is valid, and Q_RELEASE by how many tokens have been read. -/
theorem queueCursors : Obligations.QueueCursors := by
  unfold Obligations.QueueCursors
  intro r s o q hb hq
  refine ⟨fun h => ?mark, fun h hm => ?unmarked, fun h hm => ?marked, fun k hk h => ⟨fun hlt => ?tooMany, fun hle => ?releases⟩,
    fun h => ?read⟩
  case mark =>
    refine exec_queueHere .qMark hb rfl nofun h fun t o' hhi => ?_
    rw [homeQueue_qMark hq rfl, hhi]
  case unmarked =>
    exact exec_queueHere .qRewind hb rfl nofun h fun t o' _ => (homeQueue_qRewind hq rfl).trans (qRewind_unmarked hm)
  case marked =>
    refine exec_queueHere .qRewind hb rfl nofun h fun t o' hhi => ?_
    rw [homeQueue_qRewind hq rfl, qRewind_marked hm, hhi]; rfl
  case tooMany =>
    exact exec_queueHere .qRelease hb rfl nofun h fun t o' _ => (homeQueue_qRelease hq rfl).trans (qRelease_tooMany hk hlt)
  case releases =>
    exact exec_queueHere .qRelease hb rfl nofun h fun t o' _ => (homeQueue_qRelease hq rfl).trans (qRelease_releases hk hle)
  case read => exact exec_queueHere .qRead hb rfl nofun h fun t o' _ => homeQueue_qRead hq rfl

/-! ## Q_TOLL and Q_POLICY (R263, R274) -/

section TollPolicy

variable {s : State} {n : Nat} {o : Obj} {q : Queue} {f : FwdOp}

/-- An amount of 0 or beyond the capacity is refused. -/
theorem qToll_refused (h : f.a = 0 ∨ q.capacity < f.a.toNat) : qToll s n o q f = refuse s n f .privilege := if_pos h

/-- Toll is granted from the free space. -/
theorem qToll_granted (h0 : f.a ≠ 0) (hcap : f.a.toNat ≤ q.capacity) (hfree : f.a.toNat ≤ q.free) :
    qToll s n o q f = reply (setObj s n (hiIndex o.hi)
      { o with body := .queue { q with tollOut := q.tollOut + f.a.toNat } }) n f 0 0 := by
  simp only [qToll, h0, Nat.not_lt.2 hcap, hfree, or_self, if_false, if_true]

/-- Beyond it the toll is waited for, in one of two eddies. -/
theorem qToll_waits (hcap : f.a.toNat ≤ q.capacity) (hfree : q.free < f.a.toNat) :
    qToll s n o q f =
      registerWait s n o q.tollEddies 2 true f.a f true fun es => .queue { q with tollEddies := es } := by
  have h0 : f.a ≠ 0 := by rintro h; rw [h] at hfree; exact Nat.not_lt_zero _ hfree
  simp only [qToll, h0, Nat.not_lt.2 hcap, Nat.not_le.2 hfree, or_self, if_false]

/-- A policy word's idle timeout: none with bit 32, the default for 0. -/
theorem policyIdle_word {p : Payload} {v : Nat} (hrest : payloadNat p 8 56 = 0) (hp : payloadNat p 0 8 = v) (hv : v < 2 ^ 33) :
    policyIdle s p = some (if 2 ^ 32 ≤ v then 0 else if v = 0 then setting s 0x280200 else v) := by
  have hok : ¬ (0 ≠ 0 ∨ 2 ^ 33 ≤ v) := by omega
  simp only [policyIdle, hrest, hp, if_neg hok]
  by_cases hoff : 2 ^ 32 ≤ v
  · rw [if_pos hoff, if_pos (show v / 2 ^ 32 = 1 by omega)]
  · rw [if_neg hoff, if_neg (show v / 2 ^ 32 ≠ 1 by omega), Nat.mod_eq_of_lt (Nat.not_le.1 hoff)]

/-- A valid policy word sets the idle timeout. -/
theorem qPolicy_sets {p : Payload} {v : Nat} (hd : f.data = some p) (hv : policyIdle s p = some v) :
    qPolicy s n o q f = reply (setObj s n (hiIndex o.hi) { o with body := .queue { q with idleAc := v } }) n f 0 0 := by
  simp only [qPolicy, hd, hv]

end TollPolicy

/-- Settles O18: Q_TOLL by its amount, and Q_POLICY by its word. -/
theorem queueTollPolicy : Obligations.QueueTollPolicy := by
  unfold Obligations.QueueTollPolicy
  intro r s o q hb hq
  have htoll := fun {effect} => exec_queueWaits (op := .qToll) (.inr rfl) (r := r) (s := s) hb (effect := effect)
  refine ⟨fun h h0 hfree hcap => ?granted, fun h hfree hcap => ?waits, fun h hbad => ?refused,
    fun v h hp hrest hv hlt => ?policy⟩
  case granted =>
    refine htoll h fun t o' hhi => ?_
    rw [homeQueue_qToll hq rfl, qToll_granted h0 hcap hfree, hhi]; rfl
  case waits => exact htoll h fun t o' _ => (homeQueue_qToll hq rfl).trans (qToll_waits hcap hfree)
  case refused => exact htoll h fun t o' _ => (homeQueue_qToll hq rfl).trans (qToll_refused hbad)
  case policy =>
    refine exec_queueHere .qPolicy hb rfl nofun h fun t o' hhi => ?_
    rw [homeQueue_qPolicy hq rfl, qPolicy_sets (if_pos hp) (policyIdle_word hrest hv hlt), hhi]

/-! ## The idle timeout (R263, R275) -/

/-- Where a queue's idle deadline has come, its home's step lets the time pass. -/
theorem exec_idleTimeout {s : State} {n index : Nat} {o : Obj} (hn : takesNow s n true = true)
    (hdue : dueAt s n index Body.idleArmed = true) (ho : objAt (foreground s n) n index = some o) :
    exec (.idleTimeout n index) s =
      conclude (homeStep (foreground s n) n o.hi fun _ => idlePasses (atStep (foreground s n)) n index) := by
  show execIdleTimeout n index s = _
  rw [execIdleTimeout, deadlineAt_due _ hdue hn]
  simp only [ho]
  rw [homeStep_eq]

/-- The queue settles with its idle time passed, and the fc ends. -/
theorem idlePasses_armed {s : State} {n index d : Nat} {o : Obj} {q : Queue} (hm : movingHere (station s n) index = false)
    (ho : objAt s n index = some o) (hb : o.body = .queue q) (hd : q.idleDeadline = some d) :
    idlePasses s n index =
      passFc (settleQueue (passDeadline s d) n o { q with idleDeadline := none, idleDue := true } none).1 1 := by
  simp only [idlePasses, hm, ho, hb, hd, Bool.false_eq_true, if_false]

/-! ## Spills and refills at their slice (R294, R296, R297) -/

section TakeSpill

variable {s : State} {n src : Nat} {h : Word} {b seg : Nat} {d : Payload}

/-- A segment for a function that is not ENABLED is discarded. -/
theorem takeSpill_disabled (he : (fnOf s (Handle.fn h)).state ≠ .enabled) : takeSpill s n src h b seg d = s := by
  simp only [takeSpill, he, ne_eq, not_false_eq_true, if_true]

variable {j : Nat} (hj : j = servingSlice s (Handle.index h)) (he : (fnOf s (Handle.fn h)).state = .enabled)
include hj he

/-- With segment 0 the slice decides whether it accepts the spill, and gives it a buffer where it does. -/
theorem takeSpill_first :
    takeSpill s n src h b 0 d = setSlice s j { sliceAt s j with
      spillIn := (sliceAt s j).spillIn ++ [⟨h, b, src, acceptsSpill s j h b, [d]⟩]
      spillBufs := if acceptsSpill s j h b then (sliceAt s j).spillBufs ++ [(h, b)] else (sliceAt s j).spillBufs } := by
  subst hj
  simp only [takeSpill, he, ne_eq, not_true_eq_false, if_true, if_false]

variable {x : SpillIn} {left : List SpillIn}
  (hx : takeFirst (fun y : SpillIn => y.handle == h && y.block == b) (sliceAt s j).spillIn = some (x, left))
include hx

/-- Segments 1 and 2 are kept. -/
theorem takeSpill_next (hseg : seg = 1 ∨ seg = 2) :
    takeSpill s n src h b seg d = setSlice s j { sliceAt s j with
      spillIn := (sliceAt s j).spillIn.map fun y =>
        if y.handle == h && y.block == b then { y with segs := y.segs ++ [d] } else y } := by
  subst hj
  have h0 : seg ≠ 0 := by omega
  have h3 : seg < 3 := by omega
  simp only [takeSpill, he, hx, h0, h3, ne_eq, not_true_eq_false, if_true, if_false]

/-- With the last, a spill that was accepted is whole, and its home is told. -/
theorem takeSpill_accepted (ha : x.accepted = true) :
    takeSpill s n src h b 3 d = send (spillWhole (setSlice s j { sliceAt s j with spillIn := left }) j h b (x.segs ++ [d]))
      n src (.spillAccepted h b) := by
  subst hj
  simp only [takeSpill, he, hx, ha, ne_eq, not_true_eq_false, OfNat.ofNat_ne_zero, Nat.lt_irrefl, if_true, if_false]

/-- One that was not is counted, and its home is told that. -/
theorem takeSpill_refused (ha : x.accepted = false) :
    takeSpill s n src h b 3 d = send (bump (setSlice s j { sliceAt s j with spillIn := left }) 0x290505)
      n src (.spillRefused h b) := by
  subst hj
  simp only [takeSpill, he, hx, ha, ne_eq, not_true_eq_false, OfNat.ofNat_ne_zero, Nat.lt_irrefl, Bool.false_eq_true,
    if_false]

end TakeSpill

section TakeRefill

variable {s : State} {src : Nat} {h : Word} {b : Nat}

/-- A request for a function that is not ENABLED is discarded. -/
theorem takeRefill_disabled (he : (fnOf s (Handle.fn h)).state ≠ .enabled) : takeRefill s src h b = s := by
  simp only [takeRefill, he, ne_eq, not_false_eq_true, if_true]

/-- Another's read waits at the slice, while the extent stays. -/
theorem takeRefill_waits {j : Nat} {e : Extent} (hj : j = servingSlice s (Handle.index h))
    (he : (fnOf s (Handle.fn h)).state = .enabled) (hx : extentAt s j (Handle.index h) = some e) (hr : e.releasing = none) :
    takeRefill s src h b = queueXact s j ⟨.refill, Handle.fn h, 0, 8, [], 0, .refill h b src false⟩ := by
  subst hj
  simp only [takeRefill, he, hx, hr, ne_eq, not_true_eq_false, Option.isSome_none, Bool.false_eq_true, if_false]

end TakeRefill

/-! ## What the slice answers at the queue's home (R294, R296 to R298) -/

/-- A live queue is what a message names. -/
theorem queueAt_live {s : State} {n : Nat} {h : Word} {o : Obj} {q : Queue} (ho : liveObj s n h = some o)
    (hb : o.body = .queue q) : queueAt s n h = some (o, q) := by
  simp only [queueAt, ho, hb]

section Home

variable {s : State} {n : Nat} {h : Word} {b : Nat} {o : Obj} {q : Queue} (hq : queueAt s n h = some (o, q))
include hq

/-- An accepted tail spill frees the tail window. -/
theorem spillAccepted_tail (ht : q.spillTail ≠ 0) (hb : b = q.tailBlock) :
    spillAccepted s n h b = tailFree s n o (keepsCopy { q with spillTail := 0, tail := [], tailBlock := b + 1 } b) := by
  simp only [spillAccepted, hq]
  exact if_pos ⟨ht, hb⟩

/-- An accepted head spill lets the head window's block leave. -/
theorem spillAccepted_head {toks : List Token} (ht : q.spillTail = 0) (hh : q.spillHead ≠ 0) (hb : q.head = some (b, toks)) :
    spillAccepted s n h b = (settleQueue s n o (keepsCopy { q with spillHead := 0, head := none } b) none).1 := by
  have hhead : (q.spillHead != 0) = true := bne_iff_ne.2 hh
  simp only [spillAccepted, hq, ht, hhead, hb, ne_eq, not_true_eq_false, false_and, if_false, beq_self_eq_true, Bool.and_self,
    if_true]
  rfl

/-- A refused tail spill is kept. -/
theorem spillRefused_tail (ht : q.spillTail = 1) (hb : b = q.tailBlock) :
    spillRefused s n h b = setObj s n (hiIndex o.hi) { o with body := .queue { q with spillTail := 2 } } := by
  simp only [spillRefused, hq, if_pos (And.intro ht hb)]

/-- So is a refused head spill. -/
theorem spillRefused_head (ht : q.spillTail ≠ 1 ∨ b ≠ q.tailBlock) (hh : q.spillHead = 1) :
    spillRefused s n h b = setObj s n (hiIndex o.hi) { o with body := .queue { q with spillHead := 2 } } := by
  have hnot : ¬ (q.spillTail = 1 ∧ b = q.tailBlock) := not_and_or.2 ht
  simp only [spillRefused, hq, if_neg hnot, if_pos hh]

section Refill

variable {d : Payload} {segs : List Payload} (hr : q.refills.find? (fun r => r.1 == b) = some (b, segs))
include hr

/-- A refill that fails stops the queue. -/
theorem refillArrives_fails (hf : q.faultAt = none) : refillArrives s n h b true d = queueFault s n o q b := by
  simp only [refillArrives, hq, hr, hf, Option.isSome_none, Bool.false_eq_true, if_false, if_true]

/-- Each of the first three segments is kept. -/
theorem refillArrives_next (hlen : segs.length < 3) :
    refillArrives s n h b false d = setObj s n (hiIndex o.hi) { o with body := .queue { q with
      refills := q.refills.map fun r => if r.1 = b then (b, segs ++ [d]) else r } } := by
  have hmore : (segs ++ [d]).length < 4 := by rw [List.length_append, List.length_singleton]; omega
  simp only [refillArrives, hq, hr, hmore, Bool.false_eq_true, if_false, if_true]

variable {q1 : Queue} (hlen : segs.length = 3) (hq1 : q1 = { q with refills := q.refills.filter fun r => r.1 != b })
include hlen hq1

/-- With the fourth, the queue settles: with the block, where its copy is still kept and no window has or awaits a block that
makes it useless. -/
theorem refillArrives_last {q2 : Queue}
    (hq2 : q2 = if q.bwBlocks.contains b && q.refilled.isNone && !q1.hasBlock b then
      { q1 with refilled := some (b, frameTokens ((segs ++ [d]).flatMap payloadBytes)) } else q1) :
    refillArrives s n h b false d = (settleQueue (bump s 0x280403) n o q2 none).1 := by
  have hwhole : ¬ (segs ++ [d]).length < 4 := by rw [List.length_append, List.length_singleton]; omega
  subst hq1 hq2
  simp only [refillArrives, hq, hr, hwhole, Bool.false_eq_true, if_false]

end Refill

end Home

/-! ## The retry of a refused spill (R297) -/

/-- Where the retry is due, refused spills are sent again. -/
theorem exec_spillRetry {s : State} {n index : Nat} (hn : takesNow s n true = true)
    (hdue : dueAt s n index Body.spillRefused = true) :
    exec (.spillRetry n index) s = conclude (retrySpill (foreground s n) n index) := by
  show execSpillRetry n index s = _
  rw [execSpillRetry, deadlineAt_due _ hdue hn]

section Retry

variable {s t : State} {n index : Nat} {o : Obj} {q : Queue} (ht : t = passFc s (setting s 0x290301))
  (hm : movingHere (station s n) index = false) (ho : objAt s n index = some o) (hb : o.body = .queue q)
include ht hm ho hb

/-- A refused tail spill alone. -/
theorem retrySpill_tail (htail : q.spillTail = 2) (hhead : q.spillHead ≠ 2) :
    retrySpill s n index =
      setObj (sendSpill t n o.hi q.tailBlock q.tail) n index { o with body := .queue (spillsAgain q) } := by
  subst ht
  simp only [retrySpill, hm, ho, hb, htail, hhead, spillsAgain, true_or, Bool.false_eq_true, if_false, if_true]

/-- A refused head spill alone. -/
theorem retrySpill_head {k : Nat} {toks : List Token} (htail : q.spillTail ≠ 2) (hhead : q.spillHead = 2)
    (hk : q.head = some (k, toks)) :
    retrySpill s n index = setObj (sendSpill t n o.hi k toks) n index { o with body := .queue (spillsAgain q) } := by
  subst ht
  simp only [retrySpill, hm, ho, hb, htail, hhead, hk, spillsAgain, or_true, Bool.false_eq_true, if_false, if_true]

end Retry

/-! ## The messages of blocks -/

section Messages

variable {s : State} {src dst : Nat} {h : Word} {b : Nat} {rest : List Msg}

/-- A spill's segment reaches the slice's station. -/
theorem exec_spillSegment {seg : Nat} {d : Payload} (ht : TakesMsg s src dst (.spillSegment h b seg d) rest) :
    exec (.spillSegment src dst) s = conclude (takeSpill (taken s dst rest) dst src h b seg d) := by
  show execSpillSegment src dst s = _
  exact arrives_takes s src dst _ rest _ _ 0 rfl ht rfl

/-- So does a refill's request. -/
theorem exec_refillRequest (ht : TakesMsg s src dst (.refillRequest h b) rest) :
    exec (.refillRequest src dst) s = conclude (takeRefill (taken s dst rest) src h b) := by
  show execRefillRequest src dst s = _
  exact arrives_takes s src dst _ rest _ _ 0 rfl ht rfl

variable (hh : HomeHere (taken s dst rest) dst h)
include hh

/-- That a spill has been accepted is a step of the queue's home. -/
theorem exec_spillAccepted (ht : TakesMsg s src dst (.spillAccepted h b) rest) :
    exec (.spillAccepted src dst) s =
      conclude (stepOn (taken s dst rest) dst h (spillAccepted (atStep (taken s dst rest)) dst h b)) := by
  show execSpillAccepted src dst s = _
  exact arrives_takes s src dst _ rest _ _ 1 rfl ht (homeMsg_here _ dst h _ _ hh)

/-- So is that it has been refused. -/
theorem exec_spillRefused (ht : TakesMsg s src dst (.spillRefused h b) rest) :
    exec (.spillRefused src dst) s =
      conclude (stepOn (taken s dst rest) dst h (spillRefused (atStep (taken s dst rest)) dst h b)) := by
  show execSpillRefused src dst s = _
  exact arrives_takes s src dst _ rest _ _ 1 rfl ht (homeMsg_here _ dst h _ _ hh)

/-- And a refill's segment. -/
theorem exec_refillSegment {seg : Nat} {fail : Bool} {d : Payload} (ht : TakesMsg s src dst (.refillSegment h b seg fail d) rest) :
    exec (.refillSegment src dst) s =
      conclude (stepOn (taken s dst rest) dst h (refillArrives (atStep (taken s dst rest)) dst h b fail d)) := by
  show execRefillSegment src dst s = _
  exact arrives_takes s src dst _ rest _ _ 1 rfl ht (homeMsg_here _ dst h _ _ hh)

end Messages

/-- Settles O39, by the command: a segment by its number, an answer by the window whose block it names, a refill by how many
segments have come and whether its block is still of use. -/
theorem queueBlocks : Obligations.QueueBlocks := by
  unfold Obligations.QueueBlocks
  refine ⟨?idle, ?spill, ?refill, ?home, ?retry⟩
  case idle =>
    rintro s _ n index d o q hn hdue rfl ho hb hd hm
    rw [exec_idleTimeout hn hdue ho, idlePasses_armed hm ho hb hd, conclude]
  case spill =>
    rintro s _ src dst j b seg h d rest _ ht rfl hj rfl
    rw [exec_spillSegment ht]
    refine ⟨fun he => ?disabled, fun he h0 => ?first, fun x left he hx => ⟨fun hseg => ?next, fun h3 ha => ?accepted,
      fun h3 ha => ?refused⟩⟩
    case disabled => rw [takeSpill_disabled he, conclude]
    case first => rw [h0, takeSpill_first hj he, conclude]
    case next => rw [takeSpill_next hj he hx hseg, conclude]
    case accepted => rw [h3, takeSpill_accepted hj he hx ha, conclude]
    case refused => rw [h3, takeSpill_refused hj he hx ha, conclude]
  case refill =>
    rintro s _ src dst j b h rest ht rfl hj
    rw [exec_refillRequest ht]
    refine ⟨fun he => ?disabled, fun e he hx hr => ?waits⟩
    case disabled => rw [takeRefill_disabled he, conclude]
    case waits => rw [takeRefill_waits hj he hx hr, conclude, queueXact]
  case home =>
    rintro s _ src dst b h rest o q rfl hh ho hb
    have hq := queueAt_live ho hb
    refine ⟨fun ht hs hblock => ?acceptedTail, fun toks ht hs hs' hhead => ?acceptedHead, fun ht hs hblock => ?refusedTail,
      fun ht hs hs' => ?refusedHead, fun seg d segs ht hr hlen => ?next, fun seg d segs q1 ht hr hlen hq1 =>
        ⟨fun hkept hnone hout => ?useful, fun hgone => ?useless⟩, fun seg d segs ht hr hf => ?fails⟩
    case acceptedTail => rw [exec_spillAccepted hh ht, spillAccepted_tail hq hs hblock, conclude]
    case acceptedHead => rw [exec_spillAccepted hh ht, spillAccepted_head hq hs hs' hhead, conclude]
    case refusedTail => rw [exec_spillRefused hh ht, spillRefused_tail hq hs hblock, conclude]
    case refusedHead => rw [exec_spillRefused hh ht, spillRefused_head hq hs hs', conclude]
    case next => rw [exec_refillSegment hh ht, refillArrives_next hq hr hlen, conclude]
    case useful =>
      have huse : (q.bwBlocks.contains b && q.refilled.isNone && !q1.hasBlock b) = true := by
        rw [hkept, hnone, hout]; rfl
      rw [exec_refillSegment hh ht, refillArrives_last hq hr hlen hq1 (if_pos huse).symm, conclude]
    case useless =>
      have huse : (q.bwBlocks.contains b && q.refilled.isNone && !q1.hasBlock b) = false := by rw [hgone]; rfl
      rw [exec_refillSegment hh ht,
        refillArrives_last hq hr hlen hq1 (if_neg (Bool.eq_false_iff.1 huse)).symm, conclude]
    case fails => rw [exec_refillSegment hh ht, refillArrives_fails hq hr hf, conclude]
  case retry =>
    rintro s _ n index o q hn hdue rfl ho hb hm
    rw [exec_spillRetry hn hdue]
    refine ⟨fun htail hhead => ?tail, fun k toks htail hhead hk => ?head⟩
    case tail => rw [retrySpill_tail rfl hm ho hb htail hhead, conclude]
    case head => rw [retrySpill_head rfl hm ho hb htail hhead hk, conclude]

end Sys2Proof.Machine
end

/-!
PROOFS of the ferry and the backwater (chapter 09): the frame of a block, the transactions of a slice, the shadow records and
images that it writes, and the extents of queues.
-/

section
namespace Sys2Proof.Machine

/-! ## Frames (R291) -/

/-- The pieces of a list begin at the multiples of their length. -/
theorem pieces_eq_map_range (n k : Nat) (l : List Byte) :
    pieces n k l = (List.range k).map fun i => (l.drop (n * i)).take n := by
  induction k generalizing l with
  | zero => rfl
  | succ k ih =>
    rw [pieces, ih, List.range_succ_eq_map, List.map_cons, List.map_map, Nat.mul_zero, List.drop_zero]
    refine congrArg _ (List.map_congr_left fun i _ => ?_)
    rw [Function.comp_apply, List.drop_drop, Nat.mul_succ, Nat.add_comm]

/-- A field stands at its multiple of the fields' common length. -/
theorem take_drop_fields {α : Type} {enc : α → List Byte} {k : Nat} {ls : List α} (h : ∀ l ∈ ls, (enc l).length = k)
    (rest : List Byte) {i : Nat} (hi : i < ls.length) : ((ls.flatMap enc ++ rest).drop (k * i)).take k = enc ls[i] := by
  have hfields := pieces_fields h rest
  rw [pieces_eq_map_range] at hfields
  simpa [hi] using congrArg (·[i]?) hfields

/-- The segments of a frame are its pieces of 64 bytes. -/
theorem frameSegments_eq_pieces (frame : List Byte) : frameSegments frame = (pieces 64 4 frame).map payloadOf := by
  rw [pieces_eq_map_range, List.map_map]; rfl

/-- The four segments of a whole frame carry it. -/
theorem frameSegments_bytes {frame : List Byte} (h : frame.length = 256) :
    (frameSegments frame).flatMap payloadBytes = frame := by
  rw [frameSegments_eq_pieces, segments_bytes 4 frame h.le, h]
  exact List.append_nil frame

/-- The end marks of tokens, as binary digits. -/
def endDigits (toks : List Token) : List Nat := toks.map fun t => flag t.endMark

/-- A flag is a binary digit. -/
theorem flag_lt (b : Bool) : flag b < 2 := by cases b <;> decide

/-- They are less than 2. -/
theorem endDigits_lt {toks : List Token} : ∀ d ∈ endDigits toks, d < 2 :=
  List.forall_mem_map.2 fun t _ => flag_lt t.endMark

/-- The word of end marks that a frame holds is the number of these digits. -/
theorem endWord_eq_ofDigits (toks : List Token) :
    (toks.mapIdx fun i t => flag t.endMark * 2 ^ i).sum = Nat.ofDigits 2 (endDigits toks) := by
  rw [Nat.ofDigits_eq_sum_mapIdx]
  refine congrArg _ (List.ext_getElem (by simp [endDigits]) fun i _ _ => ?_)
  simp only [endDigits, List.getElem_mapIdx, List.getElem_map]

/-- Its bits are the end marks. -/
theorem endWord_bit {toks : List Token} {i : Nat} (hi : i < toks.length) :
    (Nat.ofDigits 2 (endDigits toks) / 2 ^ i % 2 == 1) = toks[i].endMark := by
  have hlen : i < (endDigits toks).length := by rwa [endDigits, List.length_map]
  have hdigit : (endDigits toks)[i] = flag toks[i].endMark := List.getElem_map _
  rw [Nat.ofDigits_div_pow_eq_ofDigits_drop i two_pos _ endDigits_lt, List.drop_eq_getElem_cons hlen, Nat.ofDigits_cons, hdigit,
    Nat.add_mul_mod_self_left, Nat.mod_eq_of_lt (flag_lt _)]
  cases toks[i].endMark <;> rfl

/-- The words of a block, as they stand at the head of its frame. -/
def frameWords (toks : List Token) : List Byte :=
  (List.range 16).flatMap fun i => bytesLE 8 ((toks.getD i ⟨0, false⟩).word.toNat)

/-- They are 128 bytes. -/
theorem length_frameWords (toks : List Token) : (frameWords toks).length = 128 := by
  rw [frameWords, List.length_flatMap, List.map_congr_left fun _ _ => length_bytesLE ..]; rfl

/-- A frame is its words, its end marks, and what no token is read from. -/
theorem frameOf_eq (b : Nat) (toks : List Token) :
    frameOf b toks = frameWords toks ++ (bytesLE 2 (Nat.ofDigits 2 (endDigits toks)) ++
      (List.replicate 94 0 ++ bytesLE 8 b ++ List.replicate 24 0)) := by
  simp only [frameOf, frameWords, endWord_eq_ofDigits, List.append_assoc]

/-- A frame is 256 bytes. -/
theorem length_frameOf (b : Nat) (toks : List Token) : (frameOf b toks).length = 256 := by
  simp only [frameOf_eq, List.length_append, length_frameWords, length_bytesLE, List.length_replicate]

/-- The word of a token is read where it was written. -/
theorem frameOf_word (b : Nat) {toks : List Token} (h : toks.length = 16) {i : Nat} (hi : i < toks.length) :
    BitVec.ofNat 64 (ofBytesLE (((frameOf b toks).drop (8 * i)).take 8)) = toks[i].word := by
  have hrange : i < (List.range 16).length := by rwa [List.length_range, ← h]
  rw [frameOf_eq, frameWords, take_drop_fields (fun _ _ => length_bytesLE ..) _ hrange, List.getElem_range,
    List.getD_eq_getElem _ _ hi, ofBytesLE_bytesLE toks[i].word.isLt, BitVec.ofNat_toNat, BitVec.setWidth_eq]

/-- The end marks of a block are read where they were written. -/
theorem frameOf_ends (b : Nat) {toks : List Token} (h : toks.length = 16) :
    ofBytesLE (((frameOf b toks).drop 128).take 2) = Nat.ofDigits 2 (endDigits toks) := by
  have hlt := Nat.ofDigits_lt_base_pow_length one_lt_two (endDigits_lt (toks := toks))
  rw [endDigits, List.length_map, h] at hlt
  rw [frameOf_eq, List.drop_left' (length_frameWords toks), List.take_left' (length_bytesLE ..)]
  exact ofBytesLE_bytesLE hlt

/-- A frame holds the tokens of its block. -/
theorem frameTokens_frameOf (b : Nat) {toks : List Token} (h : toks.length = 16) : frameTokens (frameOf b toks) = toks := by
  have hlen : (frameTokens (frameOf b toks)).length = toks.length := by simp [frameTokens, h]
  refine List.ext_getElem hlen fun i _ hi => ?_
  simp only [frameTokens, List.getElem_map, List.getElem_range, frameOf_word b h hi, frameOf_ends b h, endWord_bit hi]

/-- Settles O19: the segments carry the whole frame, and the frame holds the block's tokens. -/
theorem spillFrameRoundTrip : Obligations.SpillFrameRoundTrip := by
  unfold Obligations.SpillFrameRoundTrip
  intro b toks h
  rw [frameSegments_bytes (length_frameOf b toks), frameTokens_frameOf b h]

/-! ## Transactions (R299 to R309, R536) -/

section Slice

variable {s : State} {j : Nat} (hw : sliceWorks s j = true)
include hw

/-- A slice that works issues the oldest ready transaction of a class that the rotation lets issue. -/
theorem exec_ferryIssue {c : FerryClass} {x : Xact} (hr : readyOf s j c = some x) (ho : classOpen s j c = true) :
    exec (.ferryIssue j c) s = conclude (issueXact s j x) := by
  show execFerryIssue j c s = _
  simp only [execFerryIssue, issueClass, hw, hr, ho, if_true]

/-- With compaction on, it moves the lowest extent that a move could take into the hole below it. -/
theorem exec_compactionMove {i hole : Nat} {e : Extent} (hon : setting s 0x290400 ≠ 0)
    (hl : leastBy (fun p : Nat × Extent × Nat => p.2.1.base) (movable s (sliceAt s j)) = some (i, e, hole)) :
    exec (.compactionMove j) s = conclude (queueXact (setSlice s j { sliceAt s j with
      extents := tput (sliceAt s j).extents i { e with moving := true, newBase := hole, cursor := 0 } }) j
        (moveXact e.fn i 0)) := by
  show execCompactionMove j s = _
  simp only [execCompactionMove, startMove, hw, hl, if_neg hon, if_true]

end Slice

/-- A tag that is not slow yet is noted slow at its time, and reported. -/
theorem tagSlow_found {s t : State} {j tag : Nat} {u : TagUse}
    (hu : (sliceAt s j).tags.find? (fun g => g.tag == tag && !g.slow) = some u) (ht : t = passAc s (u.due - s.now)) :
    tagSlow s j tag = raise (onSlice t j fun l => { l with
        tags := l.tags.map fun x => if x.tag = tag then { x with slow := true } else x }) 0x30
      (generic (bankOf t u.xact.address).1 (bankOf t u.xact.address).2 0 0 j) := by
  subst ht
  simp only [tagSlow, hu]

/-- A response as its slice takes it: a header that fails its parity counts as an uncorrectable beat (R524, Table 16.1). -/
def checkedRsp (x : XiRsp) : XiRsp := { x with bad := x.bad || x.headerBad }

/-- A response on a live port is taken, what is wrong with it counted. -/
theorem exec_xiResponse {s t v : State} {x : XiRsp} (hp : portsLive s = true) (hj : x.initiator < s.gelari.initiators)
    (ht : t = foreground s (sliceStation s x.initiator))
    (hv : v = if x.headerBad then portFails t 2 x.initiator 1 else if x.bad then portFails t 2 x.initiator 2
      else if x.corrected then countCorrected t 3 else t) :
    exec (.xiResponse x) s = conclude (takeXi v (checkedRsp x)) := by
  show execXiResponse x s = _
  subst ht hv
  simp only [execXiResponse, ferryResponds, hp, hj, decide_true, Bool.not_true, Bool.or_self, Bool.false_eq_true, if_false,
    checkedRsp]

section Tag

variable {s : State} {x : XiRsp} {u w : TagUse}
  (hu : (sliceAt s x.initiator).tags.find? (fun g => g.tag == x.tag) = some u) (hr : x.read = (!u.xact.purpose.writes))
  (hw : w = { u with
    beats := if x.read then u.beats ++ [x.data] else u.beats, bad := u.bad || x.err || (x.bad || x.headerBad) })
include hu hr hw

/-- A transfer for a tag that is not its last is kept with the tag. -/
theorem takeXi_more (hl : x.last = false) :
    takeXi s (checkedRsp x) = onSlice s x.initiator fun l => { l with
      tags := l.tags.map fun g => if g.tag = x.tag then w else g } := by
  subst hw
  simp only [takeXi, checkedRsp, hu, if_pos hr, tagResponse, hl, Bool.false_eq_true, if_false]

/-- With the last the tag is free, and its transaction done. -/
theorem takeXi_last (hl : x.last = true) :
    takeXi s (checkedRsp x) =
      xactDone (onSlice s x.initiator fun l => { l with tags := l.tags.filter fun g => g.tag != x.tag }) x.initiator w := by
  subst hw
  simp only [takeXi, checkedRsp, hu, if_pos hr, tagResponse, hl, if_true]

end Tag

/-- An acknowledgement for no tag of the pool ends the seal write that waits for it. -/
theorem takeXi_seal {s : State} {x : XiRsp} {k : Nat} (hu : (sliceAt s x.initiator).tags.find? (fun g => g.tag == x.tag) = none)
    (hk : tget (xiAt s x.initiator).sealsOut x.tag = some k) (hr : x.read = false) :
    takeXi s (checkedRsp x) = sealWritten (setXi s x.initiator { xiAt s x.initiator with
      sealsOut := tdel (xiAt s x.initiator).sealsOut x.tag }) k := by
  simp only [takeXi, checkedRsp, hu, hk, hr, Bool.false_eq_true, if_false]

/-- A part of a keeper's image that is done is answered to the keeper's home. -/
theorem xactDone_keeper {s : State} {j : Nat} {u : TagUse} {h : Word} {home n : Nat} {out : Bool} (hd : u.discard = false)
    (hp : u.xact.purpose = .keeper h home n out) :
    xactDone s j u = send s (sliceStation s j) home
      (.imagePart h n u.bad (u.beats.flatMap fun d => bytesBE 32 d.toNat)) := by
  simp only [xactDone, hd, hp, Bool.false_eq_true, if_false]

/-! ## Shadow records and images (R372, R405 to R409) -/

section Shadow

variable {s : State} {src : Nat} {r : Shadow} {fn : Nat} (hfn : fn = Handle.fn r.handle)
include hfn

/-- A record of a function that is not ENABLED is discarded. -/
theorem takeShadow_disabled (he : (fnOf s fn).state ≠ .enabled) : takeShadow s src r = s := by
  subst hfn
  exact if_pos he

/-- Another takes its function's next seq and waits for a tag. -/
theorem takeShadow_enabled (he : (fnOf s fn).state = .enabled) :
    takeShadow s src r = queueXact (setFn s fn { fnOf s fn with shadowNext := (fnOf s fn).shadowNext + 1 }) (servingSlice s fn)
      ⟨.shadow, fn, fnSetting s fn 0x2F + 64 * Handle.index r.handle, 2, shadowBytes s r (fnOf s fn).shadowNext, fn,
        .shadow src r.handle fn (fnOf s fn).shadowNext⟩ := by
  subst hfn
  exact if_neg (not_not.2 he)

end Shadow

section Request

variable {s : State} {src address length part : Nat} {h : Word} {data : Option (List Byte)}

/-- Nor is a part of an image of such a function taken. -/
theorem takeImage_disabled (he : (fnOf s (Handle.fn h)).state ≠ .enabled) : takeImage s src h address length part data = s :=
  if_pos he

/-- Another waits for a tag among the shadow records, with data where it is to be written. -/
theorem takeImage_enabled (he : (fnOf s (Handle.fn h)).state = .enabled) :
    takeImage s src h address length part data = queueXact s (servingSlice s (Handle.index h))
      ⟨.shadow, Handle.fn h, address, length / 32, data.getD [], Handle.fn h, .keeper h src part data.isSome⟩ :=
  if_neg (not_not.2 he)

end Request

section Image

variable {s : State} {n : Nat} {h : Word} {bad : Bool} {data image : List Byte} {part left : Nat} {j : Job} {o : Obj} {k : Keeper}
  (hj : jobOf s n (Handle.hi h) = some j) (ho : objAt s n (Handle.index h) = some o) (hb : o.body = .keeper k)
  (hk : j.kind = .keeperExport left image)
include hj ho hb hk

/-- A transfer out of a keeper ends with its last part written. -/
theorem keeperPart_exportEnds (hl : left = 1) :
    keeperPart s h n part bad data = jobAnswer (transferEnds (dropJob s n j.hi) n o k) n j
      ⟨.ok, BitVec.ofNat 64 k.length, BitVec.ofNat 64 (ofBytesLE (image.take 4)), none, none⟩ := by
  simp only [keeperPart, hj, ho, hb, hk, if_pos hl]

/-- Before, it waits for a part less. -/
theorem keeperPart_exportGoesOn (hl : left ≠ 1) :
    keeperPart s h n part bad data = setJob s n { j with kind := .keeperExport (left - 1) image } := by
  simp only [keeperPart, hj, ho, hb, hk, if_neg hl]

end Image

/-! ## Extents at their slice (R286, R287, R311) -/

section Reserve

variable {s : State} {n src j length : Nat} {h : Word} (hj : j = servingSlice s (Handle.index h))
include hj

/-- An extent takes the first run of blocks that fits. -/
theorem takeReserve_fits {b : Nat}
    (hf : firstFit (occupied (sliceAt s j) (Handle.fn h) (Handle.index h % max 1 s.gelari.initiators)
      (max 1 s.gelari.initiators)) (subBlocks s (Handle.fn h)) length = some b) :
    takeReserve s n src h length = send (onSlice s j fun l => { l with
      extents := tput l.extents (Handle.index h) ⟨Handle.fn h, Handle.gen h, length, b, false, 0, 0, none⟩ })
      n src (.extentReserved h) := by
  subst hj
  simp only [takeReserve, hf]

/-- Where none fits, it is refused. -/
theorem takeReserve_full
    (hf : firstFit (occupied (sliceAt s j) (Handle.fn h) (Handle.index h % max 1 s.gelari.initiators)
      (max 1 s.gelari.initiators)) (subBlocks s (Handle.fn h)) length = none) :
    takeReserve s n src h length = send s n src (.extentRefused h) := by
  subst hj
  simp only [takeReserve, hf]

end Reserve

/-- The release of an extent that is gone is answered at once. -/
theorem takeRelease_gone {s : State} {n src : Nat} {h : Word}
    (he : extentAt s (servingSlice s (Handle.index h)) (Handle.index h) = none) :
    takeRelease s n src h = send s n src (.extentReleased h) := by
  simp only [takeRelease, he]

/-- Another's work leaves every slice, and it clears once none of it is outstanding. -/
theorem takeRelease_found {s : State} {n src i j : Nat} {h : Word} {e : Extent} (hi : i = Handle.index h)
    (hj : j = servingSlice s i) (he : extentAt s j i = some e) :
    takeRelease s n src h = extentClears (onSlice (indexLeaves s i) j fun l => { l with
      extents := tput l.extents i { e with releasing := some src } }) i := by
  subst hi hj
  simp only [takeRelease, he, indexLeaves]

section Clears

variable {s : State} {i j home : Nat} {e : Extent} (hj : servingSlice s i = j) (he : extentAt s j i = some e)
  (hr : e.releasing = some home)
include hj he hr

/-- While transactions of the extent are outstanding it stays. -/
theorem extentClears_outstanding (ho : s.slices.any (fun p => outstanding p.2 i) = true) : extentClears s i = s := by
  subst hj
  simp only [extentClears, he, hr, if_pos ho]

/-- With none, it and its buffers go, and the release is answered. -/
theorem extentClears_quiet {u : State} (ho : s.slices.any (fun p => outstanding p.2 i) = false)
    (hu : u = onSlice s j fun l => { l with
      extents := tdel l.extents i, spillBufs := l.spillBufs.filter fun b => Handle.index b.1 != i }) :
    extentClears s i = send u (sliceStation u j) home (.extentReleased (nameOf (handleHi e.fn e.gen 4 i))) := by
  subst hj hu
  simp only [extentClears, he, hr, ho, Bool.false_eq_true, if_false]

end Clears

/-! ## Extents at their queue's home (R287, R296, R311) -/

section Home

variable {s : State} {n : Nat} {h : Word} {j : Job} (hj : jobOf s n (Handle.hi h) = some j)
include hj

/-- A queue whose extent is reserved is created. -/
theorem extentReservedArrives_creates {o : Obj} (ho : liveObj s n h = some o) (hk : j.kind = .queueCreate) :
    extentReservedArrives s n h =
      announce (publish (dropJob s n j.hi) n o j.agent) n o.hi j.entry j.tag j.agent (issue s o.hi 0) 0 := by
  simp only [extentReservedArrives, hj, ho, if_pos hk]

/-- One whose extent is refused is not. -/
theorem extentRefusedArrives_abandons {o : Obj} (ho : liveObj s n h = some o) (hk : j.kind = .queueCreate) :
    extentRefusedArrives s n h = jobAnswer (abandon (dropJob s n j.hi) n o) n j (plain .quota) := by
  simp only [extentRefusedArrives, hj, ho, if_pos hk]

/-- Once its extent is released, a queue's destruction ends. -/
theorem extentReleasedArrives_destroys (hk : j.kind = .queueDestroy) :
    extentReleasedArrives s n h = jobAnswer (retireHi (dropJob s n j.hi) n j.hi j.agent) n j ⟨.ok, 0, 0, none, none⟩ := by
  simp only [extentReleasedArrives, hj, if_pos hk]

end Home

/-! ## The messages of shadow records, images and extents -/

section Messages

variable {s : State} {src dst : Nat} {h : Word} {rest : List Msg}

/-- A shadow record reaches its slice's station. -/
theorem exec_shadowRecord {r : Shadow} (ht : TakesMsg s src dst (.shadowRecord r) rest) :
    exec (.shadowRecord src dst) s = conclude (takeShadow (taken s dst rest) src r) := by
  show execShadowRecord src dst s = _
  exact arrives_takes s src dst _ rest _ _ 0 rfl ht rfl

/-- A part of an image travels as a shadow record does. -/
theorem exec_imageRequest {address length part : Nat} {data : Option (List Byte)}
    (ht : TakesMsg s src dst (.imageRequest h address length part data) rest) :
    exec (.shadowRecord src dst) s = conclude (takeImage (taken s dst rest) src h address length part data) := by
  show execShadowRecord src dst s = _
  exact arrives_takes s src dst _ rest _ _ 0 rfl ht rfl

/-- The answer that a record is written reaches the home's station. -/
theorem exec_shadowWritten {seq : Nat} (ht : TakesMsg s src dst (.shadowWritten h seq) rest) :
    exec (.shadowRecordWritten src dst) s = conclude (shadowWrittenArrives (taken s dst rest) dst h) := by
  show execShadowRecordWritten src dst s = _
  exact arrives_takes s src dst _ rest _ _ 1 rfl ht rfl

/-- A reservation reaches the slice's station. -/
theorem exec_reserveExtent {length : Nat} (ht : TakesMsg s src dst (.reserveExtent h length) rest) :
    exec (.reserveExtent src dst) s = conclude (takeReserve (taken s dst rest) dst src h length) := by
  show execReserveExtent src dst s = _
  exact arrives_takes s src dst _ rest _ _ 0 rfl ht rfl

/-- So does a release. -/
theorem exec_releaseExtent (ht : TakesMsg s src dst (.releaseExtent h) rest) :
    exec (.releaseExtent src dst) s = conclude (takeRelease (taken s dst rest) dst src h) := by
  show execReleaseExtent src dst s = _
  exact arrives_takes s src dst _ rest _ _ 0 rfl ht rfl

variable (hh : HomeHere (taken s dst rest) dst h)
include hh

/-- The answer to a part of an image is a step of the keeper's home. -/
theorem exec_imagePart {part : Nat} {bad : Bool} {data : List Byte} (ht : TakesMsg s src dst (.imagePart h part bad data) rest) :
    exec (.shadowRecordWritten src dst) s =
      conclude (stepOn (taken s dst rest) dst h (keeperPart (atStep (taken s dst rest)) h dst part bad data)) := by
  show execShadowRecordWritten src dst s = _
  exact arrives_takes s src dst _ rest _ _ 1 rfl ht (homeMsg_here _ dst h _ _ hh)

/-- That an extent is reserved is a step of its queue's home. -/
theorem exec_extentReserved (ht : TakesMsg s src dst (.extentReserved h) rest) :
    exec (.extentReserved src dst) s =
      conclude (stepOn (taken s dst rest) dst h (extentReservedArrives (atStep (taken s dst rest)) dst h)) := by
  show execExtentReserved src dst s = _
  exact arrives_takes s src dst _ rest _ _ 1 rfl ht (homeMsg_here _ dst h _ _ hh)

/-- So is that it has been refused. -/
theorem exec_extentRefused (ht : TakesMsg s src dst (.extentRefused h) rest) :
    exec (.extentReserved src dst) s =
      conclude (stepOn (taken s dst rest) dst h (extentRefusedArrives (atStep (taken s dst rest)) dst h)) := by
  show execExtentReserved src dst s = _
  exact arrives_takes s src dst _ rest _ _ 1 rfl ht (homeMsg_here _ dst h _ _ hh)

/-- And that it is released. -/
theorem exec_extentReleased (ht : TakesMsg s src dst (.extentReleased h) rest) :
    exec (.extentReleased src dst) s =
      conclude (stepOn (taken s dst rest) dst h (extentReleasedArrives (atStep (taken s dst rest)) dst h)) := by
  show execExtentReleased src dst s = _
  exact arrives_takes s src dst _ rest _ _ 1 rfl ht (homeMsg_here _ dst h _ _ hh)

end Messages

/-- Settles O40, by the command: a response by the tag that it names, a record or an image's part by its function's state, an
extent by the run that fits it or by what is outstanding on it. -/
theorem ferryWork : Obligations.FerryWork := by
  unfold Obligations.FerryWork
  refine ⟨?issue, ?response, ?slow, ?compaction, ?record, ?written, ?request, ?part, ?reserve, ?gone, ?release, ?home⟩
  case issue => exact fun s j c x hw hr ho => exec_ferryIssue hw hr ho
  case response =>
    rintro s t v x _ hp rfl hj ht hv
    rw [exec_xiResponse hp hj ht hv]
    refine ⟨fun u w hu hr hw => ⟨fun hl => ?more, fun hl => ?last, fun h home n out hl hd hpurpose => ?image⟩,
      fun k hu hk hr => ?sealed⟩
    case more => rw [takeXi_more hu hr hw hl, conclude]
    case last => rw [takeXi_last hu hr hw hl, conclude]
    case image =>
      have hd' : w.discard = false := by rw [hw]; exact hd
      have hpurpose' : w.xact.purpose = .keeper h home n out := by rw [hw]; exact hpurpose
      rw [takeXi_last hu hr hw hl, xactDone_keeper hd' hpurpose', conclude]
    case sealed => rw [takeXi_seal hu hk hr, conclude]
  case slow =>
    intro s t j tag u hu ht
    show execFerrySlow j tag s = _
    rw [execFerrySlow, tagSlow_found hu ht, conclude]
  case compaction => exact fun s j i hole e hw hon hl => exec_compactionMove hw hon hl
  case record =>
    rintro s _ src dst fn r rest ht rfl hfn
    rw [exec_shadowRecord ht]
    refine ⟨fun he => ?disabled, fun he => ?enabled⟩
    case disabled => rw [takeShadow_disabled hfn he, conclude]
    case enabled => rw [takeShadow_enabled hfn he, conclude]
  case written =>
    rintro s _ src dst seq h rest ht rfl
    exact exec_shadowWritten ht
  case request =>
    rintro s _ src dst address length part h data rest ht rfl
    rw [exec_imageRequest ht]
    refine ⟨fun he => ?disabled, fun he => ?enabled⟩
    case disabled => rw [takeImage_disabled he, conclude]
    case enabled => rw [takeImage_enabled he, conclude]
  case part =>
    rintro s _ src dst part left h bad data image rest j o k ht hh rfl hj ho hb hk
    rw [exec_imagePart hh ht]
    refine ⟨fun hl => ?goesOn, fun hl => ?ends⟩
    case goesOn => rw [keeperPart_exportGoesOn hj ho hb hk hl, conclude]
    case ends => rw [keeperPart_exportEnds hj ho hb hk hl, conclude]
  case reserve =>
    rintro s _ src dst j length h rest ht rfl hj
    rw [exec_reserveExtent ht]
    refine ⟨fun b hf => ?fits, fun hf => ?full⟩
    case fits => rw [takeReserve_fits hj hf, conclude]
    case full => rw [takeReserve_full hj hf, conclude]
  case gone =>
    rintro s _ src dst h rest ht rfl he
    rw [exec_releaseExtent ht, takeRelease_gone he, conclude]
  case release =>
    rintro s _ u src dst i j h rest e ht rfl hi hj he hu hserves hleaving
    rw [exec_releaseExtent ht, takeRelease_found hi hj he, ← hu]
    refine ⟨fun ho => ?outstanding, fun ho => ?quiet⟩
    case outstanding => rw [extentClears_outstanding hserves hleaving rfl ho, conclude]
    case quiet => rw [extentClears_quiet hserves hleaving rfl ho rfl, conclude]
  case home =>
    rintro s _ src dst h rest j rfl hh hj
    refine ⟨fun o ht ho hk => ?reserved, fun o ht ho hk => ?refused, fun ht hk => ?released⟩
    case reserved => rw [exec_extentReserved hh ht, extentReservedArrives_creates hj ho hk, conclude]
    case refused => rw [exec_extentRefused hh ht, extentRefusedArrives_abandons hj ho hk, conclude]
    case released => rw [exec_extentReleased hh ht, extentReleasedArrives_destroys hj hk, conclude]

end Sys2Proof.Machine
end

/-!
PROOFS of creations that leave their entry station and of fire rules (chapter 10): the operations on a rule, the messages
between its home and its inputs, target and engines, and the loads of engines.
-/

section
namespace Sys2Proof.Machine

/-! ## Creations whose home is elsewhere (R341) -/

/-- The entry station's own refusal of a record is counted for the function of its stamp and answered at the record's port. -/
theorem refuseAdm_admOf (op : Opcode) (r : OpRec) (s : State) (st : Status) :
    refuseAdm s (admOf op r) st = answered (countRefusal s r.fnStamp.toNat st) r (plain st) := rfl

/-- Settles O26, by the home that is chosen for the creation. -/
theorem creationsLeave : Obligations.CreationsLeave := by
  unfold Obligations.CreationsLeave
  intro op r s hc hr
  have hexec : exec (recordCommand op r) s = .next (settled (createAdm (admitted r s) (admOf op r))) := by
    rw [exec_recordCommand, submit_ready op r s hr, proceed_creates op r _ hc]
  rw [hexec]
  refine ⟨fun home hhome hne => ?leaves, fun st hst => ?refused⟩
  case leaves => simp only [createAdm, hhome, forwardAdm_elsewhere op r _ home hne]
  case refused => simp only [createAdm, hst, refuseAdm_admOf]

/-! ## Operations that meet their rule at their own station (R326, R333) -/

/-- An operation on a rule that has not failed, other than DESTROY and CANCEL, is the rule's. -/
theorem runOn_rule (s : State) (n : Nat) {o : Obj} {x : Rule} (f : FwdOp) (hb : o.body = .rule x) (hf : o.failed = false)
    (hd : f.op ≠ .destroy) (hc : f.op ≠ .cancel) : runOn s n o f = homeRule s n o x f := by
  simp only [runOn, hd, hc, hf, hb, Bool.false_eq_true, if_false]

/-- So it is for a record that meets its rule at its own station. -/
theorem exec_ruleHere (op : Opcode) {r : OpRec} {s : State} {o : Obj} {x : Rule} (hb : o.body = .rule x)
    {effect : State → Obj → FwdOp → State} (ho : ordinary op = true) (hd : op ≠ .destroy) (h : MeetsHere op r s o)
    (he : ∀ t o', o'.hi = o.hi → homeRule t r.station o' x (travelling op r (admitted r s) 0) =
      effect t o' (travelling op r (admitted r s) 0)) :
    exec (recordCommand op r) s = .next (settled (doneHere op r s o effect)) := by
  have hc : op ≠ .cancel := by rintro rfl; exact absurd ho (by decide)
  refine exec_meetsHere_as op r s o ho h fun t o' hbody hhi hfailed => ?_
  rw [runOn_rule t r.station _ (hbody.trans hb) hfailed hd hc, he t o' hhi]

section Operations

variable (s : State) (n : Nat) (o : Obj) {x : Rule} {f : FwdOp}

/-- FR_ARM of a rule that is DISARMED or FIRED, with a locality that is allowed, arms it and activates its watches. -/
theorem homeRule_frArm (hop : f.op = .frArm) (hstate : x.state = 0 ∨ x.state = 3)
    (hloc : bit f.a 8 = true → localityOk (bits f.a 7 0) = true) {y : Rule}
    (hy : y = { x with
      argument := f.b, locality := if bit f.a 8 then bits f.a 7 0 else x.locality, scope := f.scope, met := []
      armSeq := (x.armSeq + 1) % 256, state := 1 }) :
    homeRule s n o x f =
      reply (toInputs (putRule s n o y f.agent) n y fun i h => .activate h (nameOf o.hi) i y.armSeq) n f
        (BitVec.ofNat 64 x.fireSeq) 0 := by
  have hok : (bit f.a 8 && !localityOk (bits f.a 7 0)) = false := by
    cases hbit : bit f.a 8
    · rfl
    · rw [hloc hbit]; rfl
  subst hy
  rcases hstate with h | h <;> simp only [homeRule, hop, frArm, hok, h, Bool.false_eq_true, if_false]

/-- FR_DISARM of an armed rule disarms it and deactivates its watches. -/
theorem homeRule_frDisarm_armed (hop : f.op = .frDisarm) (hstate : x.state = 1) {y : Rule}
    (hy : y = { x with state := 0, armSeq := (x.armSeq + 1) % 256, met := [] }) :
    homeRule s n o x f =
      reply (toInputs (putRule s n o y f.agent) n y fun i h => .deactivate h (nameOf o.hi) i) n f
        (BitVec.ofNat 64 x.fireSeq) 0 := by
  subst hy
  simp only [homeRule, hop, frDisarm, hstate]

/-- FR_DISARM of a rule that fires waits for the end of the firing. -/
theorem homeRule_frDisarm_firing (hop : f.op = .frDisarm) (hstate : x.state = 2) :
    homeRule s n o x f =
      reply (setObj s n (hiIndex o.hi) { o with body := .rule { x with disarmPending := true } }) n f
        (BitVec.ofNat 64 x.fireSeq) 0 := by
  simp only [homeRule, hop, frDisarm, hstate]

/-- FR_READ answers the rule's word and the descriptor of its next firing. -/
theorem homeRule_frRead (hop : f.op = .frRead) :
    homeRule s n o x f =
      answer s n f ⟨.ok, BitVec.ofNat 64 x.fireSeq, BitVec.ofNat 64 (ruleWord x),
        some (descriptor x (x.fireSeq + 1) 0 0 0), none⟩ := by
  simp only [homeRule, hop, frRead]

end Operations

/-- Settles O20, by the operation, and FR_DISARM by the state of the rule. -/
theorem ruleOperations : Obligations.RuleOperations := by
  unfold Obligations.RuleOperations
  intro r s o x hb
  refine ⟨fun y h hstate hloc hy => ?arm, fun y h hstate hy => ?armed, fun h hstate => ?firing, fun h => ?read⟩
  case arm =>
    refine exec_ruleHere .frArm hb rfl nofun h fun t o' hhi => ?_
    rw [homeRule_frArm t r.station o' rfl hstate hloc hy, hhi]; rfl
  case armed =>
    refine exec_ruleHere .frDisarm hb rfl nofun h fun t o' hhi => ?_
    rw [homeRule_frDisarm_armed t r.station o' rfl hstate hy, hhi]; rfl
  case firing =>
    refine exec_ruleHere .frDisarm hb rfl nofun h fun t o' hhi => ?_
    rw [homeRule_frDisarm_firing t r.station o' rfl hstate, hhi]
  case read => exact exec_ruleHere .frRead hb rfl nofun h fun t o' _ => homeRule_frRead t r.station o' rfl

/-! ## Watches and feeds at their object's home (R315, R317, R321, R324, R326, R330) -/

/-- An object with room for a record, and its function's quota, refuses none. -/
theorem recordRefused_room {s : State} {n : Nat} {o : Obj} (hroom : RecordRoom s n o) : recordRefused s n o = false := by
  obtain ⟨hlen, hfree⟩ := hroom
  simp only [recordRefused, hfree, Nat.not_le.2 hlen, decide_false, Bool.not_true, Bool.or_self]

/-- CONSUME's change of a watch: its threshold advances, and it goes on. -/
theorem consumeWatch_goesOn (seq : Nat) (b : Body) :
    consumeWatch false seq b = fun w => { w with threshold := advanced b w, phase := 1, armSeq := seq } := by
  cases b <;> rfl

/-- CONSUME_DORMANT's: its threshold advances, and it stops. -/
theorem consumeWatch_stops (seq : Nat) (b : Body) :
    consumeWatch true seq b = fun w => { w with threshold := advanced b w, phase := 0, armSeq := seq } := by
  cases b <;> rfl

section Watched

variable {s : State} {n : Nat} {h rule : Word} {o : Obj} (ho : liveObj s n h = some o)
include ho

/-- A change of a rule's watch is evaluated with the object's other watches. -/
theorem onWatch_live {slot : Nat} {f : Body → Watch → Watch} :
    onWatch s n h rule slot f = putObserved s n { o with watches := watchesWith o rule slot (f o.body) } := by
  simp only [onWatch, ho, watchesWith]

/-- A watch or feed that is released leaves the object's records, and the rule is told. -/
theorem releaseWatchAt_live {slot : Nat} {feed : Bool} {t : State}
    (ht : t = setObj s n (hiIndex o.hi) { o with watches := o.watches.filter fun w =>
      !(w.feed == feed && w.ruleHi == Handle.hi rule && (feed || w.slot == slot)) }) :
    releaseWatchAt s n h rule slot feed = send t n (ruleHome t n (Handle.hi rule)) (.released rule) := by
  subst ht
  simp only [releaseWatchAt, ho]

/-- FEED_PUSH of a bridge's reply holds the token in a record of its own (R443). -/
theorem feedArrives_bridge {tok : Token} {q : Queue} (hb : o.body = .queue q) (hl : lapseStatus o = none) :
    feedArrives s n h 0 tok =
      (feedAndSettle s n { o with watches := o.watches ++ [⟨true, 0, 0, 1, tok.word, 0, 0, 0, tok.endMark⟩] } q).1 := by
  simp only [feedArrives, queueAt_live ho hb, hl, if_true]

/-- FEED_PUSH of a rule holds it in the rule's feed record. -/
theorem feedArrives_rule {tok : Token} {q : Queue} (hb : o.body = .queue q) (hl : lapseStatus o = none) (hr : rule ≠ 0) :
    feedArrives s n h rule tok =
      (feedAndSettle s n { o with watches := o.watches.map fun w => if w.feed && w.ruleHi == Handle.hi rule
        then { w with phase := 1, threshold := tok.word, endMark := tok.endMark } else w } q).1 := by
  simp only [feedArrives, queueAt_live ho hb, hl, hr, if_false]

section Registration

variable {slot threshold step : Nat} (hroom : RecordRoom s n o) (hl : lapseStatus o = none)
include hroom hl

/-- A queue that can hold as many packets takes a DORMANT watch, whose credit is the packets that it holds. -/
theorem registerWatch_queue {q : Queue} (hb : o.body = .queue q) (hfits : threshold ≤ q.capacity) :
    registerWatch s n h slot threshold step rule =
      setObj (send s n (ruleHome s n (Handle.hi rule)) (.registered rule none slot n false)) n (hiIndex o.hi)
        { o with watches := o.watches ++
          [⟨false, Handle.hi rule, slot, 0, BitVec.ofNat 64 threshold, step, q.packets, 0, false⟩] } := by
  simp only [registerWatch, ho, hb, Nat.not_lt.2 hfits, decide_false, recordRefused_room hroom, hl, regAnswer,
    Bool.false_eq_true, if_false]

/-- An object of another class takes one without credit. -/
theorem registerWatch_noQueue (hq : o.body.isQueue = false) :
    registerWatch s n h slot threshold step rule =
      setObj (send s n (ruleHome s n (Handle.hi rule)) (.registered rule none slot n false)) n (hiIndex o.hi)
        { o with watches := o.watches ++
          [⟨false, Handle.hi rule, slot, 0, BitVec.ofNat 64 threshold, step, 0, 0, false⟩] } := by
  cases hb : o.body with
  | queue q => rw [hb] at hq; exact absurd hq nofun
  | _ => simp only [registerWatch, ho, hb, recordRefused_room hroom, hl, regAnswer, Bool.false_eq_true, if_false]

/-- A target queue takes a feed record. -/
theorem registerFeed_queue {q : Queue} (hb : o.body = .queue q) :
    registerFeed s n h rule =
      setObj (send s n (ruleHome s n (Handle.hi rule)) (.registered rule none 0 n true)) n (hiIndex o.hi)
        { o with watches := o.watches ++ [⟨true, Handle.hi rule, 0, 0, 0, 0, 0, 0, false⟩] } := by
  simp only [registerFeed, queueAt_live ho hb, recordRefused_room hroom, hl, regAnswer, Bool.false_eq_true, if_false]

end Registration

end Watched

section Messages

variable {s : State} {src dst : Nat} {h rule : Word} {rest : List Msg} (hh : HomeHere (taken s dst rest) dst h)
include hh

/-- REGISTER is a step of the input's home. -/
theorem exec_register {slot threshold step : Nat} (ht : TakesMsg s src dst (.register h slot threshold step rule) rest) :
    exec (.register src dst) s = conclude (stepOn (taken s dst rest) dst h
      (registerWatch (atStep (taken s dst rest)) dst h slot threshold step rule)) := by
  show execRegister src dst s = _
  exact arrives_takes s src dst _ rest _ _ 0 rfl ht (homeMsg_here _ dst h _ _ hh)

/-- FEED_REGISTER is one of the target's. -/
theorem exec_feedRegister (ht : TakesMsg s src dst (.feedRegister h rule) rest) :
    exec (.feedRegister src dst) s =
      conclude (stepOn (taken s dst rest) dst h (registerFeed (atStep (taken s dst rest)) dst h rule)) := by
  show execFeedRegister src dst s = _
  exact arrives_takes s src dst _ rest _ _ 0 rfl ht (homeMsg_here _ dst h _ _ hh)

/-- RELEASE is one of the object that holds the record. -/
theorem exec_releaseWatch {slot : Nat} {feed : Bool} (ht : TakesMsg s src dst (.releaseWatch h rule slot feed) rest) :
    exec (.releaseWatch src dst) s =
      conclude (stepOn (taken s dst rest) dst h (releaseWatchAt (atStep (taken s dst rest)) dst h rule slot feed)) := by
  show execReleaseWatch src dst s = _
  exact arrives_takes s src dst _ rest _ _ 0 rfl ht (homeMsg_here _ dst h _ _ hh)

/-- FEED_PUSH is one of the queue that it feeds. -/
theorem exec_feedPush {tok : Token} (ht : TakesMsg s src dst (.feedPush h rule tok) rest) :
    exec (.feedPush src dst) s =
      conclude (stepOn (taken s dst rest) dst h (feedArrives (atStep (taken s dst rest)) dst h rule tok)) := by
  show execFeedPush src dst s = _
  exact arrives_takes s src dst _ rest _ _ 0 rfl ht (homeMsg_here _ dst h _ _ hh)

variable {o : Obj} (ho : liveObj (atStep (taken s dst rest)) dst h = some o) {slot seq : Nat}
include ho

/-- ACTIVATE starts the watch. -/
theorem exec_activate (ht : TakesMsg s src dst (.activate h rule slot seq) rest) :
    exec (.activate src dst) s = conclude (stepOn (taken s dst rest) dst h
      (putObserved (atStep (taken s dst rest)) dst { o with watches := watchesWith o rule slot (activateWatch seq o.body) })) := by
  show execActivate src dst s = _
  rw [← onWatch_live ho]
  exact arrives_takes s src dst _ rest _ _ 0 rfl ht (homeMsg_here _ dst h _ _ hh)

/-- DEACTIVATE makes it DORMANT. -/
theorem exec_deactivate (ht : TakesMsg s src dst (.deactivate h rule slot) rest) :
    exec (.deactivate src dst) s = conclude (stepOn (taken s dst rest) dst h
      (putObserved (atStep (taken s dst rest)) dst { o with watches := watchesWith o rule slot (deactivateWatch o.body) })) := by
  show execDeactivate src dst s = _
  rw [← onWatch_live ho]
  exact arrives_takes s src dst _ rest _ _ 0 rfl ht (homeMsg_here _ dst h _ _ hh)

/-- CONSUME advances its threshold, and the watch goes on. -/
theorem exec_consume (ht : TakesMsg s src dst (.consume h rule slot seq) rest) :
    exec (.consume src dst) s = conclude (stepOn (taken s dst rest) dst h
      (putObserved (atStep (taken s dst rest)) dst { o with
        watches := watchesWith o rule slot fun w => { w with threshold := advanced o.body w, phase := 1, armSeq := seq } })) := by
  show execConsume src dst s = _
  rw [← consumeWatch_goesOn, ← onWatch_live ho]
  exact arrives_takes s src dst _ rest _ _ 0 rfl ht (homeMsg_here _ dst h _ _ hh)

/-- CONSUME_DORMANT advances it, and the watch stops. -/
theorem exec_consumeDormant (ht : TakesMsg s src dst (.consumeDormant h rule slot seq) rest) :
    exec (.consumeDormant src dst) s = conclude (stepOn (taken s dst rest) dst h
      (putObserved (atStep (taken s dst rest)) dst { o with
        watches := watchesWith o rule slot fun w => { w with threshold := advanced o.body w, phase := 0, armSeq := seq } })) := by
  show execConsumeDormant src dst s = _
  rw [← consumeWatch_stops, ← onWatch_live ho]
  exact arrives_takes s src dst _ rest _ _ 0 rfl ht (homeMsg_here _ dst h _ _ hh)

end Messages

/-- Settles O41, by the message; REGISTER by whether the input is a queue, FEED_PUSH by whether it is of a rule or a bridge. -/
theorem watchMessages : Obligations.WatchMessages := by
  unfold Obligations.WatchMessages
  rintro s _ src dst h rule rest o rfl hh ho
  refine ⟨fun slot threshold step q ht hb hfits hroom hl => ?queueInput, fun slot threshold step ht hq hroom hl => ?input,
    fun q ht hb hroom hl => ?target, fun slot seq ht => exec_activate hh ho ht, fun slot ht => exec_deactivate hh ho ht,
    fun slot seq => ⟨fun ht => exec_consume hh ho ht, fun ht => exec_consumeDormant hh ho ht⟩, fun slot feed ht => ?release,
    fun tok q ht hb hl => ?bridge, fun tok q ht hb hr hl => ?feed⟩
  case queueInput => rw [exec_register hh ht, registerWatch_queue ho hroom hl hb hfits, conclude]
  case input => rw [exec_register hh ht, registerWatch_noQueue ho hroom hl hq, conclude]
  case target => rw [exec_feedRegister hh ht, registerFeed_queue ho hroom hl hb, conclude]
  case release => rw [exec_releaseWatch hh ht, releaseWatchAt_live ho rfl, conclude]
  case bridge => rw [exec_feedPush hh ht, feedArrives_bridge ho hb hl, conclude]
  case feed => rw [exec_feedPush hh ht, feedArrives_rule ho hb hl hr, conclude]

/-! ## What comes back to a rule (R321, R324 to R330) -/

/-- The rule that a message's handle names at its home. -/
theorem ruleAt_live {s : State} {n : Nat} {h : Word} {o : Obj} {r : Rule} (ho : liveObj s n h = some o)
    (hb : o.body = .rule r) : ruleAt s n h = some (o, r) := by
  simp only [ruleAt, ho, hb]

section Notices

variable {s : State} {n : Nat} {o : Obj} {r : Rule} {slot seq : Nat}

/-- A MET notice to a rule that is not armed, or of another arm sequence, has no effect. -/
theorem ruleMet_old (h : r.state ≠ 1 ∨ seq ≠ r.armSeq) : ruleMet s n o r slot seq = s :=
  if_neg (not_and_or.2 h)

section Armed

variable (hs : r.state = 1) (hseq : seq = r.armSeq) {m : List Nat}
  (hm : m = if r.met.contains slot then r.met else r.met ++ [slot])
include hs hseq hm

/-- One of the rule's arm sequence is noted. -/
theorem ruleMet_notes (hlen : m.length ≠ r.inputs.length) :
    ruleMet s n o r slot seq = setObj s n (hiIndex o.hi) { o with body := .rule { r with met := m } } := by
  subst hm
  exact (if_pos ⟨hs, hseq⟩).trans (if_neg hlen)

/-- The last fires the rule. -/
theorem ruleMet_fires (hlen : m.length = r.inputs.length) :
    ruleMet s n o r slot seq = fireRule s n o { r with met := m } := by
  subst hm
  exact (if_pos ⟨hs, hseq⟩).trans (if_pos hlen)

end Armed

/-- A LAPSED notice lapses a rule that neither fires nor has lapsed. -/
theorem ruleLapses_idle {feed : Bool} {st : Status} (h2 : r.state ≠ 2) (h4 : r.state ≠ 4) :
    ruleLapses s n o r slot feed st =
      lapseRule s n o (if feed then r else { r with lapsedInputs := r.lapsedInputs ++ [slot] }) st := by
  -- `h2` and `h4` leave the last arm of the match on the state
  simp only [ruleLapses]

/-- A firing rule notes that an input has lapsed, and the first status. -/
theorem ruleLapses_firing {st : Status} (h2 : r.state = 2) :
    ruleLapses s n o r slot false st = setObj s n (hiIndex o.hi) { o with body := .rule { r with
      lapsedInputs := r.lapsedInputs ++ [slot], lapse := some (r.lapse.getD st) } } := by
  simp only [ruleLapses, h2, Bool.false_eq_true, if_false]

section Firing

variable (hs : r.state = 2)
include hs

/-- A feed's token that is written completes the firing of a push rule. -/
theorem rulePushed_written (ha : r.action = 1) : rulePushed s n o r none = ruleComplete s n o r :=
  if_pos ⟨hs, ha⟩

/-- A push that failed ends it, and the rule lapses. -/
theorem rulePushed_failed {st : Status} (ha : r.action = 1) :
    rulePushed s n o r (some st) = ruleComplete s n o { r with lapse := some (r.lapse.getD st) } :=
  if_pos ⟨hs, ha⟩

variable {st : Status} {engine : Nat}

/-- A launch that the chosen engine's station accepts completes the firing. -/
theorem actionAnswered_launched (ha : r.action = 0) (he : engine = r.lastTarget) :
    actionAnswered s n o r .ok engine = ruleComplete s n o r := by
  simp only [actionAnswered, hs, ha, he, ne_eq, not_true_eq_false, if_false, if_true]

/-- A fenced engine is passed over. -/
theorem actionAnswered_fenced (ha : r.action = 0) :
    actionAnswered s n o r .fenced engine = sendLaunch s n o { r with refused := r.refused ++ [engine] } := by
  simp only [actionAnswered, hs, ha, ne_eq, not_true_eq_false, if_false]

/-- An arrival that is accepted completes the firing. -/
theorem actionAnswered_arrived (ha : r.action = 2) : actionAnswered s n o r .ok engine = ruleComplete s n o r := by
  simp only [actionAnswered, hs, ha, ne_eq, not_true_eq_false, if_false]

/-- An arrival ahead waits to be sent again. -/
theorem actionAnswered_ahead (ha : r.action = 2) :
    actionAnswered s n o r .ahead engine = setObj s n (hiIndex o.hi) { o with body := .rule { r with retry := true } } := by
  simp only [actionAnswered, hs, ha, ne_eq, not_true_eq_false, if_false]

/-- Any other answer ends the firing, and the rule lapses with its status. -/
theorem actionAnswered_fails (hok : st ≠ .ok) (hf : st ≠ .fenced) (ha : st ≠ .ahead) :
    actionAnswered s n o r st engine = ruleComplete s n o { r with lapse := some (r.lapse.getD st) } := by
  unfold actionAnswered
  rw [if_neg (not_not.2 hs)]
  split
  · exact absurd rfl hok
  · exact absurd rfl hf
  · exact absurd rfl hok
  · exact absurd rfl ha
  · rfl

end Firing

/-- A rule that waits to send its arrival again does so once the time has passed. -/
theorem arriveAgain_waits {index : Nat} (ho : objAt s n index = some o) (hb : o.body = .rule r) (hs : r.state = 2)
    (hr : r.retry = true) :
    arriveAgain s n index =
      sendArrive (setObj (passFc s (setting s 0x2A0301)) n index { o with body := .rule { r with retry := false } }) n o r := by
  simp only [arriveAgain, ho, hb, hs, hr, and_self, if_true]

end Notices

/-! ## Registrations and releases (R321, R330) -/

section Jobs

variable {s : State} {n : Nat} {h : Word} {j : Job} (hj : jobOf s n (Handle.hi h) = some j)
include hj

/-- A release counts, and more are awaited. -/
theorem ruleReleased_more {waiting : Nat} (hk : j.kind = .ruleDestroy waiting) (hw : 1 < waiting) :
    ruleReleased s n h = setJob s n { j with kind := .ruleDestroy (waiting - 1) } := by
  simp only [ruleReleased, hj, hk, if_neg (Nat.not_le.2 hw)]

/-- The last release ends the destruction. -/
theorem ruleReleased_last {waiting : Nat} (hk : j.kind = .ruleDestroy waiting) (hw : waiting ≤ 1) :
    ruleReleased s n h = jobAnswer (retireHi (dropJob s n j.hi) n j.hi j.agent) n j ⟨.ok, 0, 0, none, none⟩ := by
  simp only [ruleReleased, hj, hk, if_pos hw]

variable {o : Obj} {r : Rule} (ho : liveObj s n h = some o) (hb : o.body = .rule r) {waiting slot sender : Nat} {feed : Bool}
  {granted : List (Nat × Nat × Bool)}
include ho hb

/-- A grant counts, and more answers are awaited. -/
theorem ruleRegistered_more {old : Option Status} (hk : j.kind = .ruleCreate waiting old granted) (hslot : slot < 8)
    (hw : 1 < waiting) :
    ruleRegistered s n h none slot sender feed =
      setJob s n { j with kind := .ruleCreate (waiting - 1) old (granted ++ [(sender, slot, feed)]) } := by
  simp only [ruleRegistered, ruleAt_live ho hb, hj, hk, if_neg (Nat.not_le.2 hw)]
  cases old <;> simp [hslot]

/-- The last answer, where none refused, publishes the rule. -/
theorem ruleRegistered_last (hk : j.kind = .ruleCreate waiting none granted) (hw : waiting ≤ 1) :
    ruleRegistered s n h none slot sender feed =
      let u := publish (dropJob s n j.hi) n o j.agent
      announce u n o.hi j.entry j.tag j.agent (issue u o.hi 0) 0 := by
  simp only [ruleRegistered, ruleAt_live ho hb, hj, hk, if_pos hw]

/-- A last answer that refuses takes everything back. -/
theorem ruleRegistered_refused {st : Status} (hk : j.kind = .ruleCreate waiting none granted) (hw : waiting ≤ 1) :
    ruleRegistered s n h (some st) slot sender feed =
      jobAnswer (undoRule (dropJob s n j.hi) n o r granted) n j (plain st) := by
  simp only [ruleRegistered, ruleAt_live ho hb, hj, hk, if_pos hw, Option.isNone_some, Bool.false_and, Bool.false_eq_true,
    if_false]

end Jobs

section Messages

variable {s : State} {src dst : Nat} {h : Word} {rest : List Msg} (hh : HomeHere (taken s dst rest) dst h)
include hh

/-- REGISTERED is a step of the rule's home. -/
theorem exec_registered {refusal : Option Status} {slot sender : Nat} {feed : Bool}
    (ht : TakesMsg s src dst (.registered h refusal slot sender feed) rest) :
    exec (.registered src dst) s = conclude (stepOn (taken s dst rest) dst h
      (ruleRegistered (atStep (taken s dst rest)) dst h refusal slot sender feed)) := by
  show execRegistered src dst s = _
  exact arrives_takes s src dst _ rest _ _ 0 rfl ht (homeMsg_here _ dst h _ _ hh)

/-- So is RELEASED. -/
theorem exec_released (ht : TakesMsg s src dst (.released h) rest) :
    exec (.released src dst) s =
      conclude (stepOn (taken s dst rest) dst h (ruleReleased (atStep (taken s dst rest)) dst h)) := by
  show execReleased src dst s = _
  exact arrives_takes s src dst _ rest _ _ 0 rfl ht (homeMsg_here _ dst h _ _ hh)

variable {o : Obj} {r : Rule} (ho : liveObj (atStep (taken s dst rest)) dst h = some o) (hb : o.body = .rule r)
include ho hb

/-- A message to a rule at its home is the home's step on it. -/
theorem ruleMsg_here (b : MsgBody) (f : State → Obj → Rule → State) :
    ruleMsg (taken s dst rest) dst h b f = some (stepOn (taken s dst rest) dst h (f (atStep (taken s dst rest)) o r)) := by
  rw [ruleMsg, homeMsg_here _ _ _ _ _ hh, homeStep_eq, ruleAt_live ho hb]; rfl

/-- MET notifies the rule of an input. -/
theorem exec_met {slot seq : Nat} (ht : TakesMsg s src dst (.met h slot seq) rest) :
    exec (.met src dst) s =
      conclude (stepOn (taken s dst rest) dst h (ruleMet (atStep (taken s dst rest)) dst o r slot seq)) := by
  show execMet src dst s = _
  exact arrives_takes s src dst _ rest _ _ 0 rfl ht (ruleMsg_here hh ho hb _ _)

/-- LAPSED notifies it of an input's or the target's end. -/
theorem exec_lapsed {slot : Nat} {feed : Bool} {st : Status} (ht : TakesMsg s src dst (.lapsed h slot feed st) rest) :
    exec (.lapsed src dst) s =
      conclude (stepOn (taken s dst rest) dst h (ruleLapses (atStep (taken s dst rest)) dst o r slot feed st)) := by
  show execLapsed src dst s = _
  exact arrives_takes s src dst _ rest _ _ 0 rfl ht (ruleMsg_here hh ho hb _ _)

/-- PUSHED ends a push action. -/
theorem exec_pushed {st : Option Status} (ht : TakesMsg s src dst (.pushed h st) rest) :
    exec (.pushed src dst) s =
      conclude (stepOn (taken s dst rest) dst h (rulePushed (atStep (taken s dst rest)) dst o r st)) := by
  show execPushed src dst s = _
  exact arrives_takes s src dst _ rest _ _ 0 rfl ht (ruleMsg_here hh ho hb _ _)

/-- LAUNCH_ANSWER answers a launch or an arrival. -/
theorem exec_launchAnswer {st : Status} {engine : Nat} (ht : TakesMsg s src dst (.launchAnswer h st engine) rest) :
    exec (.launchAnswer src dst) s =
      conclude (stepOn (taken s dst rest) dst h (actionAnswered (atStep (taken s dst rest)) dst o r st engine)) := by
  show execLaunchAnswer src dst s = _
  exact arrives_takes s src dst _ rest _ _ 1 rfl ht (ruleMsg_here hh ho hb _ _)

end Messages

/-- Settles O42: what a rule's home is told is a step on the rule, or on the job that creates or destroys it. -/
theorem ruleMessages : Obligations.RuleMessages := by
  unfold Obligations.RuleMessages
  refine ⟨?rule, ?job, ?again⟩
  case rule =>
    rintro s _ src dst h rest o r rfl hh ho hb
    refine ⟨fun slot seq ht => ⟨fun hold => ?old, fun m hs hseq hm => ⟨fun hlen => ?notes, fun hlen => ?fires⟩⟩,
      fun slot feed st ht h2 h4 => ?lapses, fun slot st ht h2 => ?lapsesLater, fun ht hs ha => ?written,
      fun st ht hs ha => ?pushFails, fun st engine ht hs => ⟨fun ha hst he => ?launched, fun ha hst => ?fenced,
        fun ha hst => ?arrived, fun hok hf hah => ?fails, fun ha hst => ?ahead⟩⟩
    case old => rw [exec_met hh ho hb ht, ruleMet_old hold, conclude]
    case notes => rw [exec_met hh ho hb ht, ruleMet_notes hs hseq hm hlen, conclude]
    case fires => rw [exec_met hh ho hb ht, ruleMet_fires hs hseq hm hlen, conclude]
    case lapses => rw [exec_lapsed hh ho hb ht, ruleLapses_idle h2 h4, conclude]
    case lapsesLater => rw [exec_lapsed hh ho hb ht, ruleLapses_firing h2, conclude]
    case written => rw [exec_pushed hh ho hb ht, rulePushed_written hs ha, conclude]
    case pushFails => rw [exec_pushed hh ho hb ht, rulePushed_failed hs ha, conclude]
    case launched => rw [exec_launchAnswer hh ho hb ht, hst, actionAnswered_launched hs ha he, conclude]
    case fenced => rw [exec_launchAnswer hh ho hb ht, hst, actionAnswered_fenced hs ha, conclude]
    case arrived => rw [exec_launchAnswer hh ho hb ht, hst, actionAnswered_arrived hs ha, conclude]
    case fails => rw [exec_launchAnswer hh ho hb ht, actionAnswered_fails hs hok hf hah, conclude]
    case ahead => rw [exec_launchAnswer hh ho hb ht, hst, actionAnswered_ahead hs ha, conclude]
  case job =>
    rintro s _ src dst h rest j rfl hh hj
    refine ⟨fun o r slot sender feed waiting old granted ht hslot ho hb hk => ⟨fun hw => ?granted, ?created⟩,
      fun o r slot sender feed waiting st granted ht ho hb hk hw => ?refused,
      fun waiting ht hk => ⟨fun hw => ?destroyed, fun hw => ?released⟩⟩
    case granted => rw [exec_registered hh ht, ruleRegistered_more hj ho hb hk hslot hw, conclude]
    case created =>
      rintro hw rfl
      rw [exec_registered hh ht, ruleRegistered_last hj ho hb hk hw, conclude]
    case refused => rw [exec_registered hh ht, ruleRegistered_refused hj ho hb hk hw, conclude]
    case destroyed => rw [exec_released hh ht, ruleReleased_last hj hk hw, conclude]
    case released => rw [exec_released hh ht, ruleReleased_more hj hk hw, conclude]
  case again =>
    rintro s _ n index o r hn hdue rfl ho hb hs hr
    show execArriveRetry n index s = _
    rw [execArriveRetry, deadlineAt_due _ hdue hn, arriveAgain_waits ho hb hs hr, conclude]

/-! ## Launches and arrivals at the entry station (R318, R329) -/

/-- A launch of a fenced engine is answered FENCED. -/
theorem launchArrives_fenced {s : State} {n engine scope seq : Nat} {rule : Word} {d : Payload}
    (hf : agentFenced s engine = true) :
    launchArrives s n rule engine scope seq d =
      send s n (ruleHome s n (Handle.hi rule)) (.launchAnswer rule .fenced engine) :=
  if_pos hf

/-- A launch of another is ready to be pushed to its engine. -/
theorem launchArrives_pushes {s : State} {n engine scope seq : Nat} {rule : Word} {d : Payload}
    (hf : agentFenced s engine = false) :
    launchArrives s n rule engine scope seq d = onStation s n fun st => { st with ready := st.ready ++ [
      { agent := engine, wait := none, cookie := 0, handle := issue s (Handle.hi rule) 0
        value := BitVec.ofNat 64 seq, status := .ok, opcode := .frArm, invalidate := true, scope := scope
        launch := some (n, Handle.hi rule, d) }] } := by
  simp only [launchArrives, hf, Bool.false_eq_true, if_false]

/-- An arrival without a contribution leaves its bank's accumulator. -/
theorem countArrival_noData (s : State) (n index : Nat) (x : Node) (agent : Nat) (e : BitVec 32) :
    (countArrival s n index x agent e none).1 =
      putNode s n index (arrivedAt x s.clock.fc (odd32 e) agent (x.bank (odd32 e)).acc) := rfl

/-- An arrive action that its agent's node accepts counts as the agent's own arrival, and the rule is told. -/
theorem arriveActs_accepted {s t u : State} {n agent a b : Nat} {rule weir : Word} {e : BitVec 32} {x : Node}
    (hfn : (fnOf s (Handle.fn weir)).state = .enabled) (hx : nodeFor s n weir = some x) (hk : x.params.keeper = none)
    (hr : arrivalRefusal s n x agent e none = none) (ht : t = weirTest s (Handle.fn weir) x.params (a != 0) b)
    (hu : u = putNode t n (Handle.index weir) (arrivedAt x t.clock.fc (odd32 e) agent (x.bank (odd32 e)).acc)) :
    arriveActs s n rule weir agent e a b =
      checkNode (send u n (ruleHome u n (Handle.hi rule)) (.launchAnswer rule .ok agent)) n (Handle.index weir) (odd32 e) := by
  subst ht hu
  simp only [arriveActs, hfn, hx, hk, hr, countArrival_noData, ne_eq, not_true_eq_false, Option.isSome_none,
    Bool.false_eq_true, if_false]

/-! ## The loads of engines (R331) -/

/-- A new subscriber is owed every block with a load. -/
theorem subscribeLoads_new {s : State} {n src : Nat} (hnew : (station s n).subscribers.contains src = false) :
    subscribeLoads s n src true = onStation s n fun st => { st with
      subscribers := st.subscribers ++ [src]
      digestDue := (st.loads.map fun p => p.1 / 128).foldl (fun t b => dueBlock t src b) st.digestDue } := by
  simp only [subscribeLoads, onStation, hnew, if_true, Bool.false_eq_true, if_false]

/-- One whose last subscription ends is owed none. -/
theorem subscribeLoads_ends {s : State} {n src : Nat}
    (hlast : ((station s n).subscribers.erase src).contains src = false) :
    subscribeLoads s n src false = onStation s n fun st => { st with
      subscribers := st.subscribers.erase src, digestDue := tdel st.digestDue src } := by
  simp only [subscribeLoads, onStation, hlast, Bool.false_eq_true, if_false]

section Messages

variable {s : State} {src dst : Nat} {rest : List Msg}

/-- LAUNCH reaches its engine's entry station. -/
theorem exec_launch {rule : Word} {engine scope seq : Nat} {d : Payload}
    (ht : TakesMsg s src dst (.launch rule engine scope seq d) rest) :
    exec (.launch src dst) s = conclude (launchArrives (taken s dst rest) dst rule engine scope seq d) := by
  show execLaunch src dst s = _
  exact arrives_takes s src dst _ rest _ _ 0 rfl ht rfl

/-- ARRIVE_ACTION is a step of its weir's node. -/
theorem exec_arriveAction {rule weir : Word} {agent a b : Nat} {e : BitVec 32}
    (ht : TakesMsg s src dst (.arrive rule weir agent e a b) rest) :
    exec (.arriveAction src dst) s = conclude (stepOn (taken s dst rest) dst weir
      (arriveActs (atStep (taken s dst rest)) dst rule weir agent e a b)) := by
  show execArriveAction src dst s = _
  exact arrives_takes s src dst _ rest _ _ 0 rfl ht (congrArg some (homeStep_eq ..))

/-- SUBSCRIBE and UNSUBSCRIBE reach the engines' station. -/
theorem exec_loadSubscribe {on : Bool} (ht : TakesMsg s src dst (.loadSubscribe on) rest) :
    exec (.loadSubscribe src dst) s = conclude (subscribeLoads (taken s dst rest) dst src on) := by
  show execLoadSubscribe src dst s = _
  exact arrives_takes s src dst _ rest _ _ 0 rfl ht rfl

/-- DIGEST reaches a subscriber. -/
theorem exec_digest {first : Nat} {loads : Table Nat} (ht : TakesMsg s src dst (.digest first loads) rest) :
    exec (.digest src dst) s = conclude (digestArrives (taken s dst rest) dst src first loads) := by
  show execDigest src dst s = _
  exact arrives_takes s src dst _ rest _ _ 0 rfl ht rfl

end Messages

/-- Settles O43, by the message: a launch by whether its engine is fenced, a subscription by whether it begins or ends. -/
theorem launchesAndLoads : Obligations.LaunchesAndLoads := by
  unfold Obligations.LaunchesAndLoads
  refine ⟨?launch, ?arrive, ?subscribe, ?period, ?digest⟩
  case launch =>
    rintro s _ src dst engine scope seq rule d rest ht rfl
    rw [exec_launch ht]
    refine ⟨fun hf => ?fenced, fun hf => ?pushes⟩
    case fenced => rw [launchArrives_fenced hf, conclude]
    case pushes => rw [launchArrives_pushes hf, conclude]
  case arrive =>
    intro s t src dst agent a b rule weir e rest x ht htest hfn hx hk hr
    rw [exec_arriveAction ht, arriveActs_accepted (s := atStep (taken s dst rest)) hfn hx hk hr htest rfl, conclude]
  case subscribe =>
    intro s src dst rest
    refine ⟨fun ht hnew => ?begins, fun ht hlast => ?ends⟩
    case begins => rw [exec_loadSubscribe ht, subscribeLoads_new hnew, conclude]
    case ends => rw [exec_loadSubscribe ht, subscribeLoads_ends hlast, conclude]
  case period =>
    intro s n hn hdue
    show execDigestPeriod n s = _
    rw [execDigestPeriod, deadlineAt_due _ (by rw [hdue]; rfl) hn, conclude]
  case digest => exact fun s src dst first loads rest ht => exec_digest ht

end Sys2Proof.Machine
end

/-!
PROOFS of migration (chapter 10): the end of a tracker window, and the messages between the old home, the new home and the
stations with members.
-/

section
namespace Sys2Proof.Machine

/-! ## The end of a tracker window (R343) -/

/-- Where migration is on, a window's end tries the objects whose traffic lets them move, and restarts every tracker. -/
theorem windowEnds_on {s u : State} {n : Nat} {objs : List Obj} (hon : setting s 0x2A0400 ≠ 0)
    (hobjs : objs = ((station s n).objects.map (·.2)).filter (movesFor s n))
    (hu : u = if (station s n).outgoing.isSome then s else tryMoves s n (byVotes objs.length objs)) :
    windowEnds s n = onStation u n fun st => { st with
      objects := st.objects.map fun p => (p.1, { p.2 with tracker := ⟨0, 0, 0, p.2.tracker.cooldown - 1⟩ }) } := by
  subst hu hobjs
  exact if_neg hon

/-! ## A copy at the new home (R344, R346, R349) -/

/-- An eddy's reference at the new home, by the references that its copy took. -/
def renewedRef (refs : List (Nat × Nat)) (ref : Nat) : Nat :=
  match refs.find? fun p => p.1 == ref with
  | some p => p.2
  | none => ref

/-- The new home once an object has been copied to it, its eddies under new references. -/
def copyHeld (s : State) (n src : Nat) (c : CopyState) (refs : List (Nat × Nat)) : State :=
  onStation (setObj s n (hiIndex c.obj.hi)
      { c.obj with body := c.obj.body.mapEddies fun e => { e with ref := renewedRef refs e.ref } }) n
    fun x => { x with incoming := some ⟨hiIndex c.obj.hi, src, refs, c.node⟩ }

/-- What else a station takes on for a body that is copied to it: a launch rule's load subscriptions, a beacon slot's word. -/
def copyRole (s : State) (n : Nat) : Body → State
  | .rule r => if r.action = 0 then subscribeRule s n r true else s
  | .beacon b => setBeacon s n b.word b.value
  | _ => s

/-- A body that is neither a launch rule's nor a beacon slot's brings no more. -/
theorem copyRole_none {s : State} {n : Nat} {b : Body} (hr : ∀ r, b = .rule r → r.action ≠ 0) (hb : ∀ x, b ≠ .beacon x) :
    copyRole s n b = s := by
  cases b with
  | rule r => exact if_neg (hr r rfl)
  | beacon x => exact absurd rfl (hb x)
  | _ => rfl

section Copy

variable {s : State} {n src : Nat} {c : CopyState} {h : Word}

/-- A copy of an interrupted migration has no effect. -/
theorem copyArrives_interrupted (hgo : moveGoes s c.obj.hi = false) : copyArrives s n src c h = s := by
  simp only [copyArrives, hgo, Bool.not_false, if_true]

variable (hgo : moveGoes s c.obj.hi = true)
include hgo

/-- A station that takes a copy already, or has no room, refuses another. -/
theorem copyArrives_refused (hr : (station s n).incoming.isSome = true ∨ holds s n (copyTakes c) = false) :
    copyArrives s n src c h = send s n src (.copyAnswer h none) := by
  have hcond : ((station s n).incoming.isSome || !holds s n (copyTakes c)) = true := by
    simpa only [Bool.or_eq_true, Bool.not_eq_true'] using hr
  simp only [copyArrives, hgo, hcond, Bool.not_true, Bool.false_eq_true, if_false, if_true]

/-- Another station takes the object and its roles, and answers with the new references. -/
theorem copyArrives_accepted (hin : (station s n).incoming = none) (hh : holds s n (copyTakes c) = true)
    {refs : List (Nat × Nat)} (hrefs : refs = newRefs (eddyRefs (station s n)) (c.obj.body.eddies.map (·.ref))) :
    copyArrives s n src c h =
      send (copyRole (copyHeld s n src c refs) n c.obj.body) n src (.copyAnswer h (some refs)) := by
  subst hrefs
  simp only [copyArrives, hgo, hin, hh, Option.isSome_none, Bool.not_true, Bool.or_self, Bool.false_eq_true, if_false,
    copyHeld]
  cases c.obj.body <;> rfl

end Copy

/-! ## The answers at the old home (R344, R345) -/

/-- The rebinds of a moved object: for each of its eddies, one to every station that has members in it. -/
def rebindMsgs (m : Migration) (refs : List (Nat × Nat)) (o : Obj) : List (Nat × MsgBody) :=
  o.body.eddies.flatMap fun e => e.stations.map fun k =>
    (k, MsgBody.rebind m.handle e.ref (renewedRef refs e.ref) m.newHome)

/-- An object whose eddies have no members needs no rebind. -/
theorem rebindMsgs_alone {m : Migration} {refs : List (Nat × Nat)} {o : Obj} (h : ∀ e ∈ o.body.eddies, e.stations = []) :
    rebindMsgs m refs o = [] :=
  List.flatMap_eq_nil_iff.2 fun e he => List.map_eq_nil_iff.2 (h e he)

section OldHome

variable {s : State} {n : Nat} {m : Migration} (hm : (station s n).outgoing = some m)
include hm

section Goes

variable (hgo : moveGoes s (Handle.hi m.handle) = true)
include hgo

/-- A station's migration goes on while its function is enabled. -/
theorem outgoingGoes_of_moveGoes : outgoingGoes s n = true := by
  simp only [outgoingGoes, hm, hgo]

/-- A refusal ends the migration. -/
theorem copyAnswered_refused (hstep : m.step = 2) : copyAnswered s n none = copyRefused s n m.index := by
  simp only [copyAnswered, hm, hstep, outgoingGoes_of_moveGoes hm hgo, ne_eq, not_true_eq_false, Bool.not_true,
    Bool.false_eq_true, or_self, if_false]

section Accepted

variable (hstep : m.step = 2) {refs : List (Nat × Nat)} {o : Obj} (ho : objAt s n m.index = some o)
include hstep ho

/-- An accepted copy's rebinds leave; where there are none, the commit is journaled at once. -/
theorem copyAnswered_accepted {msgs : List (Nat × MsgBody)} (hmsgs : msgs = rebindMsgs m refs o) {m' : Migration}
    (hm' : m' = { m with step := 3, waiting := msgs.map (·.1), refs := refs }) :
    copyAnswered s n (some refs) =
      let t := sendAll (onOutgoing s n fun _ => m') n msgs
      if msgs.isEmpty then journalCommits t n m' else t := by
  subst hm' hmsgs
  simp only [copyAnswered, hm, hstep, ho, outgoingGoes_of_moveGoes hm hgo, ne_eq, not_true_eq_false, Bool.not_true,
    Bool.false_eq_true, or_self, if_false]
  rfl

/-- The rebinds of an object with members leave, and are awaited. -/
theorem copyAnswered_rebinds {msgs : List (Nat × MsgBody)} (hmsgs : msgs = rebindMsgs m refs o) (hne : msgs ≠ []) :
    copyAnswered s n (some refs) =
      sendAll (onOutgoing s n fun _ => { m with step := 3, waiting := msgs.map (·.1), refs := refs }) n msgs := by
  rw [copyAnswered_accepted hm hgo hstep ho hmsgs rfl]
  exact if_neg fun he => hne (List.isEmpty_iff.1 he)

/-- Without members the commit is journaled. -/
theorem copyAnswered_alone (hnone : ∀ e ∈ o.body.eddies, e.stations = []) {m' : Migration}
    (hm' : m' = { m with step := 3, waiting := [], refs := refs }) :
    copyAnswered s n (some refs) = journalCommits (onOutgoing s n fun _ => m') n m' := by
  rw [copyAnswered_accepted hm hgo hstep ho (rebindMsgs_alone hnone).symm hm']
  simp only [sendAll_nil, List.isEmpty_nil, if_true]

end Accepted

section Awaited

variable {src : Nat} (hw : m.waiting.contains src = true)
include hw

/-- A rebind is acknowledged, and others are awaited. -/
theorem rebindAcked_more (hstep : m.step = 3) (hne : m.waiting.erase src ≠ []) :
    rebindAcked s n src = onOutgoing s n fun _ => { m with waiting := m.waiting.erase src } := by
  simp only [rebindAcked, hm, hstep, hw, outgoingGoes_of_moveGoes hm hgo, and_self, if_true]
  exact if_neg fun he => hne (List.isEmpty_iff.1 he)

/-- The last journals the commit. -/
theorem rebindAcked_last (hstep : m.step = 3) (he : m.waiting.erase src = []) :
    rebindAcked s n src = journalCommits s n { m with waiting := [] } := by
  simp only [rebindAcked, hm, hstep, hw, he, outgoingGoes_of_moveGoes hm hgo, and_self, if_true, List.isEmpty_nil]

/-- A station has flushed, and others are awaited. -/
theorem flushArrives_more (hstep : m.step = 5) (hne : m.waiting.erase src ≠ []) :
    flushArrives s n src = onOutgoing s n fun _ => { m with waiting := m.waiting.erase src } := by
  simp only [flushArrives, hm, hstep, hw, outgoingGoes_of_moveGoes hm hgo, and_self, if_true]
  exact if_neg fun he => hne (List.isEmpty_iff.1 he)

/-- The last lets go what was held. -/
theorem flushArrives_last (hstep : m.step = 5) (he : m.waiting.erase src = []) :
    flushArrives s n src = forwardHeld s n { m with waiting := [] } := by
  simp only [flushArrives, hm, hstep, hw, he, outgoingGoes_of_moveGoes hm hgo, and_self, if_true, List.isEmpty_nil]

end Awaited

section Commit

variable (hstep : m.step = 4) (hready : commitReady s n m = true) {u : State} (hu : u = bump (broadcast
  (chartSet s n m.index (some ⟨2, m.newHome⟩)) n (.chartCommit m.index 2 m.newHome true)) 0x210300) {o : Obj}
  (ho : objAt u n m.index = some o)
include hstep hready hu ho

/-- A journaled commit leaves, and every other station's flush is awaited. -/
theorem commitMigration_plain (hnode : homeNode u n o = none) :
    commitMigration s n = onOutgoing u n fun _ => { m with step := 5, waiting := others s n } := by
  simp only [commitMigration, hm, hstep, hready, outgoingGoes_of_moveGoes hm hgo, and_self, if_true, ← hu, ho, hnode,
    Option.isSome_none, Bool.false_eq_true, if_false]

/-- A weir moves with it. -/
theorem commitMigration_weir {x : Node} (hnode : homeNode u n o = some x) :
    commitMigration s n =
      onOutgoing (moveWeir u n m.newHome m.index) n fun _ => { m with step := 5, waiting := others s n } := by
  simp only [commitMigration, hm, hstep, hready, outgoingGoes_of_moveGoes hm hgo, and_self, if_true, ← hu, ho, hnode,
    Option.isSome_some]

end Commit

end Goes

end OldHome

/-! ## The commit at the new home (R345) -/

section NewHome

variable {s : State} {n src : Nat} {m : Incoming} (hm : (station s n).incoming = some m)
include hm

/-- FORWARD_DONE of another station than the old home, or of an interrupted migration, has no effect. -/
theorem forwardDoneArrives_other (h : m.oldHome ≠ src ∨ journalGoes s src = false) : forwardDoneArrives s n src = s := by
  have hcond : ¬ (m.oldHome = src ∧ journalGoes s src = true) := by
    rw [not_and_or, Bool.not_eq_true]; exact h
  simp only [forwardDoneArrives, hm, if_neg hcond]

section Commits

variable (hsrc : m.oldHome = src) (hgo : journalGoes s src = true) {u v w : State} {o : Obj}
  (hu : u = bump (broadcast (chartSet (onStation s n fun x => { x with incoming := none, hold := [] })
    n m.index (some ⟨0, n⟩)) n (.chartCommit m.index 0 n false)) 0x210300)
  (hv : v = (station s n).hold.foldl (fun x op => homeExec x n op) (bump { u with journal := tdel u.journal src } 0x2A0504))
  (hw : w = releaseReports v n m.index) (ho : objAt w n m.index = some o)
include hsrc hgo hu hv hw ho

/-- The new home commits the object, runs what was held, and counts the migration. -/
theorem forwardDoneArrives_plain (hk : ∀ k, o.body ≠ .keeper k) (hweir : ∀ x, o.body ≠ .weir x) :
    forwardDoneArrives s n src = bumpFn w (hiFn o.hi) 0x28 := by
  -- `hk` and `hweir` leave the last arm of the match on the body
  simp only [forwardDoneArrives, hm, hsrc, hgo, and_self, if_true, ← hu, ← hv, ← hw, ho]

/-- A keeper then meets the completions that waited for it. -/
theorem forwardDoneArrives_keeper {k : Keeper} (hb : o.body = .keeper k) :
    forwardDoneArrives s n src =
      homeStep (bumpFn w (hiFn o.hi) 0x28) n k.weirHi fun y => homeChecks 4 y n (hiIndex k.weirHi) := by
  simp only [forwardDoneArrives, hm, hsrc, hgo, and_self, if_true, ← hu, ← hv, ← hw, ho, hb]

/-- A weir checks its banks. -/
theorem forwardDoneArrives_weir {x : Weir} (hb : o.body = .weir x) :
    forwardDoneArrives s n src = homeStep (bumpFn w (hiFn o.hi) 0x28) n o.hi fun y => homeChecks 4 y n m.index := by
  simp only [forwardDoneArrives, hm, hsrc, hgo, and_self, if_true, ← hu, ← hv, ← hw, ho, hb]

end Commits

end NewHome

section Messages

variable {s : State} {src dst : Nat} {h : Word} {rest : List Msg}

/-- A copy's segment reaches the new home, which acts on the last. -/
theorem exec_migrationCopy {c : CopyState} {seg last : Nat} (ht : TakesMsg s src dst (.copy c h seg last) rest) :
    exec (.migrationCopy src dst) s =
      conclude (if seg = last then copyArrives (taken s dst rest) dst src c h else taken s dst rest) := by
  show execMigrationCopy src dst s = _
  exact arrives_takes s src dst _ rest _ _ 0 rfl ht rfl

/-- The answer to a copy reaches the old home. -/
theorem exec_copyAccepted {accepted : Option (List (Nat × Nat))} (ht : TakesMsg s src dst (.copyAnswer h accepted) rest) :
    exec (.copyAccepted src dst) s = conclude (copyAnswered (taken s dst rest) dst accepted) := by
  show execCopyAccepted src dst s = _
  exact arrives_takes s src dst _ rest _ _ 1 rfl ht rfl

/-- A rebind reaches a station with members. -/
theorem exec_rebind {oldRef newRef newHome : Nat} (ht : TakesMsg s src dst (.rebind h oldRef newRef newHome) rest) :
    exec (.rebind src dst) s = conclude (rebindArrives (taken s dst rest) dst src h oldRef newRef newHome) := by
  show execRebind src dst s = _
  exact arrives_takes s src dst _ rest _ _ 3 rfl ht rfl

/-- Its acknowledgement reaches the old home. -/
theorem exec_rebindAck (ht : TakesMsg s src dst (.rebindAck h) rest) :
    exec (.rebindAck src dst) s = conclude (rebindAcked (taken s dst rest) dst src) := by
  show execRebindAck src dst s = _
  exact arrives_takes s src dst _ rest _ _ 0 rfl ht rfl

/-- So does a station's flush. -/
theorem exec_flush (ht : TakesMsg s src dst (.flush h) rest) :
    exec (.flush src dst) s = conclude (flushArrives (taken s dst rest) dst src) := by
  show execFlush src dst s = _
  exact arrives_takes s src dst _ rest _ _ 0 rfl ht rfl

/-- FORWARD_DONE reaches the new home. -/
theorem exec_forwardDone (ht : TakesMsg s src dst (.forwardDone h) rest) :
    exec (.forwardDone src dst) s = conclude (forwardDoneArrives (taken s dst rest) dst src) := by
  show execForwardDone src dst s = _
  exact arrives_takes s src dst _ rest _ _ 0 rfl ht rfl

end Messages

/-- Settles O44, by the step of the migration, and each by its outcome at the station that takes it. -/
theorem migrations : Obligations.Migrations := by
  unfold Obligations.Migrations
  refine ⟨?window, ?segment, ?copy, ?oldHome, ?rebind, ?commit, ?newHome⟩
  case window =>
    rintro s _ u n objs hn hon hsome rfl hon' hobjs hu
    show execMigrateWindowEnd n s = _
    rw [execMigrateWindowEnd, deadlineAt_due _ (by simp only [bne_iff_ne.2 hon, hsome, Bool.not_false, Bool.and_self]) hn,
      windowEnds_on hon' hobjs hu, conclude]
  case segment =>
    rintro s _ src dst seg last c h rest ht rfl hcond
    rw [exec_migrationCopy ht]
    split
    case isTrue hlast => rw [copyArrives_interrupted (hcond.resolve_left (not_not.2 hlast)), conclude]
    case isFalse => rw [conclude]
  case copy =>
    rintro s _ src dst seg c h rest ht rfl hgo
    rw [exec_migrationCopy ht, if_pos rfl]
    refine ⟨fun hr => ?refused, fun refs u hin hh hrefs hu => ?accepted⟩
    case refused => rw [copyArrives_refused hgo hr, conclude]
    case accepted =>
      replace hu : u = copyHeld (taken s dst rest) dst src c refs := hu
      rw [copyArrives_accepted hgo hin hh hrefs, ← hu]
      refine ⟨fun hr hb => ?plain, fun b hb => ?beacon, fun r hb ha => ?launch⟩
      case plain => rw [copyRole_none hr hb, conclude]
      case beacon => rw [hb, copyRole, conclude]
      case launch => rw [hb, copyRole, if_pos ha, conclude]
  case oldHome =>
    rintro s _ src dst rest m rfl hm hgo
    refine ⟨fun h ht hstep => ?refused, fun h refs o msgs ht hstep ho hne hmsgs => ?rebinds,
      fun h refs o ht hstep ho hnone => ?alone, fun h ht hstep hw => ⟨fun hne => ?ackMore, fun he => ?ackLast⟩,
      fun h ht hstep hw => ⟨fun hne => ?flushMore, fun he => ?flushLast⟩⟩
    case refused => rw [exec_copyAccepted ht, copyAnswered_refused hm hgo hstep, conclude]
    case rebinds => rw [exec_copyAccepted ht, copyAnswered_rebinds hm hgo hstep ho hmsgs hne, conclude]
    case alone => rw [exec_copyAccepted ht, copyAnswered_alone hm hgo hstep ho hnone rfl, conclude]
    case ackMore => rw [exec_rebindAck ht, rebindAcked_more hm hgo hw hstep hne, conclude]
    case ackLast => rw [exec_rebindAck ht, rebindAcked_last hm hgo hw hstep he, conclude]
    case flushMore => rw [exec_flush ht, flushArrives_more hm hgo hw hstep hne, conclude]
    case flushLast => rw [exec_flush ht, flushArrives_last hm hgo hw hstep he, conclude]
  case rebind =>
    rintro s _ src dst oldRef newRef newHome h rest ht rfl
    exact exec_rebind ht
  case commit =>
    rintro s _ u n m hn rfl hs hm hstep hready hgo hu
    have hdue : ((station s n).outgoing.any fun m => m.step == 4) = true := by
      rw [hs, Option.any_some, hstep]; rfl
    have hexec : exec (.migrationCommit n) s = conclude (commitMigration (foreground s n) n) := by
      show execMigrationCommit n s = _
      rw [execMigrationCommit, deadlineAt_due _ hdue hn]
    rw [hexec]
    refine ⟨fun o ho hnode => ?plain, fun o x ho hnode => ?weir⟩
    case plain => rw [commitMigration_plain hm hgo hstep hready hu ho hnode, conclude]
    case weir => rw [commitMigration_weir hm hgo hstep hready hu ho hnode, conclude]
  case newHome =>
    rintro s _ src dst h rest m ht rfl hm
    rw [exec_forwardDone ht]
    refine ⟨fun hother => ?other, fun u v w o hsrc hgo hu hv hw ho =>
      ⟨fun hk hweir => ?plain, fun k hb => ?keeper, fun x hb => ?weir⟩⟩
    case other => rw [forwardDoneArrives_other hm hother, conclude]
    case plain => rw [forwardDoneArrives_plain hm hsrc hgo hu hv hw ho hk hweir, conclude]
    case keeper => rw [forwardDoneArrives_keeper hm hsrc hgo hu hv hw ho hb, conclude]
    case weir => rw [forwardDoneArrives_weir hm hsrc hgo hu hv hw ho hb, conclude]

end Sys2Proof.Machine
end

/-!
PROOFS of scale keepers (chapter 11): the operations on a keeper at its home, and the reports that arrive at its weir.
-/

section
namespace Sys2Proof.Machine

/-! ## Operations that meet their keeper at their own station (R368 to R372) -/

/-- An operation on a keeper that has not failed, other than DESTROY and CANCEL, is the keeper's. -/
theorem runOn_keeper (s : State) (n : Nat) {o : Obj} {k : Keeper} (f : FwdOp) (hb : o.body = .keeper k)
    (hf : o.failed = false) (hd : f.op ≠ .destroy) (hc : f.op ≠ .cancel) : runOn s n o f = homeKeeper s n o k f := by
  simp only [runOn, hd, hc, hf, hb, Bool.false_eq_true, if_false]

/-- So it is for a record that meets its keeper at its own station. -/
theorem exec_keeperHere (op : Opcode) {r : OpRec} {s : State} {o : Obj} {k : Keeper} (hb : o.body = .keeper k)
    {effect : State → Obj → FwdOp → State} (ho : ordinary op = true) (hd : op ≠ .destroy) (h : MeetsHere op r s o)
    (he : ∀ t o', o'.hi = o.hi → homeKeeper t r.station o' k (travelling op r (admitted r s) 0) =
      effect t o' (travelling op r (admitted r s) 0)) :
    exec (recordCommand op r) s = .next (settled (doneHere op r s o effect)) := by
  have hc : op ≠ .cancel := by rintro rfl; exact absurd ho (by decide)
  refine exec_meetsHere_as op r s o ho h fun t o' hbody hhi hfailed => ?_
  rw [runOn_keeper t r.station _ (hbody.trans hb) hfailed hd hc, he t o' hhi]

section Operations

variable (s : State) (n : Nat) (o : Obj) {k : Keeper} {f : FwdOp}

/-- SK_READ of a view and a selector in range answers the step count, the flags with the number of unanchored groups, and the
view. -/
theorem homeKeeper_skRead (hop : f.op = .skRead) {d : Payload} (hview : k.view (bits f.a 1 0) (Handle.sel f.handle) = some d) :
    homeKeeper s n o k f =
      answer s n f ⟨.ok, k.steps,
        BitVec.ofNat 64 (flag k.lastSkipped + 2 * flag k.episode + 2 ^ 32 * (k.groups.filter fun g => !g.anchored).length),
        some d, none⟩ := by
  simp only [homeKeeper, hop, skRead, hview]

/-- SK_POLICY with a policy in range, for groups that the keeper has, puts the resolved policy in force at them. -/
theorem homeKeeper_skPolicy (hop : f.op = .skPolicy) {d : Payload} (hdata : f.data = some d) (hok : policyOk d = true)
    (hcount : (policyOf d).count ≠ 0) (hrange : (policyOf d).first + (policyOf d).count ≤ k.groups.length) :
    homeKeeper s n o k f =
      reply (setObj s n (hiIndex o.hi) { o with body := .keeper { k with
        groups := appliedTo ((policyOf d).resolve s) (policyOf d).first (policyOf d).count k.groups } }) n f 0 0 := by
  have hpass : (!policyOk d || (policyOf d).count == 0 ||
      !decide ((policyOf d).first + (policyOf d).count ≤ k.groups.length)) = false := by
    rw [hok, beq_false_of_ne hcount, decide_eq_true hrange]; rfl
  simp only [homeKeeper, hop, skPolicy, hdata, hpass, appliedTo, Bool.false_eq_true, if_false]

variable (hidle : k.transfer = 0)
include hidle

/-- Without a transfer in progress, the keeper refuses the next one exactly inside a step. -/
theorem transferRefused_iff : (!betweenSteps k || k.transfer != 0) = true ↔ ¬ betweenSteps k = true := by
  rw [hidle]; cases betweenSteps k <;> decide

/-- SK_EXPORT between steps begins the transfer of the keeper's image, as it now stands, to the slice. -/
theorem homeKeeper_skExport (hop : f.op = .skExport) :
    homeKeeper s n o k f =
      if betweenSteps k then
        let image := k.image (fnSetting s (hiFn o.hi) 0x1A % 2 ^ 32)
        imageXacts (addJob (setObj s n (hiIndex o.hi) { o with body := .keeper { k with transfer := 1 } }) n
          ⟨o.hi, .keeperExport ((k.length + 255) / 256) image, f.entry, f.tag, f.agent⟩) n o f.a.toNat k.length (some image)
      else refuse s n f .stale := by
  simp only [homeKeeper, hop, skExport, transferRefused_iff hidle, ite_not]

/-- SK_IMPORT between steps, with the image's length and a zero rest in its payload, begins the reads of the image's parts. -/
theorem homeKeeper_skImport (hop : f.op = .skImport) {d : Payload} (hdata : f.data = some d)
    (hlength : payloadNat d 4 4 = k.length) (hrest : payloadNat d 8 56 = 0) :
    homeKeeper s n o k f =
      if betweenSteps k then
        imageXacts (addJob (setObj s n (hiIndex o.hi) { o with body := .keeper { k with transfer := 2 } }) n
          ⟨o.hi, .keeperImport ((k.length + 255) / 256) ((k.length + 255) / 256) [] (BitVec.ofNat 32 (payloadNat d 0 4)) false,
            f.entry, f.tag, f.agent⟩) n o f.a.toNat k.length none
      else refuse s n f .stale := by
  have hfields : ¬ (payloadNat d 4 4 ≠ k.length ∨ payloadNat d 8 56 ≠ 0) :=
    not_or.2 ⟨not_not.2 hlength, not_not.2 hrest⟩
  simp only [homeKeeper, hop, skImport, hdata, if_neg hfields, transferRefused_iff hidle, ite_not]

end Operations

/-- Settles O21, by the operation. View 2's s0, the messages of the image and the count that tells a step's end are the model's
readings of the spec (log entries 30, 36 and 74). -/
theorem keeperOperations : Obligations.KeeperOperations := by
  unfold Obligations.KeeperOperations
  intro r s o k hb
  refine ⟨fun d h hview => ?state, fun h hp hok hcount hrange => ?policy, fun h hidle => ?writes,
    fun h hidle hp hlength hrest => ?reads⟩
  case state => exact exec_keeperHere .skRead hb rfl nofun h fun t o' _ => homeKeeper_skRead t r.station o' rfl hview
  case policy =>
    refine exec_keeperHere .skPolicy hb rfl nofun h fun t o' hhi => ?_
    rw [homeKeeper_skPolicy t r.station o' rfl (if_pos hp) hok hcount hrange, hhi]
  case writes =>
    refine exec_keeperHere .skExport hb rfl nofun h fun t o' hhi => ?_
    rw [homeKeeper_skExport t r.station o' hidle rfl, hhi]; rfl
  case reads =>
    refine exec_keeperHere .skImport hb rfl nofun h fun t o' hhi => ?_
    rw [homeKeeper_skImport t r.station o' hidle rfl (if_pos hp) hlength hrest, hhi]; rfl

/-! ## Reports at a station with the keeper weir's node (R352, R357, R358) -/

section Report

variable {r : OpRec} {s : State} {x : Node} {k : BitVec 40} {g : Nat}
  (hn : keeperNode (admitted r s) r.station (Handle.hi r.handle) = some x) (hk : x.params.keeper = some (k, g))
  (hl : x.keeperLost = false)
include hn hk hl

/-- A report out of range is PRIVILEGE before it is classified. -/
theorem reportAdm_bad (hbad : reportBad (admOf .skReport r) g = true) :
    reportAdm (admitted r s) (admOf .skReport r) =
      answered (countRefusal (admitted r s) r.fnStamp.toNat .privilege) r (plain .privilege) := by
  have hnode : keeperNode (admitted r s) (admOf .skReport r).n (Handle.hi (admOf .skReport r).handle) = some x := hn
  simp only [reportAdm, hnode, hk, hl, hbad, refuseAdm_admOf, Bool.false_eq_true, if_false, if_true]

variable (hfits : reportBad (admOf .skReport r) g = false) {e : BitVec 32}
  (he : e = BitVec.ofNat 32 (r.operandA.toNat % 2 ^ 32 * ((g + 3) / 4) + Handle.sel r.handle))
include hfits he

/-- One in range is an arrival at the keeper weir's node, for the epoch of its step and block. -/
theorem reportAdm_arrives :
    reportAdm (admitted r s) (admOf .skReport r) = homeStep (admitted r s) r.station x.hi fun t =>
      nodeArrive t (admOf .skReport r) x e (if r.payload then some r.data else none) := by
  have hnode : keeperNode (admitted r s) (admOf .skReport r).n (Handle.hi (admOf .skReport r).handle) = some x := hn
  simp only [reportAdm, hnode, hk, hl, hfits, bits_low, he, Bool.false_eq_true, if_false]
  rfl

/-- SK_REPORT in range has the effect that the node's step has. -/
theorem exec_skReport_node {effect : State → State} (h : Ready .skReport r s)
    (harrive : nodeArrive (atStep (admitted r s)) (admOf .skReport r) x e (if r.payload then some r.data else none) =
      effect (atStep (admitted r s))) :
    exec (.skReport r) s = .next (settled (homeStep (admitted r s) r.station x.hi effect)) := by
  refine (exec_ready .skReport r s h).trans (congrArg conclude ((reportAdm_arrives hn hk hl hfits he).trans ?_))
  rw [homeStep_eq, harrive, ← homeStep_eq]

end Report

/-- Settles O22, by whether the report is in range. -/
theorem keeperReport : Obligations.KeeperReport := by
  unfold Obligations.KeeperReport
  intro r s x k g h hn hk hl
  refine ⟨fun hbad => ?outOfRange, fun e hfits he haccept => ?arrives⟩
  case outOfRange => exact (exec_ready .skReport r s h).trans (congrArg conclude (reportAdm_bad hn hk hl hbad))
  case arrives =>
    simp only [← ofNat_flag]
    exact exec_skReport_node hn hk hl hfits he h (nodeArrive_accepted .skReport haccept)

end Sys2Proof.Machine
end

/-!
PROOFS of the whole machine: the state after reset, and the invariant that every step keeps (R440, R482, R508), with the bounds
that the operations on queues, objects, eddies, waiter records and links keep (R23, R144, R145, R251, R252, R425).
-/

section
namespace Sys2Proof.Machine

/-! ## What closes a step (R440, R482, R508) -/

/-- An engine reset ends where it waits for nothing. -/
theorem resetEnds_waits (s : State) : ResetWaits (resetEnds s) := by
  unfold resetEnds
  split
  · exact nofun
  next hgoes =>
    intro hreset
    simp only [hreset, Bool.true_and, Bool.and_eq_true, beq_iff_eq, Bool.not_eq_true', List.all_eq_true, List.contains_eq_mem,
      decide_eq_true_eq, decide_eq_false_iff_not] at hgoes
    by_contra hnone
    simp only [not_or, not_exists, not_and, not_not, Bool.not_eq_true, Bool.not_eq_false, List.contains_eq_mem,
      decide_eq_false_iff_not] at hnone
    obtain ⟨hphase, hclamp, hfc, hkey, hon⟩ := hnone
    exact hgoes ⟨⟨⟨⟨hphase, hclamp⟩, hfc⟩, hkey⟩, hon⟩

/-- A bridge that is on has what it needs. -/
abbrev BridgeLive (s : State) (b : Nat) : Prop :=
  bridgeMode s b ≠ 0 →
    (queueOf s (bridgeQueue s b)).isSome = true ∧ (fnOf s (Handle.fn (bridgeQueue s b))).state = .enabled

/-- The home of a queue is a matter of the stations alone. -/
theorem queueOf_congr {s t : State} (hs : t.stations = s.stations) (h : Word) : queueOf t h = queueOf s h := by
  have hq : ∀ n, queueAt t n h = queueAt s n h := fun n => by simp only [queueAt, liveObj, objAt, station, hs]
  simp only [queueOf, hs, hq]

/-- States with the same stations, functions and entry of a bridge have the bridge alike. -/
theorem bridgeLive_congr {s t : State} {b : Nat} (hs : t.stations = s.stations) (hf : t.fns = s.fns)
    (he : setting t (0x2D0500 + b) = setting s (0x2D0500 + b)) : BridgeLive t b ↔ BridgeLive s b := by
  have hentry : bridgeEntry t b = bridgeEntry s b := congrArg (BitVec.ofNat 192) he
  have hfn : ∀ f, fnOf t f = fnOf s f := fun f => by simp only [fnOf, hf]
  simp only [BridgeLive, bridgeMode, bridgeQueue, hentry, queueOf_congr hs, hfn]

/-- Its own entry is all of the dictionary that a bridge changes as it goes off. -/
theorem setting_bridgeOff_other (s : State) {b k : Nat} (h : k ≠ 0x2D0500 + b) : setting (bridgeOff s b) k = setting s k :=
  setting_setSetting_other { s with bridges := tdel s.bridges b } _ _ _ h

/-- A number without the field of its bits 53 to 52. -/
theorem field_cleared (v : Nat) : (v - v % 2 ^ 192 / 2 ^ 52 % 2 ^ 2 * 2 ^ 52) % 2 ^ 192 / 2 ^ 52 % 2 ^ 2 = 0 := by omega

/-- A bridge that has gone off has mode 0. -/
theorem bridgeMode_bridgeOff (s : State) (b : Nat) : bridgeMode (bridgeOff s b) b = 0 := by
  have hentry : setting (bridgeOff s b) (0x2D0500 + b) = setting s (0x2D0500 + b) - bridgeMode s b * 2 ^ 52 :=
    setting_setSetting_same ..
  have hmode : ∀ t, bridgeMode t b = setting t (0x2D0500 + b) % 2 ^ 192 / 2 ^ 52 % 2 ^ 2 := fun _ => rfl
  rw [hmode (bridgeOff s b), hentry, hmode s]
  exact field_cleared _

/-- One entry of the check of bridges. -/
def bridgeChecked (s : State) (b : Nat) : State :=
  if bridgeMode s b ≠ 0 ∧ ((queueOf s (bridgeQueue s b)).isNone ∨ (fnOf s (Handle.fn (bridgeQueue s b))).state ≠ .enabled)
  then bridgeOff s b else s

/-- The check goes through the entries of bridges that have been written. -/
theorem bridgesCheck_eq (s : State) :
    bridgesCheck s = (s.dict.filter fun p => 0x2D0500 ≤ p.1 && p.1 ≤ 0x2D053F).foldl
      (fun t p => bridgeChecked t (p.1 - 0x2D0500)) s := rfl

/-- It leaves the power, the entropy port, the stations, the functions and the open loss as they are. -/
theorem bridgeChecked_others (s : State) (b : Nat) :
    (bridgeChecked s b).power = s.power ∧ (bridgeChecked s b).entropy = s.entropy ∧
    (bridgeChecked s b).stations = s.stations ∧ (bridgeChecked s b).fns = s.fns := by
  unfold bridgeChecked
  split <;> exact ⟨rfl, rfl, rfl, rfl⟩

/-- A bridge that has been checked has what it needs. -/
theorem bridgeChecked_live (s : State) (b : Nat) : BridgeLive (bridgeChecked s b) b := by
  unfold bridgeChecked
  split
  · exact fun hon => absurd (bridgeMode_bridgeOff s b) hon
  next hfits =>
    intro hon
    have hfits := not_and.1 hfits hon
    simpa only [not_or, Option.isNone_iff_eq_none, ← Option.isSome_iff_ne_none, not_not] using hfits

/-- A check leaves every bridge with what it needs. -/
theorem bridgeChecked_keeps (s : State) (b c : Nat) (h : BridgeLive s c) : BridgeLive (bridgeChecked s b) c := by
  by_cases hc : c = b
  · exact hc ▸ bridgeChecked_live s b
  · obtain ⟨_, _, hs, hf⟩ := bridgeChecked_others s b
    refine (bridgeLive_congr hs hf ?_).2 h
    unfold bridgeChecked
    split
    · exact setting_bridgeOff_other s (by omega)
    · rfl

/-- Every bridge that some entries name has what it needs once they have been checked, and so has one that had it before. -/
theorem foldl_bridgeChecked_live {b : Nat} (l : List (Nat × Nat)) :
    ∀ s, BridgeLive s b ∨ (∃ p ∈ l, p.1 - 0x2D0500 = b) →
      BridgeLive (l.foldl (fun t p => bridgeChecked t (p.1 - 0x2D0500)) s) b := by
  induction l with
  | nil => simp
  | cons p l ih =>
    intro s h
    refine ih _ ?_
    rcases h with h | ⟨q, hq, hb⟩
    · exact .inl (bridgeChecked_keeps s _ b h)
    · rcases List.mem_cons.1 hq with rfl | hq
      · exact .inl (hb ▸ bridgeChecked_live s _)
      · exact .inr ⟨q, hq, hb⟩

/-- A bridge whose entry has not been written is off. -/
theorem bridgeMode_unwritten {s : State} {b : Nat} (hb : b < 64) (h : tget s.dict (0x2D0500 + b) = none) : bridgeMode s b = 0 := by
  have hrow : ∀ k : Fin 64, rowDefault dictRows (0x2D0500 + k) = 0 := by decide +kernel
  have hentry : setting s (0x2D0500 + b) = 0 := by rw [setting, tgetD, h]; exact hrow ⟨b, hb⟩
  rw [bridgeMode, bridgeEntry, hentry]
  rfl

/-- Once the bridges have been checked, each that is on has what it needs. -/
theorem bridgesCheck_live (s : State) : BridgesLive (bridgesCheck s) := by
  intro b hb
  rw [bridgesCheck_eq]
  refine foldl_bridgeChecked_live _ s ?_
  cases hentry : tget s.dict (0x2D0500 + b) with
  | none => exact .inl fun hon => absurd (bridgeMode_unwritten hb hentry) hon
  | some v =>
    refine .inr ⟨_, List.mem_filter.2 ⟨mem_of_tget _ _ _ hentry, ?_⟩, Nat.add_sub_cancel_left ..⟩
    simp only [Bool.and_eq_true, decide_eq_true_eq]
    omega

/-- The check of bridges leaves the power and the entropy port as they are. -/
theorem bridgesCheck_others (s : State) : (bridgesCheck s).power = s.power ∧ (bridgesCheck s).entropy = s.entropy := by
  rw [bridgesCheck_eq]
  generalize s.dict.filter _ = l
  induction l generalizing s with
  | nil => exact ⟨rfl, rfl⟩
  | cons p l ih =>
    obtain ⟨hp, he, _⟩ := bridgeChecked_others s (p.1 - 0x2D0500)
    obtain ⟨hp', he'⟩ := ih (bridgeChecked s (p.1 - 0x2D0500))
    exact ⟨hp'.trans hp, he'.trans he⟩

/-- Room in the log is made with no other counter than that of the losses. -/
theorem setting_logRoom {s t : State} {k : Nat} (h : logRoom s = some t) (hk : k ≠ 0x200602) : setting t k = setting s k := by
  unfold logRoom at h
  repeat' split at h
  all_goals cases h
  · rfl
  · exact setting_setSetting_other _ _ _ _ hk
  · exact setting_setSetting_other _ _ _ _ hk

/-- An event that reports a loss touches no bridge. -/
theorem overflowCheck_others (s : State) :
    (overflowCheck s).power = s.power ∧ (overflowCheck s).entropy = s.entropy ∧ (overflowCheck s).stations = s.stations ∧
    (overflowCheck s).fns = s.fns ∧ ∀ k, k ≠ 0x200601 → k ≠ 0x200602 → setting (overflowCheck s) k = setting s k := by
  unfold overflowCheck
  split
  · split
    next t ht =>
      have hroom := fun k => setting_logRoom (k := k) ht
      obtain ⟨d, l, rfl⟩ := logRoom_log ht
      exact ⟨rfl, rfl, rfl, rfl, fun k hseq hlost => (setting_setSetting_other _ _ _ _ hseq).trans (hroom k hlost)⟩
    · exact ⟨rfl, rfl, rfl, rfl, fun _ _ _ => rfl⟩
  · exact ⟨rfl, rfl, rfl, rfl, fun _ _ _ => rfl⟩

/-- A step that is closed has the invariant: each of the three checks leaves its own part, and keeps those before it. -/
theorem closing_inv (s : State) : StepInv (closing s) := by
  obtain ⟨hp, he, hs, hf, hk⟩ := overflowCheck_others (bridgesCheck (resetEnds s))
  obtain ⟨hp', he'⟩ := bridgesCheck_others (resetEnds s)
  refine ⟨overflowCheck_marks _, fun b hb => ?bridges, ?reset⟩
  case bridges =>
    exact (bridgeLive_congr hs hf (hk _ (by omega) (by omega))).2 (bridgesCheck_live _ b hb)
  case reset =>
    have hwaits := resetEnds_waits s
    simpa only [ResetWaits, closing, hp, he, hp', he'] using hwaits

/-- So has every state in which a step ends. -/
theorem settled_inv (s : State) : StepInv (settled s) := by
  obtain ⟨u, hu⟩ := settled_closed s
  exact hu ▸ closing_inv u

/-- The log has no room where it is full, each of its entries is fixed, and none has been acknowledged. -/
theorem logRoom_none (s : State) : logRoom s = none ↔
    ¬ s.log.length < 256 ∧ takeFirst (fun e => !e.fixed) s.log = none ∧ takeFirst (acknowledged s) s.log = none := by
  unfold logRoom
  split
  next hroom => exact ⟨fun h => absurd h (Option.some_ne_none _), fun h => absurd hroom h.1⟩
  next hfull =>
    split
    next hloose => simp only [hloose, reduceCtorEq, false_and, and_false]
    next hfixed =>
      split
      next hread => simp only [hread, reduceCtorEq, and_false]
      next hunread => exact ⟨fun _ => ⟨hfull, hfixed, hunread⟩, fun _ => rfl⟩

/-- The commands that wait are no part of the invariant. -/
theorem stepInv_pending {s : State} (rest : List Instr) (h : StepInv s) : StepInv { s with pending := rest } := by
  obtain ⟨hloss, hbridges, hreset⟩ := h
  exact ⟨fun hopen => (logRoom_none _).2 ((logRoom_none s).1 (hloss hopen)), hbridges, hreset⟩

/-- A step of the machine is a command, or lets the clocks tick; a command leaves the state as it is or ends in a settled one. -/
theorem step_inv {s t : State} (h : StepInv s) (hstep : step s = .next t) : StepInv t := by
  unfold step at hstep
  split at hstep
  · cases hstep
    exact settled_inv _
  next i rest _ =>
    obtain hsame | ⟨u, hu⟩ := Laws.Answers.answers i { s with pending := rest }
    · cases hsame.symm.trans hstep
      exact stepInv_pending rest h
    · cases hu.symm.trans hstep
      exact settled_inv u

/-- Settles O56: nothing is lost, no bridge has an entry and no reset runs. -/
theorem resetHasInvariant : Obligations.ResetHasInvariant :=
  ⟨nofun, fun _ hb hon => absurd (bridgeMode_unwritten hb rfl) hon, nofun⟩

/-! ## Bounds of queues, objects, eddies, waiter records and links (R23, R144, R145, R251, R252, R425) -/

/-- A position at which a queue has a token for pops lies before push. -/
theorem lt_push_of_tokenAt {q : Queue} {p : Nat} {t : Token} (h : q.tokenAt p = some t) : p < q.push := by
  unfold Queue.tokenAt at h
  split at h
  · cases h
  next hseen =>
    have : q.seen ≤ q.push := by unfold Queue.seen; split <;> omega
    omega

/-- The tokens that a pop takes from a position on lie before push. -/
theorem takeTokens_fit (q : Queue) (stop : Bool) (m : Nat) :
    ∀ p, p ≤ q.push → p + (q.takeTokens stop m p).length ≤ q.push := by
  induction m with
  | zero => exact fun p hp => hp
  | succ m ih =>
    intro p hp
    unfold Queue.takeTokens
    split
    · exact hp
    next t ht =>
      have hlt := lt_push_of_tokenAt ht
      split
      · exact hlt
      · have := ih (p + 1) hlt
        rw [List.length_cons]
        omega

/-- What a queue gives a pop keeps its cursors in order. -/
theorem give_ordered (q : Queue) (stop : Bool) (m : Nat) (h : CursorsOrdered q) : CursorsOrdered (q.give stop m).2.2 := by
  obtain ⟨hrel, hread, hcap⟩ := h
  unfold Queue.give
  split
  · exact ⟨hrel, hread, hcap⟩
  · exact ⟨Nat.le_add_right_of_le hrel, takeTokens_fit q stop m q.read hread, hcap⟩

/-- A full tail window leaves the cursors, the toll and the capacity as they are. -/
theorem tailFull_cursors (s : State) (home : Nat) (hi : BitVec 40) (q : Queue) :
    (tailFull s home hi q).2.rel = q.rel ∧ (tailFull s home hi q).2.read = q.read ∧ (tailFull s home hi q).2.push = q.push ∧
    (tailFull s home hi q).2.tollOut = q.tollOut ∧ (tailFull s home hi q).2.capacity = q.capacity := by
  unfold tailFull
  dsimp only
  split <;> exact ⟨rfl, rfl, rfl, rfl, rfl⟩

/-- A queue whose tail window has taken some tokens. -/
def Queue.taking (q : Queue) (l : List Token) : Queue := { q with tail := q.tail ++ l, push := q.push + l.length }

/-- Tokens enter the tail window as far as it is free; a full one is passed on, and the rest go after. -/
theorem writeTail_succ (home : Nat) (hi : BitVec 40) (fuel : Nat) (s : State) (q : Queue) (l : List Token) :
    writeTail home hi (fuel + 1) s q l =
      if l.isEmpty ∨ q.spillTail ≠ 0 then (s, q, l)
      else if (q.taking (l.take (16 - q.tail.length))).tail.length = 16 then
        writeTail home hi fuel (tailFull s home hi (q.taking (l.take (16 - q.tail.length)))).1
          (tailFull s home hi (q.taking (l.take (16 - q.tail.length)))).2 (l.drop (16 - q.tail.length))
      else (s, q.taking (l.take (16 - q.tail.length)), l.drop (16 - q.tail.length)) := rfl

/-- Tokens that the tail window takes move push alone, by their number. -/
theorem writeTail_cursors (home : Nat) (hi : BitVec 40) (fuel : Nat) : ∀ (s : State) (q : Queue) (l : List Token),
    (writeTail home hi fuel s q l).2.1.rel = q.rel ∧ (writeTail home hi fuel s q l).2.1.read = q.read ∧
    (writeTail home hi fuel s q l).2.1.tollOut = q.tollOut ∧ (writeTail home hi fuel s q l).2.1.capacity = q.capacity ∧
    q.push ≤ (writeTail home hi fuel s q l).2.1.push ∧
    (writeTail home hi fuel s q l).2.1.push + (writeTail home hi fuel s q l).2.2.length = q.push + l.length := by
  induction fuel with
  | zero => exact fun s q l => ⟨rfl, rfl, rfl, rfl, Nat.le_refl _, rfl⟩
  | succ fuel ih =>
    intro s q l
    obtain ⟨taken, rest, rfl, htaken, hrest⟩ : ∃ taken rest, taken ++ rest = l ∧ l.take (16 - q.tail.length) = taken ∧
        l.drop (16 - q.tail.length) = rest := ⟨_, _, List.take_append_drop .., rfl, rfl⟩
    rw [writeTail_succ, htaken, hrest, List.length_append]
    have hpush : (q.taking taken).push = q.push + taken.length := rfl
    split
    · exact ⟨rfl, rfl, rfl, rfl, Nat.le_refl _, congrArg _ List.length_append⟩
    split
    · obtain ⟨hrel, hread, hpush', htoll, hcap⟩ := tailFull_cursors s home hi (q.taking taken)
      obtain ⟨hrel', hread', htoll', hcap', hle, hsum⟩ :=
        ih (tailFull s home hi (q.taking taken)).1 (tailFull s home hi (q.taking taken)).2 rest
      rw [hpush', hpush] at hle hsum
      exact ⟨hrel'.trans hrel, hread'.trans hread, htoll'.trans htoll, hcap'.trans hcap, by omega, by omega⟩
    · exact ⟨rfl, rfl, rfl, rfl, Nat.le_add_right .., Nat.add_assoc ..⟩

/-- Tokens that fit keep the cursors in order as the tail window takes some of them. -/
theorem writeTail_ordered (s : State) (home fuel : Nat) (hi : BitVec 40) (q : Queue) (l : List Token)
    (h : CursorsOrdered { q with push := q.push + l.length }) (hread : q.read ≤ q.push) :
    CursorsOrdered (writeTail home hi fuel s q l).2.1 := by
  obtain ⟨hrel, _, hcap⟩ := h
  obtain ⟨e1, e2, e3, e4, hle, hsum⟩ := writeTail_cursors home hi fuel s q l
  dsimp only at hrel hcap
  exact ⟨by omega, by omega, by omega⟩

/-- A write to a table adds at most one key. -/
theorem length_tput {α : Type} (t : Table α) (k : Nat) (v : α) : (tput t k v).length ≤ t.length + 1 := by
  induction t with
  | nil => exact Nat.le_refl _
  | cons p t ih =>
    unfold tput
    split
    · exact Nat.le_refl _
    split
    · exact Nat.le_succ _
    · exact Nat.succ_le_succ ih

/-- An index is taken from a keeper, and leaves the stations as they are. -/
theorem takeIndex_stations {s t : State} {home i : Nat} (h : takeIndex s home = some (i, t)) : t.stations = s.stations := by
  obtain ⟨n, _, hn⟩ := List.exists_of_findSome?_eq_some h
  split at hn
  · cases hn; rfl
  · cases hn

/-- A new object has found an entry free at its home. -/
theorem newObj_fits {s t : State} {home fn cls : Nat} {b : Body} {o : Obj} (h : newObj s home fn cls b = some (o, t)) :
    (station t home).objects.length ≤ 512 := by
  unfold newObj at h
  split at h
  · cases h
  next hfree =>
    split at h
    next i u hi =>
      cases h
      have hroom : (station s home).objects.length < 512 := by
        simp only [entryFree, Bool.not_eq_true, Bool.not_eq_false', Bool.and_eq_true, decide_eq_true_eq] at hfree
        exact hfree.1
      have hsame : station u home = station s home := by rw [station, takeIndex_stations hi, station]
      rw [setObj, station_onStation_same, hsame]
      exact Nat.le_trans (length_tput ..) hroom
    · cases h

/-- A wait joins an eddy that is there, or forms one where there is room. -/
theorem joinEddies_fits {es fs : List Eddy} {most ref r : Nat} {acquire : Bool} {n : Word} {m : Nat × Nat}
    (h : joinEddies es most ref acquire n m = some (fs, r)) (hes : es.length ≤ most) : fs.length ≤ most := by
  unfold joinEddies at h
  split at h
  · cases h
    rwa [List.length_map]
  · split at h
    next hroom =>
      cases h
      rw [List.length_append]
      exact hroom
    · cases h

/-- The first caravan of a unit of the op queue has a place in the retransmit buffer. -/
theorem opReady_room {l : Link} (h : l.opReady = true) : l.held.length < 256 := by
  unfold Link.opReady at h
  split at h
  · simp only [Bool.and_eq_true, decide_eq_true_eq] at h
    omega
  · cases h

/-- And one of the weir queue. -/
theorem weirReady_room {l : Link} (h : l.weirReady = true) : l.held.length < 256 := by
  unfold Link.weirReady at h
  split at h
  · simp only [Bool.and_eq_true, decide_eq_true_eq] at h
    omega
  · cases h

/-- A port sends nothing, a caravan again, or one of a queue, which has found a place in the retransmit buffer if it takes one. -/
theorem turn_cases (l : Link) :
    l.turn = .idle ∨ (∃ r, l.turn = .again r) ∨
    (∃ c rest, l.turn = .control c rest ∧ (numbered (headKind c.1) = true → l.held.length < 256)) ∨
    ∃ weir, l.turn = .unit weir ∧ l.held.length < 256 := by
  have hagain : l.againTurn = .idle ∨ ∃ r, l.againTurn = .again r := by
    unfold Link.againTurn
    split
    · split
      · exact .inr ⟨_, rfl⟩
      · exact .inl rfl
    · exact .inl rfl
  unfold Link.turn
  split
  · exact .inl rfl
  split
  · exact hagain.imp_right .inl
  split
  · split
    next hop => exact .inr (.inr (.inr ⟨false, rfl, opReady_room hop⟩))
    next => exact .inl rfl
  split
  next c rest _ =>
    split
    next hroom =>
      refine .inr (.inr (.inl ⟨c, rest, rfl, fun hn => ?_⟩))
      simp only [hn, Bool.not_true, Bool.false_or, Bool.and_eq_true, decide_eq_true_eq] at hroom
      exact hroom.2.2
    next => exact hagain.imp_right .inl
  next =>
    split
    · exact hagain.imp_right .inl
    split
    next hweir => exact .inr (.inr (.inr ⟨true, rfl, weirReady_room hweir⟩))
    next =>
      split
      next hop => exact .inr (.inr (.inr ⟨false, rfl, opReady_room hop⟩))
      next => exact .inl rfl

/-- A numbered control caravan has found a place in the retransmit buffer. -/
theorem turn_control_room {l : Link} {c : Flit × List Flit} {rest : List (Flit × List Flit)} (h : l.turn = .control c rest)
    (hn : numbered (headKind c.1) = true) : l.held.length < 256 := by
  obtain hidle | ⟨r, hagain⟩ | ⟨c', rest', hcontrol, hroom⟩ | ⟨weir, hunit, _⟩ := turn_cases l
  · cases h.symm.trans hidle
  · cases h.symm.trans hagain
  · cases h.symm.trans hcontrol
    exact hroom hn
  · cases h.symm.trans hunit

/-- So has a unit. -/
theorem turn_unit_room {l : Link} {weir : Bool} (h : l.turn = .unit weir) : l.held.length < 256 := by
  obtain hidle | ⟨r, hagain⟩ | ⟨c, rest, hcontrol, _⟩ | ⟨weir', _, hroom⟩ := turn_cases l
  · cases h.symm.trans hidle
  · cases h.symm.trans hagain
  · cases h.symm.trans hcontrol
  · exact hroom

/-- Settles O57: a step ends closed, and each operation tests for room or moves a cursor within what it may take. -/
theorem stepsKeepInvariant : Obligations.StepsKeepInvariant := by
  unfold Obligations.StepsKeepInvariant
  refine ⟨fun s t => step_inv, give_ordered, fun s home fuel hi q l h hread => ⟨writeTail_ordered s home fuel hi q l h hread, ?sum⟩,
    fun s t home fn cls b o => newObj_fits, fun es fs most ref r acquire n m => joinEddies_fits, fun s n f k h => ?records,
    fun l c rest => turn_control_room, fun l weir => turn_unit_room⟩
  case sum =>
    obtain ⟨_, _, _, _, _, hsum⟩ := writeTail_cursors home hi fuel s q l
    exact hsum
  case records =>
    simp only [recordsFree, Bool.and_eq_true, decide_eq_true_eq] at h
    exact h.2

end Sys2Proof.Machine
end

/-!
PROOFS of caravans and links (chapter 13): what a link port sends and takes, and its states.
-/

section
namespace Sys2Proof.Machine

/-! ## What a port sends next (R423 to R429) -/

section Turn

variable {l : Link}

section NothingHeld

variable (h : NothingHeld l)
include h

/-- With nothing to send again, a control caravan goes first. -/
theorem turn_control {c : Flit × List Flit} {rest : List (Flit × List Flit)} (hc : l.control = c :: rest)
    (hflits : l.flitsOk c = true) (hroom : l.held.length < 256) : l.turn = .control c rest := by
  obtain ⟨hup, hresend, hmid⟩ := h
  simp [Link.turn, Link.resendsPayload, hup, hresend, hmid, hc, hflits, hroom]

/-- Then a caravan of the weir queue. -/
theorem turn_weir (hc : l.control = []) (hw : l.weirReady = true) : l.turn = .unit true := by
  obtain ⟨hup, hresend, hmid⟩ := h
  simp [Link.turn, Link.resendsPayload, hup, hresend, hmid, hc, hw]

/-- And then one of the op queue. -/
theorem turn_op (hc : l.control = []) (hw : l.weirReady = false) (ho : l.opReady = true) : l.turn = .unit false := by
  obtain ⟨hup, hresend, hmid⟩ := h
  simp [Link.turn, Link.resendsPayload, hup, hresend, hmid, hc, hw, ho]

end NothingHeld

variable {seq : Nat} {c : Flit × List Flit} {rest : List (Nat × Flit × List Flit)} (hup : l.state = .up)
  (hr : l.resend = (seq, c.1, c.2) :: rest) (hflits : l.flitsOk c = true)
include hup hr hflits

/-- A held caravan goes again before a new one of the queues. -/
theorem turn_again (hmid : l.midUnit = none) (hc : l.control = []) (hk : headKind c.1 ≠ 0x21) :
    l.turn = .again (seq, c.1, c.2) := by
  simp [Link.turn, Link.resendsPayload, Link.againTurn, hup, hr, hmid, hc, hk, hflits]

/-- The OP_PAYLOAD of an OP that has just been sent goes again before all else. -/
theorem turn_payload (ho : l.unitOpen = true) (hk : headKind c.1 = 0x21) : l.turn = .again (seq, c.1, c.2) := by
  simp [Link.turn, Link.resendsPayload, Link.againTurn, hup, hr, ho, hk, hflits]

end Turn

section Send

variable {s : State} {p : Nat}

/-- A control caravan takes no budget. -/
theorem sendNext_control {c : Flit × List Flit} {rest : List (Flit × List Flit)} (h : (linkAt s p).turn = .control c rest) :
    sendNext s p = sendControl s p c rest := by
  simp only [sendNext, h, Turn.budgeted, Bool.false_and, Bool.false_eq_true, if_false]

/-- A unit is sent within the budget. -/
theorem sendNext_unit {weir : Bool} (h : (linkAt s p).turn = .unit weir) (hb : budgetOk s p = true) :
    sendNext s p = sendUnit s p weir := by
  simp only [sendNext, h, hb, Bool.not_true, Bool.and_false, Bool.false_eq_true, if_false]

/-- A caravan of the control class is sent again without the budget, another within it. -/
theorem sendNext_again {seq : Nat} {c : Flit × List Flit} (h : (linkAt s p).turn = .again (seq, c.1, c.2))
    (hb : kindClass (headKind c.1) = some .control ∨ budgetOk s p = true) : sendNext s p = sendAgain s p seq c := by
  have hgoes : ((Turn.again (seq, c.1, c.2)).budgeted && !budgetOk s p) = false := by
    rcases hb with hb | hb <;> simp [Turn.budgeted, hb]
  simp only [sendNext, h, hgoes, Bool.false_eq_true, if_false]

/-- What only the budget holds back waits one fc. -/
theorem sendNext_waits (h : (linkAt s p).turn.budgeted = true) (hb : budgetOk s p = false) : sendNext s p = passFc s 1 := by
  simp only [sendNext, h, hb, Bool.not_false, Bool.and_self, if_true]

/-- CARAVAN_SEND at a port with its clock. -/
theorem exec_caravanSend {u : State} (hp : portsLive s = true) (h : sendNext s p = u) :
    exec (.caravanSend p) s = .next (settled u) := congrArg conclude ((if_pos hp).trans h)

end Send

/-! ## Acknowledgements and timers (R425, R447) -/

/-- An ACK that is due is sent at once where it has transmit credit and no OP waits for its payload. -/
theorem ackNow_sends {s t : State} {p : Nat} (hup : (linkAt s p).state = .up) (hdue : (linkAt s p).ackDue = true)
    (ho : (linkAt s p).unitOpen = false) (ht : t = passToFc s (linkAt s p).ackBy)
    (hflits : (linkAt s p).flitsOk (mkCaravan t 0x00 (linkAt s p).peer 0 0 0 0 []) = true) :
    ackNow s p = present t p
      (stampHead (mkCaravan t 0x00 (linkAt s p).peer 0 0 0 0 []).1 0 (linkAt s p).ack) [] := by
  subst ht
  simp only [ackNow, hup, hdue, and_self, if_true, hflits, ho, Bool.not_false, Bool.and_self]

/-- What is held is sent again once its time has passed. -/
theorem retransmit_held {s t : State} {p : Nat} (hup : (linkAt s p).state = .up) (hheld : (linkAt s p).held ≠ [])
    (ht : t = passToFc s (linkAt s p).retxDue) :
    retransmit s p = setLink t p { linkAt s p with
      resend := (linkAt s p).held, retxDue := t.clock.fc + setting t 0x2D0402 } := by
  subst ht
  exact if_pos ⟨hup, hheld⟩

/-! ## States of a port (R447 to R449, R540) -/

section States

variable {s : State} {p : Nat} {l : Link}

/-- An event of a port while the engine has power. -/
theorem powered_on {f : State → State} (h : s.power.phase ≠ 1) : powered s f = f s := if_neg h

variable (hl : l = linkAt s p)
include hl

section Rises

variable (hr : l.ready = false) (ho : linkOut s p = false)
include hr ho

/-- A port that was LOST starts anew. -/
theorem linkRises_lost (h : l.state = .lost) : linkRises s p = linkRestored (setLink s p { l with ready := true }) p := by
  subst hl
  simp only [linkRises, hr, ho, h, Bool.false_eq_true, if_false]

/-- A port that has been UP sends again what it holds. -/
theorem linkRises_again (h : l.state = .down) (hu : l.everUp = true) :
    linkRises s p = setLink s p { l.timed s with ready := true, state := .up, resend := l.held } := by
  subst hl
  simp only [linkRises, hr, ho, h, hu, Bool.false_eq_true, if_false, if_true]

/-- One that has not starts with all its credits. -/
theorem linkRises_first (h : l.state = .down) (hu : l.everUp = false) :
    linkRises s p = setLink s p { l.fresh.timed s with ready := true } := by
  subst hl
  simp only [linkRises, hr, ho, h, hu, Bool.false_eq_true, if_false]

end Rises

/-- A port that was UP keeps what it holds. -/
theorem linkFalls_up (h : l.state = .up) :
    linkFalls s p = setLink s p { l.timed s with ready := false, flitCredit := 0, state := .down, unitOpen := false } := by
  subst hl
  simp only [linkFalls, h]

/-- A link that stays down is lost. -/
theorem linkTimesOut_down (h : l.state = .down) (hr : l.ready = false) :
    linkTimesOut s p = linkLost (passToAc s l.lossDue) p := by
  subst hl
  simp only [linkTimesOut, h, hr, Bool.false_and, Bool.false_eq_true, if_false]

/-- A link that holds a caravan unacknowledged is lost; its ready controller brings it UP again. -/
theorem linkTimesOut_held (h : l.state = .up) (hheld : l.held ≠ []) :
    linkTimesOut s p = linkRestored (linkLost (passToAc s l.lossDue) p) p := by
  subst hl
  simp only [linkTimesOut, h, List.isEmpty_iff, hheld, if_false]

end States

/-- Settles O45, by what the port may send, by the control caravan that it takes, and by the state that it is in. -/
theorem linkPorts : Obligations.LinkPorts := by
  unfold Obligations.LinkPorts
  refine ⟨?sends, ?again, ?payload, ?control, ?timers, ?states⟩
  case sends =>
    rintro s p l hp rfl h
    refine ⟨fun c rest hc hflits hroom => ?_, fun hc hw hb => ?_, fun hc hw ho hb => ?_, fun hc hready hb => ?_⟩
    · exact exec_caravanSend hp (sendNext_control (turn_control h hc hflits hroom))
    · exact exec_caravanSend hp (sendNext_unit (turn_weir h hc hw) hb)
    · exact exec_caravanSend hp (sendNext_unit (turn_op h hc hw ho) hb)
    · refine exec_caravanSend hp (sendNext_waits ?_ hb)
      cases hw : (linkAt s p).weirReady with
      | true => rw [turn_weir h hc hw]; rfl
      | false => rw [turn_op h hc hw (hready.resolve_left (by simp [hw]))]; rfl
  case again =>
    rintro s p seq l c rest hp rfl hup hmid hc hr hk hflits
    have hturn := turn_again hup hr hflits hmid hc hk
    refine ⟨fun hb => exec_caravanSend hp (sendNext_again hturn hb), fun hclass hb => exec_caravanSend hp (sendNext_waits ?_ hb)⟩
    rw [hturn]
    exact bne_iff_ne.2 hclass
  case payload =>
    rintro s p seq l c rest hp rfl hup ho hr hk hflits hb
    exact exec_caravanSend hp (sendNext_again (turn_payload hup hr hflits ho hk) (.inr hb))
  case control =>
    intro s c
    refine ⟨fun h => ?_, fun h => ?_, fun h hup => ?_⟩
    · exact congrArg conclude (caravanPresented_control c 0x00 s _ h rfl)
    · exact congrArg conclude (caravanPresented_control c 0x01 s _ h rfl)
    · exact congrArg conclude ((caravanPresented_control c 0x02 s _ h rfl).trans (if_pos hup))
  case timers =>
    rintro s p l hp rfl hup
    refine ⟨fun t ht hdue ho hflits => ?_, fun t ht hheld => ?_⟩
    · exact congrArg conclude ((if_pos hp).trans (ackNow_sends hup hdue ho ht hflits))
    · exact congrArg conclude ((if_pos hp).trans (retransmit_held hup hheld ht))
  case states =>
    intro s p l hpower hl
    refine ⟨fun hr ho h => ?_, fun hr ho h hu => ?_, fun hr ho h hu => ?_, fun h => ?_, fun h hr => ?_, fun h hheld => ?_⟩
    · exact congrArg conclude ((powered_on hpower).trans (linkRises_lost hl hr ho h))
    · exact congrArg conclude ((powered_on hpower).trans (linkRises_again hl hr ho h hu))
    · exact congrArg conclude ((powered_on hpower).trans (linkRises_first hl hr ho h hu))
    · exact congrArg conclude ((powered_on hpower).trans (linkFalls_up hl h))
    · exact congrArg conclude ((powered_on hpower).trans (linkTimesOut_down hl h hr))
    · exact congrArg conclude ((powered_on hpower).trans (linkTimesOut_held hl h hheld))

/-! ## The course leg (R422) -/

/-- A caravan of this chip's own waits at the port of its route, which is at the station that it has reached. -/
theorem caravanLeaves_waits {s : State} {n p : Nat} {isSeal : Bool} {x : Flit × List Flit} {more : List (Flit × List Flit)}
    (hp : originPort s (headDest x.1) = some p) (ha : linkAttach s p = n)
    (hs : (linkAt s p).state = .up ∨ (linkAt s p).state = .down) :
    caravanLeaves s n isSeal (x :: more) = enqueueUnit s p ⟨x :: more, isSeal, none⟩ := by
  subst ha
  rcases hs with hs | hs <;> simp only [caravanLeaves, List.headD_cons, hp, ne_eq, not_true_eq_false, if_false, hs]

section Crosses

variable {s t : State} {src dst kind : Nat}

/-- A caravan of a kind that is on its way out reaches the attach station of its port. -/
theorem caravanCrosses_out {p : Nat} {isSeal : Bool} {x : Flit × List Flit} {more : List (Flit × List Flit)} {rest : List Msg}
    (h : TakesMsg s src dst (.caravan true isSeal (x :: more)) rest) (ht : t = taken s dst rest) (hk : headKind x.1 = kind)
    (hp : originPort t (headDest x.1) = some p) (ha : linkAttach t p = dst)
    (hs : (linkAt t p).state = .up ∨ (linkAt t p).state = .down) :
    caravanCrosses s src dst kind = .next (settled (enqueueUnit t p ⟨x :: more, isSeal, none⟩)) := by
  subst ht
  exact arrives_takes s src dst _ rest _ _ 0 rfl h ((if_pos hk).trans (congrArg some (caravanLeaves_waits hp ha hs)))

/-- A caravan of a kind that reaches the home of its object acts there. -/
theorem caravanCrosses_home {h : Flit} {bodies : List Flit} (hr : ReachesHome src dst kind h bodies s t) :
    caravanCrosses s src dst kind = .next (settled (caravanActs t dst h bodies)) := by
  obtain ⟨isSeal, rest, hm, ht, hk, ⟨hhome, hleaving, hcoming⟩, _⟩ := hr
  subst ht
  have hat : caravanAt (taken s dst rest) dst false isSeal [(h, bodies)] = caravanActs (taken s dst rest) dst h bodies := by
    unfold caravanName at hhome hleaving hcoming
    simp only [caravanAt, List.headD_cons, atObject, hhome, hleaving, hcoming, ne_eq, not_true_eq_false, Bool.or_self,
      Bool.false_eq_true, if_false]
  exact arrives_takes s src dst _ rest _ _ 0 rfl hm ((if_pos hk).trans (congrArg some hat))

/-- One that a link brings crosses the course from the attach station of its port. -/
theorem carriedInward_link {c : CaravanIn} (h : ServedHere c kind s t) (hk : kindClass kind = some .weir ∨ kindClass kind = some .op) :
    carriedInward (.link c) kind s = .next (settled (send t (linkAttach t c.port)
      (homeOf t (linkAttach t c.port) (caravanIndex t c.head)) (.caravan false false [(c.head, c.bodies)]))) :=
  congrArg conclude (caravanPresented_served c kind s t _ h hk)

end Crosses

section Kinds

variable {s : State} {n : Nat} {h : Flit} {bodies : List Flit} (hf : (fnOf s (headFn h)).state = .enabled)
include hf

/-- BIND_REPLY acts at the home of the child's weir. -/
theorem caravanActs_bindReply (hk : headKind h = 0x11) : caravanActs s n h bodies = bindReplyArrives s n h := by
  simp only [caravanActs, hf, hk, ne_eq, not_true_eq_false, if_false]

/-- WEIR_UP acts at the home of the parent's weir. -/
theorem caravanActs_weirUp (hk : headKind h = 0x12) : caravanActs s n h bodies = upArrives s n h bodies := by
  simp only [caravanActs, hf, hk, ne_eq, not_true_eq_false, if_false]

/-- WEIR_DOWN acts at the home of the child's weir. -/
theorem caravanActs_weirDown (hk : headKind h = 0x13) : caravanActs s n h bodies = downArrives s n h bodies := by
  simp only [caravanActs, hf, hk, ne_eq, not_true_eq_false, if_false]

/-- REPLY acts at the home of its bridge's queue. -/
theorem caravanActs_reply (hk : headKind h = 0x22) : caravanActs s n h bodies = replyArrives s h bodies := by
  simp only [caravanActs, hf, hk, ne_eq, not_true_eq_false, if_false]

/-- So does TOKEN_ACK. -/
theorem caravanActs_tokenAck (hk : headKind h = 0x24) : caravanActs s n h bodies = tokenAckArrives s h := by
  simp only [caravanActs, hf, hk, ne_eq, not_true_eq_false, if_false]

end Kinds

/-! ## System weirs (R433 to R437) -/

section Bind

variable {s : State} {n : Nat} {h : Flit}

/-- BIND for a weir that is not there is answered NOTYET. -/
theorem bindArrives_notYet (hw : weirOfNum s (headFn h) (headField h 57 42) = none) :
    bindArrives s n h = (sendBindReply s n (headSrc h) (headFn h) 1 0 (headField h 41 18)).1 := by
  simp only [bindArrives, hw]

/-- BIND of a child that its weir has room for lists the child, and answers BOUND. -/
theorem bindArrives_taken {home : Nat} {o : Obj} {w : Weir} {u : State}
    (hw : weirOfNum s (headFn h) (headField h 57 42) = some (home, o, w))
    (hnew : (w.record.children.any fun x => x.1 == headSrc h) = false) (hroom : w.record.children.length < w.params.remote)
    (hu : u = setObj (atStep s) home (hiIndex o.hi) { o with body := .weir { w with sys := some { w.record with
      children := w.record.children ++ [(headSrc h, BitVec.ofNat 24 (headField h 41 18))] } } })
    (hok : (sendBindReply u home (headSrc h) (hiFn o.hi) 0 (refOf o.hi) (headField h 41 18)).2 = true) :
    bindArrives s n h = homeStep s home o.hi fun _ =>
      (sendBindReply u home (headSrc h) (hiFn o.hi) 0 (refOf o.hi) (headField h 41 18)).1 := by
  subst hu
  simp only [bindArrives, hw, hnew, hroom, Bool.false_eq_true, if_false, if_true]
  rw [homeStep_eq]
  simp only [answersBound, hok, Bool.true_or, if_true]

end Bind

section Weir

variable {s : State} {n : Nat} {h : Flit} {bodies : List Flit} {o : Obj} {w : Weir}

section Reply

variable (hw : weirOfRef s n (headFn h) (headField h 31 8) = some (o, w)) (hb : w.record.bind = 0) (hs : w.state = 1)
include hw hb hs

/-- BOUND binds the child's weir, which sends what waited. -/
theorem bindReplyArrives_bound (hf : headField h 57 56 = 0) :
    bindReplyArrives s n h = homeStep (setObj s n (hiIndex o.hi)
        { o with body := .weir { w with sys := some { w.record with
          bind := 1, parentRef := BitVec.ofNat 24 (headField h 55 32), retryAt := none } } }) n o.hi
      fun u => boundSends u n (hiIndex o.hi) := by
  simp only [bindReplyArrives, hw, hb, hs, hf, ne_eq, not_true_eq_false, or_self, if_false]

/-- NOTYET makes it wait until it asks again. -/
theorem bindReplyArrives_notYet (hf : headField h 57 56 = 1) :
    bindReplyArrives s n h = setObj s n (hiIndex o.hi)
        { o with body := .weir { w with sys := some { w.record with
          retryAt := some ((s.now + setting s 0x2D0403) % 2 ^ 32) } } } := by
  simp only [bindReplyArrives, hw, hb, hs, hf, ne_eq, not_true_eq_false, or_self, if_false]

end Reply

/-- A weir that still waits to be bound asks again, once its time has come. -/
theorem bindAgain_due {index due : Nat} {w' : Weir} (hw : weirAt s n index = some (o, w)) (hd : w.record.retryAt = some due)
    (hb : w.record.bind = 0) (hs : w.state = 1) (hahead : (due + 2 ^ 32 - s.now % 2 ^ 32) % 2 ^ 32 < 2 ^ 31)
    (hw' : w' = { w with sys := some { w.record with retryAt := none } }) :
    bindAgain s n index = homeStep (setObj (passAc s ((due + 2 ^ 32 - s.now % 2 ^ 32) % 2 ^ 32)) n
      index { o with body := .weir w' }) n o.hi fun u => sendBind u n { o with body := .weir w' } w' := by
  subst hw'
  simp only [bindAgain, hw, hd, hb, hs, and_self, if_true, hahead]

/-- A report of a listed child chip is counted at the home's node, where the weir is not broken. -/
theorem upArrives_report {x : Node} (hw : weirOfRef s n (headFn h) (headField h 57 34) = some (o, w))
    (hc : (w.record.children.any fun y => y.1 == headSrc h) = true)
    (hx : nodeAt (atStep s) n (hiIndex o.hi) = some x) (hbroken : x.broken = false) (hf : headField h 32 31 = 0) :
    upArrives s n h bodies = homeStep s n o.hi fun _ => homeChecks 4 (putNode (atStep s) n
      (hiIndex o.hi) (countReport x (1000 + headSrc h) (bit h 33) (headField h 30 25) (headField h 24 19)
        (if bodies.isEmpty then none else some (flitsPayload bodies)) true)) n (hiIndex o.hi) := by
  simp only [upArrives, hw, hc, Bool.not_true, Bool.false_eq_true, if_false]
  rw [homeStep_eq]
  simp only [hf, hx, hbroken, Bool.false_eq_true, if_false]

section Down

variable (hw : weirOfRef s n (headFn h) (headField h 57 34) = some (o, w)) (hr : w.isRoot = false) (hs : w.state = 1)
include hw hr hs

/-- A completion from the parent chip is held at the child's home, which completes what it can. -/
theorem downArrives_completes (hf : headField h 32 31 = 0) :
    downArrives s n h bodies = homeStep (setObj s n (hiIndex o.hi)
        { o with body := .weir { w with heldDown := w.heldDown ++
          [if bodies.isEmpty then 0 else flitsPayload bodies] } }) n o.hi
      fun u => homeChecks 4 u n (hiIndex o.hi) := by
  simp only [downArrives, hw, hr, hs, hf, bne_self_eq_false, Bool.or_self, Bool.false_eq_true, if_false, if_true]

/-- A loss makes the child's weir fail as lost. -/
theorem downArrives_lost (hf : headField h 32 31 = 2) :
    downArrives s n h bodies = homeStep s n o.hi fun u => weirFails u n o w true := by
  have hne : ¬ (2 : Nat) = 0 := by omega
  simp only [downArrives, hw, hr, hs, hf, hne, bne_self_eq_false, Bool.or_self, Bool.false_eq_true, if_false,
    beq_self_eq_true]

end Down

end Weir

/-- Settles O46, by the kind of the caravan and by whether a link or the course brings it. -/
theorem systemWeirs_holds : Obligations.SystemWeirs := by
  unfold Obligations.SystemWeirs
  refine ⟨?bind, ?inward, ?outward, ?bindReply, ?retry, ?up, ?down⟩
  case bind =>
    rintro s t c _ h rfl
    refine ⟨fun hw => ?_, fun home o w u hw hnew hroom hu hok => ?_⟩
    · exact congrArg conclude ((caravanPresented_served c 0x10 s t _ h (.inl rfl)).trans (bindArrives_notYet hw))
    · exact congrArg conclude ((caravanPresented_served c 0x10 s t _ h (.inl rfl)).trans (bindArrives_taken hw hnew hroom hu hok))
  case inward =>
    rintro s t c _ _ rfl rfl
    exact ⟨fun h => carriedInward_link h (.inl rfl), fun h => carriedInward_link h (.inl rfl),
      fun h => carriedInward_link h (.inl rfl)⟩
  case outward =>
    intro s t src dst p isSeal x more rest h ht hp ha hs
    exact ⟨fun hk => caravanCrosses_out h ht hk hp ha hs, fun hk => caravanCrosses_out h ht hk hp ha hs,
      fun hk => caravanCrosses_out h ht hk hp ha hs, fun hk => caravanCrosses_out h ht hk hp ha hs⟩
  case bindReply =>
    intro s t src dst h bodies o w hr hw hb hs
    have ⟨_, _, _, _, hk, _, hf⟩ := hr
    have hacts : exec (.bindReply (.course src dst)) s = .next (settled (bindReplyArrives t dst h)) :=
      (caravanCrosses_home hr).trans (congrArg conclude (caravanActs_bindReply hf hk))
    rw [hacts]
    exact ⟨fun hbound => congrArg conclude (bindReplyArrives_bound hw hb hs hbound),
      fun hnot => congrArg conclude (bindReplyArrives_notYet hw hb hs hnot)⟩
  case retry =>
    rintro s _ n index due o w w' hn hwaits rfl hw hd hb hs hahead hw'
    exact congrArg conclude ((deadlineAt_due _ hwaits hn).trans (bindAgain_due hw hd hb hs hahead hw'))
  case up =>
    intro s t src dst h bodies o w x hr hw hc hx hbroken hf0
    have ⟨_, _, _, _, hk, _, hf⟩ := hr
    exact (caravanCrosses_home hr).trans (congrArg conclude
      ((caravanActs_weirUp hf hk).trans (upArrives_report hw hc hx hbroken hf0)))
  case down =>
    intro s t src dst h bodies o w hr hw hroot hs
    have ⟨_, _, _, _, hk, _, hf⟩ := hr
    have hacts : exec (.weirDown (.course src dst)) s = .next (settled (downArrives t dst h bodies)) :=
      (caravanCrosses_home hr).trans (congrArg conclude (caravanActs_weirDown hf hk))
    rw [hacts]
    exact ⟨fun h0 => congrArg conclude (downArrives_completes hw hroot hs h0),
      fun h2 => congrArg conclude (downArrives_lost hw hroot hs h2)⟩

end Sys2Proof.Machine
end

/-!
PROOFS of bridges and of operations that come over links (chapter 13).
-/

section
namespace Sys2Proof.Machine

/-! ## Operations that a link brings (R422, R426, R444, R445) -/

/-- A port presents a caravan that it accepts. -/
theorem operationPart_comes {s : State} {c : CaravanIn} {kind : Nat} (h : ComesIn c kind s) :
    operationPart s c = opPresented (caravanCounted s c) c := by
  obtain ⟨hports, hup, _⟩ := h
  simp [operationPart, hports, hup]

section Part

variable {s : State} {c : CaravanIn}

/-- An OP without a payload goes on at once. -/
theorem operationPart_whole (h : ComesIn c 0x20 s) (hb : bit c.head 49 = false)
    (hp : (linkAt (cameIn s c) c.port).opPart = none) :
    operationPart s c = opUnit (cameIn s c) c.port c.head c.bodies none := by
  have ⟨_, _, hk, hup, haccept⟩ := h
  unfold cameIn at hp ⊢
  simp [operationPart_comes h, opPresented, hup, haccept, hk, dropPart, hp, hb]

/-- One that announces a payload waits for it. -/
theorem operationPart_waits (h : ComesIn c 0x20 s) (hb : bit c.head 49 = true)
    (hp : (linkAt (cameIn s c) c.port).opPart = none) :
    operationPart s c = onLink (cameIn s c) c.port fun l => { l with opPart := some (c.head, c.bodies) } := by
  have ⟨_, _, hk, hup, haccept⟩ := h
  unfold cameIn at hp ⊢
  simp [operationPart_comes h, opPresented, hup, haccept, hk, dropPart, hp, hb]

/-- The OP_PAYLOAD completes the OP that waits. -/
theorem operationPart_completes {o : Flit × List Flit} (h : ComesIn c 0x21 s)
    (hp : (linkAt (cameIn s c) c.port).opPart = some o) :
    operationPart s c = opUnit (onLink (cameIn s c) c.port fun l => { l with opPart := none }) c.port o.1 o.2
      (some (c.head, c.bodies)) := by
  have ⟨_, _, hk, hup, haccept⟩ := h
  unfold cameIn at hp ⊢
  simp [operationPart_comes h, opPresented, hup, haccept, hk, hp]

/-- A caravan of one of the two kinds comes without another after it. -/
theorem operationPresented_alone (h : headKind c.head = 0x20 ∨ headKind c.head = 0x21) :
    operationPresented s c none = operationPart s c := by
  rcases h with h | h <;> simp only [operationPresented, h]

/-- An OP that announces a payload comes with it. -/
theorem operationPresented_pair {d : CaravanIn} (h : headKind c.head = 0x20) (hb : bit c.head 49 = true)
    (hd : headKind d.head = 0x21) (hport : d.port = c.port) :
    operationPresented s c (some d) = operationPart (operationPart s c) d := by
  have hsame : { d with port := c.port } = d := hport ▸ rfl
  simp only [operationPresented, h, hb, hd, hsame, beq_self_eq_true, Bool.and_self, if_true]

end Part

/-- An operation that is for this chip and an ENABLED function leaves its port's buffer. -/
theorem opUnit_here {s t : State} {p : Nat} {h : Flit} {bodies : List Flit} {payload : Option (Flit × List Flit)}
    (hr : arrivalRoute s p h = .here) (ht : t = returnUnit s p ⟨(h, bodies) :: payload.toList, false, none⟩)
    (hf : (fnOf t (headFn h)).state = .enabled) :
    opUnit s p h bodies payload = serveOp t p h bodies (payload.map (·.2)) := by
  subst ht
  have hf : (fnOf s (headFn h)).state = .enabled := by
    rw [← hf]
    simp only [fnOf, returnUnit_fns]
  simp only [opUnit, routeUnit, hr, serveHere, hf, if_true]

/-- A link's operation that meets its checks goes on with its answer's way noted. -/
theorem admitLink_ready {s : State} {op : Opcode} {r : OpRec} (via : ReplyTo) (h : LinkReadyOp s op r) :
    admitLink s op r via = proceed (takeBucket s r.station r.fnStamp.toNat) { admOf op r with via := via } := by
  obtain ⟨hcheck, hbucket, hturn⟩ := h
  have hturn : waitsTurn s { admOf op r with via := via } false = false := hturn
  have hbucket : 256 ≤ bucketNow s (admOf op r).n (admOf op r).fn := hbucket
  simp only [admitLink, hcheck, admitShare, hbucket, hturn, if_true, Bool.false_eq_true, if_false]
  rfl

/-- A served operation goes on at its port's attach station. -/
theorem serveOp_ready {t : State} {c : CaravanIn} {op : Opcode} (payload : Option (List Flit))
    (hop : Opcode.ofCode (headField c.head 57 50) = some op)
    (hr : LinkReadyOp (wakeStation t (linkAttach t c.port)) op (linkOpOf t c (payload.map flitsPayload))) :
    serveOp t c.port c.head c.bodies payload = opServed t c op (payload.map flitsPayload) := by
  have hfn : (linkOpOf t c (payload.map flitsPayload)).fnStamp.toNat = headFn c.head :=
    Nat.mod_eq_of_lt (Nat.mod_lt _ (Nat.two_pow_pos _))
  have hadmit := admitLink_ready (.link c.port (headSrc c.head) (headFn c.head) (BitVec.ofNat 16 (headField c.head 48 33))
    (headField c.head 32 27)) hr
  rw [hfn] at hadmit
  simp only [serveOp, hop]
  exact hadmit

/-- So does the Q_TOLL of a TOKENS caravan. -/
theorem serveTokens_ready {t : State} {c : CaravanIn}
    (hr : LinkReadyOp (wakeStation t (linkAttach t c.port)) .qToll (linkTollOf t c)) :
    serveTokens t c.port c.head c.bodies = proceed
      (takeBucket (wakeStation t (linkAttach t c.port)) (linkAttach t c.port) (linkTollOf t c).fnStamp.toNat)
      { admOf .qToll (linkTollOf t c) with
        via := .tokens c.port (headSrc c.head) (headFn c.head) (headField c.head 47 42) (headField c.head 57 55)
          (BitVec.ofNat 8 (headField c.head 54 48))
          (tokensPayload c.bodies (headField c.head 57 55)) ((c.bodies.headD 0).extractLsb' 64 64)
          (headScope c.head) (headRelease c.head) 0 } := admitLink_ready _ hr

/-! ## Bridges (R441 to R445) -/

section Bridge

variable {s : State} {b : Nat}

/-- REPLY ends the operation that it names, which an op bridge answers and whose tokens it releases. -/
theorem replyArrives_ends {h : Flit} {bodies : List Flit} {i : BridgeItem} {rest : List BridgeItem}
    (hb : b = headField h 33 28) (hof : bridgeOf s b h = true)
    (hi : takeFirst (fun x : BridgeItem => x.opTag == BitVec.ofNat 16 (headField h 49 34) && x.dest == headSrc h)
      (bridgeAt s b).items = some (i, rest)) (hm : bridgeMode s b = 1) :
    replyArrives s h bodies = bridgeRelease (bridgeReply (onBridge s b fun x => { x with
      items := rest }) b (headField h 57 50) (BitVec.ofNat 16 (headField h 49 34)) ((bodies.headD 0).extractLsb' 64 64)) b
      i.tokens := by
  subst hb
  simp only [replyArrives, hof, hi, hm, Bool.not_true, Bool.false_eq_true, if_false, if_true]

section TokenAck

variable {h : Flit} {i : BridgeItem} {rest : List BridgeItem} (hb : b = headField h 46 41) (hof : bridgeOf s b h = true)
  (hm : bridgeMode s b = 2) (hi : (bridgeAt s b).items = i :: rest)
include hb hof hm hi

/-- TOKEN_ACK with OK ends the oldest caravan of a token bridge, whose tokens are released. -/
theorem tokenAckArrives_ok (hok : headField h 54 47 = 0) :
    tokenAckArrives s h = bridgeRelease (onBridge s b fun x => { x with items := rest }) b i.tokens := by
  subst hb
  simp only [tokenAckArrives, hof, hm, hi, hok, Bool.not_true, Bool.false_eq_true, ne_eq, not_true_eq_false, if_false, if_true]

/-- With any other status it stops the bridge. -/
theorem tokenAckArrives_stops (hok : headField h 54 47 ≠ 0) :
    tokenAckArrives s h = bridgeStops s b ((originPort s (bridgeChip s b)).getD 0) := by
  subst hb
  simp only [tokenAckArrives, hof, hm, hi, hok, Bool.not_true, Bool.false_eq_true, ne_eq, not_true_eq_false, if_false]

end TokenAck

/-- A bridge whose queue has tokens for it acts at the queue's home. -/
theorem bridgeActs_home {home : Nat} {o : Obj} {q : Queue} (f : State → State) (hp : portsLive s = true)
    (hh : bridgeHome s b = some (home, o, q)) (hq : q.takeTokens false 1 q.read ≠ []) (hn : takesNow s home true = true) :
    bridgeActs s b f = f (foreground s home) := by
  have hdue : (portsLive s && !(q.takeTokens false 1 q.read).isEmpty) = true := by simp [hp, hq]
  simp only [bridgeActs, hh]
  exact deadlineAt_due f hdue hn

/-- An op bridge with room in its window sends a packet that it has read whole. -/
theorem bridgeOpSends_packet {u : State} {k : Nat} {o : Obj} {q : Queue} (hm : bridgeMode s b = 1)
    (hroom : (bridgeAt s b).items.length < bridgeWindow s b) (hu : u = gatherPacket 40 s b)
    (hend : ((bridgeAt u b).partial_.getLast?.map (·.endMark)).getD false = true)
    (hq : queueOf u (bridgeQueue u b) = some (k, o, q)) :
    bridgeOpSends s b = sendPacket u k b (bridgeAt u b).partial_ := by
  subst hu
  have hgoes : ¬ (bridgeMode s b ≠ 1 ∨ bridgeWindow s b ≤ (bridgeAt s b).items.length) := by omega
  simp only [bridgeOpSends, hgoes, hq, hend, if_false, if_true]

/-- A token bridge sends the tokens that its window takes. -/
theorem bridgeTokensSends_tokens {home p : Nat} {o : Obj} {q : Queue} {toks : List Token} (hm : bridgeMode s b = 2)
    (hh : bridgeHome s b = some (home, o, q))
    (ht : toks = q.takeTokens false (min 7 (bridgeWindow s b - (bridgeAt s b).sum)) q.read) (hne : toks ≠ [])
    (hf : q.faultAt = none) (hpush : q.pushing = none) (hr : originRoute s (bridgeChip s b) = some p) :
    bridgeTokensSends s b = onBridge
      (originate (bridgePop s home o q toks) home (bridgeChip s b) [tokensCaravan s b q toks] false).1 b
      fun x => { x with items := x.items ++ [⟨0, toks.length, bridgeChip s b⟩] } := by
  subst ht
  simp only [bridgeTokensSends, hm, hh, List.isEmpty_iff, hne, hf, hpush, hr, ne_eq, not_true_eq_false, if_false,
    Option.isSome_none, Option.isNone_some, Bool.or_false, Bool.false_eq_true]

end Bridge

/-- Settles O47, by the kind of the caravan and by whether a link, the course or a bridge brings it. -/
theorem bridgesAndRemoteOps : Obligations.BridgesAndRemoteOps := by
  unfold Obligations.BridgesAndRemoteOps
  refine ⟨?op, ?part, ?payload, ?tokens, ?inward, ?outward, ?reply, ?tokenAck, ?bridges⟩
  case op =>
    intro s t c op h hb hp hr ht hf hop hready
    have ⟨_, _, hk, _⟩ := h
    refine congrArg conclude ?_
    rw [operationPresented_alone (.inl hk), operationPart_whole h hb hp, opUnit_here (payload := none) hr ht hf]
    exact serveOp_ready none hop hready
  case part =>
    intro s c h hb hp
    have ⟨_, _, hk, _⟩ := h
    exact congrArg conclude ((operationPresented_alone (.inl hk)).trans (operationPart_waits h hb hp))
  case payload =>
    rintro s v t w c d op hport hd hp rfl hr ht hf hop hready
    have ⟨_, _, hdk, _⟩ := hd
    rw [← hport] at hr ht
    have hserved : operationPart v d = opServed t c op (some (flitsPayload d.bodies)) := by
      rw [operationPart_completes hd hp, opUnit_here (payload := some (d.head, d.bodies)) hr ht hf, hport]
      exact serveOp_ready (some d.bodies) hop hready
    refine ⟨congrArg conclude ((operationPresented_alone (.inr hdk)).trans hserved), fun h hb hnone hv => ?_⟩
    have ⟨_, _, hk, _⟩ := h
    refine congrArg conclude ?_
    rw [operationPresented_pair hk hb hdk hport, operationPart_waits h hb hnone, ← hv, hserved]
  case tokens =>
    intro s t c h hready
    exact congrArg conclude ((caravanPresented_served c 0x23 s t _ h (.inr rfl)).trans (serveTokens_ready hready))
  case inward =>
    rintro s t c _ _ rfl rfl
    exact ⟨fun h => carriedInward_link h (.inr rfl), fun h => carriedInward_link h (.inr rfl)⟩
  case outward =>
    intro s t src dst p isSeal x more rest h ht hp ha hs
    exact ⟨fun hk => caravanCrosses_out h ht hk hp ha hs, fun hk => caravanCrosses_out h ht hk hp ha hs,
      fun hk => caravanCrosses_out h ht hk hp ha hs, fun hk => caravanCrosses_out h ht hk hp ha hs⟩
  case reply =>
    intro s t src dst h bodies b i rest hr hb hof hi hm
    have ⟨_, _, _, _, hk, _, hf⟩ := hr
    exact (caravanCrosses_home hr).trans (congrArg conclude ((caravanActs_reply hf hk).trans (replyArrives_ends hb hof hi hm)))
  case tokenAck =>
    intro s t src dst h bodies b i rest hr hb hof hm hi
    have ⟨_, _, _, _, hk, _, hf⟩ := hr
    have hacts : exec (.tokenAck (.course src dst)) s = .next (settled (tokenAckArrives t h)) :=
      (caravanCrosses_home hr).trans (congrArg conclude (caravanActs_tokenAck hf hk))
    rw [hacts]
    exact ⟨fun hok => congrArg conclude (tokenAckArrives_ok hb hof hm hi hok),
      fun hok => congrArg conclude (tokenAckArrives_stops hb hof hm hi hok)⟩
  case bridges =>
    rintro s _ u b home o q hp hh hq hn rfl
    refine ⟨fun k o' q' hm hroom hu hend hq' => ?_, fun p toks hm hh' ht hne hf hpush hr => ?_⟩
    · exact congrArg conclude ((bridgeActs_home _ hp hh hq hn).trans (bridgeOpSends_packet hm hroom hu hend hq'))
    · exact congrArg conclude ((bridgeActs_home _ hp hh hq hn).trans (bridgeTokensSends_tokens hm hh' ht hne hf hpush hr))

end Sys2Proof.Machine
end

/-!
PROOFS of the owner's writes to engine-wide entries: a byte, and a command of four bytes (R485, R489, R490).
-/

section
namespace Sys2Proof.Machine

/-- Whether every configuration has an engine-wide entry, its row takes an access of some bytes for a write, and a test of the
row holds. -/
def entryTakes (index sub n : Nat) (p : EntryRow → Bool) : Bool :=
  decide (index < 2 ^ 16) && decide (sub < 2 ^ 8) && (entryFn index).isNone &&
  decide (¬ (0x2D0200 ≤ keyOf index sub ∧ keyOf index sub ≤ 0x2D020F)) &&
  decide (¬ (0x2D0700 ≤ keyOf index sub ∧ keyOf index sub ≤ 0x2D070F)) &&
  (rowOf dictRows (keyOf index sub)).any fun row => row.right != .ro && lengthOk row 0 n && p row

/-- A row that takes a byte: a number, of a range in which the byte lies. -/
def byteRow (v : Nat) (row : EntryRow) : Bool := !row.blob && decide (row.lo ≤ v) && decide (v ≤ row.hi)

section Writes

variable {s t u : State} {q : HostReq} {index sub n v : Nat} {p : EntryRow → Bool}

/-- The index and subindex of an access are its entry's. -/
theorem entryTakes_access (he : entryTakes index sub n p = true) :
    (BitVec.ofNat 16 index).toNat = index ∧ (BitVec.ofNat 8 sub).toNat = sub ∧ entryFn index = none := by
  simp only [entryTakes, Bool.and_eq_true, decide_eq_true_eq, Option.isNone_iff_eq_none] at he
  obtain ⟨⟨⟨⟨⟨hindex, hsub⟩, hfn⟩, _⟩, _⟩, _⟩ := he
  exact ⟨by rw [BitVec.toNat_ofNat, Nat.mod_eq_of_lt hindex], by rw [BitVec.toNat_ofNat, Nat.mod_eq_of_lt hsub], hfn⟩

/-- The owner's write reaches a row that takes it. -/
theorem writeRow_entry (he : entryTakes index sub n p = true) (ho : ownerRefusal t q = none) :
    ∃ row, p row = true ∧
      writeRow t q ⟨BitVec.ofNat 16 index, BitVec.ofNat 8 sub, 0, n⟩ (bytesLE n v) = .inr row := by
  obtain ⟨hindex, hsub, hfn⟩ := entryTakes_access he
  simp only [entryTakes, Bool.and_eq_true, decide_eq_true_eq, Option.any_eq_true, bne_iff_ne] at he
  obtain ⟨⟨⟨_, hroute⟩, hbudget⟩, row, hrow, ⟨hright, hlength⟩, hp⟩ := he
  have hentry : entryRow t index sub = some row := by
    simp only [entryRow, hfn, configured, hroute, hbudget, if_false, if_true, hrow]
  refine ⟨row, hp, ?_⟩
  simp only [writeRow, ho, hindex, hsub, hentry, hright, hlength, length_bytesLE, beq_self_eq_true, Bool.and_self, if_true, if_false]

/-- The owner's write of a number that its entry takes is answered OK. -/
theorem ownerWrites_ok (he : entryTakes index sub n p = true) (h : OwnerWrites q index sub n v s t)
    (hw : ∀ row, p row = true → entryWrites t q row ⟨BitVec.ofNat 16 index, BitVec.ofNat 8 sub, 0, n⟩ (bytesLE n v) =
      (u, some .ok)) :
    fromHost s q.host (fun t => writesNumber t q index sub n v) = .next (settled (wrote q u)) := by
  have ⟨_, _, ho⟩ := h
  obtain ⟨hindex, _, hfn⟩ := entryTakes_access he
  obtain ⟨row, hp, hrow⟩ := writeRow_entry (v := v) he ho
  have hturn : FnTurn t (BitVec.ofNat 16 index).toNat := fun hsome => by simp [hindex, hfn] at hsome
  exact writesNumber_ok q index sub n v s t u row h hturn hrow (hw row hp)

/-- The owner's write of a byte has the effect of its entry. -/
theorem ownerByte_ok (he : entryTakes index sub 1 (byteRow v) = true) (hv : v < 256) (h : OwnerWrites q index sub 1 v s t)
    (hw : scalarWrites t (keyOf index sub) v = (u, some .ok)) :
    fromHost s q.host (fun t => writesNumber t q index sub 1 v) = .next (settled (wrote q u)) := by
  obtain ⟨hindex, hsub, hfn⟩ := entryTakes_access he
  refine ownerWrites_ok he h fun row hrow => ?_
  simp only [byteRow, Bool.and_eq_true, decide_eq_true_eq, Bool.not_eq_true'] at hrow
  obtain ⟨⟨hblob, hlo⟩, hhi⟩ := hrow
  have hrange : ¬ (row.type ≠ .handle ∧ (v < row.lo ∨ row.hi < v)) := by omega
  simp only [entryWrites, hblob, ofBytesLE_byte hv, hrange, hindex, hsub, hfn, Bool.false_eq_true, if_false, hw]

/-- The owner's write of a whole array of bytes has the effect of its entry. -/
theorem ownerBlob_ok (he : entryTakes index sub n EntryRow.blob = true) (h : OwnerWrites q index sub n v s t)
    (hw : blobWrites t (keyOf index sub) 0 (bytesLE n v) = (u, some .ok)) :
    fromHost s q.host (fun t => writesNumber t q index sub n v) = .next (settled (wrote q u)) := by
  obtain ⟨hindex, hsub, _⟩ := entryTakes_access he
  refine ownerWrites_ok he h fun row hrow => ?_
  simp only [entryWrites, hrow, if_true, hindex, hsub, hw]

end Writes

/-! ## Commands of four bytes (R473, R592) -/

/-- The bytes of a number of four bytes that replace all of an entry's. -/
theorem listByte_splice {v : Nat} (h : v < 256 ^ 4) :
    listByte (bytesLE 4 (splice 0 4 0 (bytesLE 4 v))) 0 = v % 256 ∧
    listByte (bytesLE 4 (splice 0 4 0 (bytesLE 4 v))) 1 = v / 256 % 256 ∧
    listByte (bytesLE 4 (splice 0 4 0 (bytesLE 4 v))) 2 = v / 256 ^ 2 % 256 ∧
    listByte (bytesLE 4 (splice 0 4 0 (bytesLE 4 v))) 3 = v / 256 ^ 3 % 256 := by
  have hall : splice 0 4 0 (bytesLE 4 v) = v := by
    have hdrop : (bytesLE 4 0).drop (0 + (bytesLE 4 v).length) = [] := List.drop_eq_nil_of_le (by simp only [length_bytesLE]; omega)
    rw [splice, hdrop, List.take_zero, List.nil_append, List.append_nil, ofBytesLE_bytesLE h]
  rw [hall]
  simp only [listByte, bytesLE, List.getD_cons_zero, List.getD_cons_succ, BitVec.toNat_ofNat, Nat.div_div_eq_div_mul]
  exact ⟨trivial, trivial, rfl, rfl⟩

/-- A core command's bytes are its kind and its core. -/
theorem blobWrites_core (s : State) {kind phys : Nat} (hk : kind < 256) (hp : phys < 2 ^ 12) :
    blobWrites s 0x2E0A04 0 (bytesLE 4 (kind + 2 ^ 16 * phys)) = coreWrites s kind 0 phys := by
  obtain ⟨h0, h1, h2, h3⟩ := listByte_splice (v := kind + 2 ^ 16 * phys) (by omega)
  have hkind : (kind + 2 ^ 16 * phys) % 256 = kind := by omega
  have hpad : (kind + 2 ^ 16 * phys) / 256 % 256 = 0 := by omega
  have hphys : (kind + 2 ^ 16 * phys) / 256 ^ 2 % 256 + 256 * ((kind + 2 ^ 16 * phys) / 256 ^ 3 % 256) = phys := by omega
  have hkey : ¬ (0x2E0A04 : Nat) = 0x220100 := by omega
  simp only [blobWrites, hkey, if_false, if_true, h0, h1, h2, h3, hkind, hpad, hphys]

/-- A service command's bytes are its unit's kind and number, and its action. -/
theorem blobWrites_service (s : State) {kind n action : Nat} (hk : kind < 2 ^ 8) (hn : n < 2 ^ 8) (ha : action < 2 ^ 8) :
    blobWrites s 0x411000 0 (bytesLE 4 (kind + 2 ^ 8 * n + 2 ^ 16 * action)) = serviceWrites s kind n action 0 := by
  obtain ⟨h0, h1, h2, h3⟩ := listByte_splice (v := kind + 2 ^ 8 * n + 2 ^ 16 * action) (by omega)
  have hkind : (kind + 2 ^ 8 * n + 2 ^ 16 * action) % 256 = kind := by omega
  have hnum : (kind + 2 ^ 8 * n + 2 ^ 16 * action) / 256 % 256 = n := by omega
  have haction : (kind + 2 ^ 8 * n + 2 ^ 16 * action) / 256 ^ 2 % 256 = action := by omega
  have hpad : (kind + 2 ^ 8 * n + 2 ^ 16 * action) / 256 ^ 3 % 256 = 0 := by omega
  have hmap : ¬ (0x411000 : Nat) = 0x220100 := by omega
  have hcore : ¬ (0x411000 : Nat) = 0x2E0A04 := by omega
  simp only [blobWrites, hmap, hcore, if_false, if_true, h0, h1, h2, h3, hkind, hnum, haction, hpad]

section Commands

variable {s t : State} {q : HostReq}

/-- A core command that the owner writes takes effect where it fits. -/
theorem exec_coreRequest {kind : Nat} {phys : BitVec 12} (hk : 1 ≤ kind) (hk3 : kind ≤ 3)
    (hphys : physKnown t phys.toNat = true) (h : OwnerWrites q 0x2E0A 0x04 4 (kind + 2 ^ 16 * phys.toNat) s t)
    (hfits : coreCommandFits t kind phys.toNat = true) :
    coreRequest kind q phys s = .next (settled (wrote q (ownerCoreCommand t kind phys.toNat))) := by
  have hform : ¬ (kind < 1 ∨ 3 < kind ∨ (0 : Nat) ≠ 0 ∨ !physKnown t phys.toNat) := by
    simp only [hphys, Bool.not_true, Bool.false_eq_true, or_false, ne_eq, not_true_eq_false]
    omega
  refine ownerBlob_ok (by decide) h ((blobWrites_core t (by omega) phys.isLt).trans ?_)
  simp only [coreWrites, hform, if_false, hfits, if_true]

/-- A service command that the owner writes begins where its unit admits it and no other runs. -/
theorem exec_serviceRequest {kind n : BitVec 8} {action : Nat} (ha : action < 2 ^ 8) (hnone : t.service = none)
    (h : OwnerWrites q 0x4110 0x00 4 (kind.toNat + 2 ^ 8 * n.toNat + 2 ^ 16 * action) s t)
    (hdefined : serviceDefined t kind.toNat n.toNat action = true) (hfits : serviceFits t kind.toNat n.toNat action = true) :
    serviceRequest action q kind n s = .next (settled (wrote q (startService t kind.toNat n.toNat action false))) := by
  refine ownerBlob_ok (by decide) h ((blobWrites_service t kind.isLt n.isLt ha).trans ?_)
  simp only [serviceWrites, hdefined, hfits, hnone, Bool.not_true, Bool.false_eq_true, ne_eq, not_true_eq_false, or_self,
    if_false, Option.isSome_none]

end Commands

end Sys2Proof.Machine
end

/-!
PROOFS of the records that a check refuses, and of the messages of beacon slots and of published words.
-/

section
namespace Sys2Proof.Machine

/-! ## A record that fails a check (Tables 2.4 and 3.3) -/

/-- Settles O2: the checks come first for every opcode, and a refusal there is the answer and its count alone. -/
theorem recordsRefused : Obligations.RecordsRefused := by
  unfold Obligations.RecordsRefused
  intro op r s st hreaches hmine hcheck
  rw [exec_recordCommand, submit_reaches op r s hreaches, acceptOp_mine op r s hmine, hcheck, ← refuseAdm_admOf]

/-! ## Beacon updates (R135, R136, R170) -/

section Beacons

variable {s : State} {src dst word : Nat} {v h : Word} {rest : List Msg}

/-- An update that reaches its station acts there without waking it (R571). -/
theorem exec_beaconUpdate {free weir : Bool} (hr : ReachesMsg s src dst (.beaconUpdate word v free weir h) rest) :
    exec (.beaconUpdate src dst) s =
      .next (settled (beaconArrives { s with course := rest } dst src word v free weir h)) := by
  show execBeaconUpdate src dst s = _
  exact arrives_asleep s src dst _ rest _ _ 3 rfl hr rfl

/-- An acknowledgement that its object's home takes is a step of the home. -/
theorem exec_beaconUpdateAck (ht : TakesMsg s src dst (.beaconAck word h) rest) (hh : HomeHere (taken s dst rest) dst h) :
    exec (.beaconUpdateAck src dst) s =
      .next (settled (stepOn (taken s dst rest) dst h (beaconAcked (atStep (taken s dst rest)) dst src word h))) := by
  show execBeaconUpdateAck src dst s = _
  exact arrives_takes s src dst _ rest _ _ 1 rfl ht (homeMsg_here _ dst h _ _ hh)

variable (s) (n : Nat)

/-- An update that frees its word zeroes it and is acknowledged. -/
theorem beaconArrives_free (weir : Bool) :
    beaconArrives s n src word v true weir h = send (setBeacon s n word 0) n src (.beaconAck word h) := rfl

/-- One of a slot writes its word. -/
theorem beaconArrives_slot : beaconArrives s n src word v false false h = setBeacon s n word v := rfl

/-- So does one of a weir's word where the station has no node of the weir. -/
theorem beaconArrives_weir_absent (hnone : nodeFor s n h = none) :
    beaconArrives s n src word v false true h = setBeacon s n word v := by
  simp only [beaconArrives, hnone, Option.isSome_none, Bool.and_false, Bool.false_eq_true, if_false]

/-- A station with a node of the weir ignores it. -/
theorem beaconArrives_weir_member {x : Node} (hsome : nodeFor s n h = some x) :
    beaconArrives s n src word v false true h = s := by
  simp only [beaconArrives, hsome, Option.isSome_some, Bool.and_self, Bool.false_eq_true, if_true, if_false]

variable {s n} {j : Job} {w : Nat} {left : List Nat} (hj : jobOf s n (Handle.hi h) = some j)
  (hk : j.kind = .beaconDestroy w left)
include hj hk

/-- The last acknowledgement frees the word and ends the slot's destruction. -/
theorem beaconAcked_last (hl : left.filter (· != src) = []) :
    beaconAcked s n src word h =
      jobAnswer (retireHi (freeWord (dropJob s n j.hi) w) n j.hi j.agent) n j ⟨.ok, 0, 0, none, none⟩ := by
  simp only [beaconAcked, hj, hk, hl, List.isEmpty_nil, if_true]

/-- One before it is no longer waited for. -/
theorem beaconAcked_more (hl : left.filter (· != src) ≠ []) :
    beaconAcked s n src word h = setJob s n { j with kind := .beaconDestroy w (left.filter (· != src)) } := by
  simp only [beaconAcked, hj, hk, List.isEmpty_iff, hl, if_false]

end Beacons

/-- Settles O33, by the message: what an update's word belongs to, and whether an acknowledgement is the last. -/
theorem beaconMessages : Obligations.BeaconMessages := by
  unfold Obligations.BeaconMessages
  refine ⟨?free, ?slot, ?weir, ?acked⟩
  case free =>
    intro s src dst word v h weir rest hr
    rw [exec_beaconUpdate hr, beaconArrives_free]
  case slot =>
    intro s src dst word v h rest hr
    rw [exec_beaconUpdate hr, beaconArrives_slot]
  case weir =>
    intro s src dst word v h rest hr
    refine ⟨fun hnone => ?absent, fun x hsome => ?member⟩
    case absent => rw [exec_beaconUpdate hr, beaconArrives_weir_absent { s with course := rest } dst hnone]
    case member => rw [exec_beaconUpdate hr, beaconArrives_weir_member { s with course := rest } dst hsome]
  case acked =>
    rintro s _ src dst word w h rest j left ht hh rfl hj hk
    refine ⟨fun hl => ?last, fun hl => ?more⟩
    case last => rw [exec_beaconUpdateAck ht hh, beaconAcked_last hj hk hl]
    case more => rw [exec_beaconUpdateAck ht hh, beaconAcked_more hj hk hl]

end Sys2Proof.Machine
end

/-!
PROOFS of the MCTP transport: control messages, the packets of a message, reads and in-band interrupts.
-/

section
namespace Sys2Proof.Machine

section Transport

variable {s : State}

/-- A control message acts where the engine has power and the management controller does not restart. -/
theorem controlTaken_takes (f : State → State) (hp : s.power.phase ≠ 1) (hr : s.restarting = none) : controlTaken s f = f s := by
  simp only [controlTaken, hp, hr, Option.isSome_none, Bool.false_eq_true, if_false]

section Control

variable (c : MctpCtl) (hp : s.power.phase ≠ 1) (hr : s.restarting = none)
include hp hr

/-- An identifier that an endpoint may have is set. -/
theorem setsEndpoint_sets {eid : Nat} (hlo : 0x08 ≤ eid) (hhi : eid ≤ 0xFE) :
    setsEndpoint s c eid =
      controlAnswer (setSetting s 0x200300 eid) c 0x01 0 (bytesLE 1 0 ++ bytesLE 1 eid ++ bytesLE 1 0) := by
  simp only [setsEndpoint, controlTaken_takes _ hp hr, hlo, hhi, and_self, if_true]

/-- The version is given for the base specification and for control messages. -/
theorem givesVersion_gives {type : Nat} (ht : type = 0xFF ∨ type = 0) :
    givesVersion s c type = controlAnswer s c 0x04 0 (bytesLE 1 1 ++ bytesBE 4 0xF1F3FF00) := by
  simp only [givesVersion, controlTaken_takes _ hp hr, ht, if_true]

/-- The one vendor is the first of the selector. -/
theorem givesVendor_first :
    givesVendor s c 0 = controlAnswer s c 0x06 0 (bytesLE 1 0xFF ++ bytesLE 1 1 ++ bytesBE 4 (setting s 0x100001) ++
      [Config.vendorByte 0, Config.vendorByte 1]) := by
  simp only [givesVendor, controlTaken_takes _ hp hr, if_true]

end Control

/-! ## Packets (R497, R542) -/

section Packets

variable {version dest src flags code : Byte} {l : List Byte} (hp : s.power.phase ≠ 1) (hr : s.restarting = none)
  (hc : Config.packetCode (version :: dest :: src :: flags :: l) = code) (hv : version.toNat % 16 = 1)
include hp hr hc hv

/-- A packet with a good code and version that is for this endpoint, or for none, is joined to those before it. -/
theorem packetArrives_joins (hd : dest.toNat = 0 ∨ dest.toNat = setting s 0x200300) :
    packetArrives s ((version :: dest :: src :: flags :: l) ++ [code]) = packetJoins s src.toNat flags.toNat l := by
  have hmine : ¬ (dest.toNat ≠ 0 ∧ dest.toNat ≠ setting s 0x200300) := by tauto
  simp only [packetArrives, controlTaken_takes _ hp hr, List.dropLast_concat, List.getLast?_concat, hc, hv, hmine, ne_eq,
    not_true_eq_false, or_self, if_false]

/-- One for another endpoint has no effect. -/
theorem packetArrives_other (h0 : dest.toNat ≠ 0) (hd : dest.toNat ≠ setting s 0x200300) :
    packetArrives s ((version :: dest :: src :: flags :: l) ++ [code]) = s := by
  simp only [packetArrives, controlTaken_takes _ hp hr, List.dropLast_concat, List.getLast?_concat, hc, hv, h0, hd, ne_eq,
    not_true_eq_false, not_false_eq_true, and_self, or_self, if_true, if_false]

end Packets

/-- A packet in the middle of a message is joined to those before it, where it is the next and the message stays short enough. -/
theorem packetJoins_middle {src flags : Nat} {l : List Byte} {a : Assembly} (hto : flags / 8 % 2 = 1)
    (hlast : flags / 64 % 2 = 0) (hfirst : flags / 128 = 0)
    (ha : s.transport.assembly.find? (fun x => x.src == src && x.tag == flags % 8) = some a)
    (hnext : a.next = flags / 16 % 4) (hlen : a.bytes.length + l.length ≤ 1104) :
    packetJoins s src flags l = setAssembly s (otherAssemblies s src (flags % 8) ++
      [⟨src, flags % 8, (flags / 16 % 4 + 1) % 4, a.bytes ++ l⟩]) := by
  have hshort : ¬ 1104 < (a.bytes ++ l).length := by rw [List.length_append]; omega
  have hto0 : ¬ flags / 8 % 2 = 0 := by omega
  have hfirst1 : ¬ flags / 128 = 1 := by omega
  have hlast1 : (flags / 64 % 2 == 1) = false := by rw [hlast]; rfl
  simp only [packetJoins, hto0, hfirst1, hlast1, ha, hnext, hshort, Bool.false_eq_true, if_true, if_false]

/-! ## Private reads and in-band interrupts (R543, R544) -/

/-- A packet whose last byte was taken leaves. -/
theorem privateReadEnds_taken (hq : s.transport.txQueue ≠ []) :
    privateReadEnds s true = { s with transport := Transport.ibi (setting s 0x2F0400) { s.transport with
      txQueue := s.transport.txQueue.drop 1, ibiTaken := false, ibiRetryAt := none } } :=
  if_pos ⟨rfl, hq⟩

/-- An accepted request is made for the packet that waits. -/
theorem ibiAnswered_accepted (hreq : s.transport.ibiReq = true) :
    ibiAnswered s true =
      { s with transport := Transport.ibi (setting s 0x2F0400) { s.transport with ibiTaken := true } } := by
  simp only [ibiAnswered, hreq, Bool.not_true, Bool.false_eq_true, if_true, if_false]

/-- One that is refused is made again after its time. -/
theorem ibiAnswered_refused (hreq : s.transport.ibiReq = true) :
    ibiAnswered s false = { s with transport := Transport.ibi (setting s 0x2F0400) { s.transport with
      ibiRetryAt := some (s.now + setting s 0x2F0401) } } := by
  simp only [ibiAnswered, hreq, Bool.not_true, Bool.false_eq_true, if_false]

/-- That time has come. -/
theorem ibiAgain_due {t : State} {d : Nat} (hd : s.transport.ibiRetryAt = some d) (ht : t = passToAc s d) :
    ibiAgain s = { t with transport := Transport.ibi (setting t 0x2F0400) { t.transport with ibiRetryAt := none } } := by
  subst ht
  simp only [ibiAgain, hd]

end Transport

/-- Settles O50, by the command: each control message, a packet by its destination and its place in its message, a read, and
the answer to an interrupt request. -/
theorem transport_holds : Obligations.Transport := by
  unfold Obligations.Transport
  refine ⟨?control, ?packet, ?middle, ?read, ?answer, ?again⟩
  case control =>
    intro s c hp hr
    refine ⟨fun eid hlo hhi => ?set, ?get, ?uuid, fun type ht => ?version, ?types, ?vendor⟩
    case set => exact congrArg conclude (setsEndpoint_sets c hp hr hlo hhi)
    case get => exact congrArg conclude (controlTaken_takes _ hp hr)
    case uuid => exact congrArg conclude (controlTaken_takes _ hp hr)
    case version => exact congrArg conclude (givesVersion_gives c hp hr ht)
    case types => exact congrArg conclude (controlTaken_takes _ hp hr)
    case vendor => exact congrArg conclude (givesVendor_first c hp hr)
  case packet =>
    intro s version dest src flags code l hp hr hc hv
    refine ⟨fun hd => ?mine, fun h0 hd => ?other⟩
    case mine => exact congrArg conclude (packetArrives_joins hp hr hc hv hd)
    case other => exact congrArg conclude (packetArrives_other hp hr hc hv h0 hd)
  case middle =>
    intro s version dest src flags code l a hp hr hc hv hd hto hlast hfirst ha hnext hlen
    exact congrArg conclude ((packetArrives_joins hp hr hc hv (.inr hd)).trans
      (packetJoins_middle hto hlast hfirst ha hnext hlen))
  case read => exact fun s hq => congrArg conclude (privateReadEnds_taken hq)
  case answer =>
    exact fun s hreq => ⟨congrArg conclude (ibiAnswered_accepted hreq), congrArg conclude (ibiAnswered_refused hreq)⟩
  case again => exact fun s t d hd ht => congrArg conclude (ibiAgain_due hd ht)

end Sys2Proof.Machine
end

/-!
PROOFS of ownership and of events: Table 15.10's moves, the lease's and the handover's deadlines, subscriptions, and an event's
delivery.
-/

section
namespace Sys2Proof.Machine

/-! ## Requests that are taken -/

section Requests

variable {s : State} {host : Nat} {q : HostReq}

/-- A claim that is taken. -/
theorem exec_claim (priority : BitVec 8) (nonce : BitVec 32) (h : Admits host s) :
    exec (.claim host priority nonce) s = .next (settled (claims s host priority.toNat nonce.toNat)) := by
  show execClaim host priority nonce s = _
  rw [execClaim, fromHost_admits _ _ _ h]

/-- A renewal. -/
theorem exec_renew (h : Admits q.host s) : exec (.renew q) s = .next (settled (renews s q)) := by
  show execRenew q s = _
  rw [execRenew, fromHost_admits _ _ _ h]

/-- A release. -/
theorem exec_release (h : Admits q.host s) : exec (.release q) s = .next (settled (releases s q)) := by
  show execRelease q s = _
  rw [execRelease, fromHost_admits _ _ _ h]

/-- A handover. -/
theorem exec_handover (target : Nat) (h : Admits q.host s) :
    exec (.handover q target) s = .next (settled (hands s q target)) := by
  show execHandover q target s = _
  rw [execHandover, fromHost_admits _ _ _ h]

/-- An acceptance of a handover. -/
theorem exec_accept (offering : Nat) (h : Admits host s) :
    exec (.accept host offering) s = .next (settled (accepts s host offering)) := by
  show execAccept host offering s = _
  rw [execAccept, fromHost_admits _ _ _ h]

/-- A subscription. -/
theorem exec_subscribe (mask : BitVec 128) (h : Admits host s) :
    exec (.subscribe host mask) s = .next (settled (subscribes s host mask)) := by
  show execSubscribe host mask s = _
  rw [execSubscribe, fromHost_admits _ _ _ h]

/-- An acknowledgement of an event. -/
theorem exec_eventAck (sequence : BitVec 32) (h : Admits host s) :
    exec (.eventAck host sequence) s = .next (settled (acknowledges s host sequence.toNat)) := by
  show execEventAck host sequence s = _
  rw [execEventAck, fromHost_admits _ _ _ h]

end Requests

/-! ## Ownership (R501 to R504, Table 15.10) -/

section Claims

variable {s t : State} {host : Nat} {priority nonce : Nat}
  (h : HostAsks host 0x10 s.window.epoch.toNat priority nonce s t)
include h

/-- A claim while there is no owner starts an election. -/
theorem claims_unowned (ho : t.owner.state = .unowned) :
    claims s host priority nonce = onOwner t fun o => { o with
      state := .electing, deadline := t.now + setting t 0x200202, claims := [⟨host, priority, nonce⟩] } := by
  obtain ⟨hadmits, rfl⟩ := h
  simp only [claims, admitRequest_admits _ _ _ _ _ _ hadmits, ho]

/-- The owner's own restarts its lease. -/
theorem claims_again (ho : t.owner.state = .owned) (hmine : t.owner.host = host) :
    claims s host priority nonce = answerHost (startLease t) host 0x10 .ok (ownerBody (startLease t)) := by
  obtain ⟨hadmits, rfl⟩ := h
  simp only [claims, admitRequest_admits _ _ _ _ _ _ hadmits, ho, hmine, if_true]

/-- Another host's is refused. -/
theorem claims_other (ho : t.owner.state = .owned) (hother : t.owner.host ≠ host) :
    claims s host priority nonce = answerHost t host 0x10 .notOwner (ownerBody t) := by
  obtain ⟨hadmits, rfl⟩ := h
  simp only [claims, admitRequest_admits _ _ _ _ _ _ hadmits, ho, hother, if_false]

end Claims

section Owner

variable {s t : State} {q : HostReq}

/-- The owner's renewal restarts its lease. -/
theorem renews_owner (h : HostAsks q.host 0x11 q.epoch s.window.arg0.toNat s.window.arg1.toNat s t)
    (ho : ownerRefusal t q = none) :
    renews s q = answerHost (startLease t) q.host 0x11 .ok (bytesLE 4 (leaseLeft (startLease t))) := by
  obtain ⟨hadmits, rfl⟩ := h
  simp only [renews, admitRequest_admits _ _ _ _ _ _ hadmits, ho]

/-- Its release leaves no owner, while it hands over too. -/
theorem releases_owner (h : HostAsks q.host 0x12 q.epoch s.window.arg0.toNat s.window.arg1.toNat s t)
    (ho : ownerRefusal t q ≠ some .notOwner) :
    releases s q = answerHost (changeOwner t 0 0) q.host 0x12 .ok [] := by
  obtain ⟨hadmits, rfl⟩ := h
  simp only [releases, admitRequest_admits _ _ _ _ _ _ hadmits]

/-- Its handover to another host names the target and keeps what remains of the lease. -/
theorem hands_owner {target : Nat} (h : HostAsks q.host 0x13 q.epoch target s.window.arg1.toNat s t)
    (ho : ownerRefusal t q = none) (hother : target ≠ q.host) (hdefined : hostDefined target = true) :
    hands s q target = answerHost (onOwner t fun o => { o with
        state := .handing, remaining := leaseLeft t, target := target, deadline := t.now + setting t 0x200203 })
      q.host 0x13 .ok [] := by
  obtain ⟨hadmits, rfl⟩ := h
  simp only [hands, admitRequest_admits _ _ _ _ _ _ hadmits, ho, hother, hdefined, Option.isSome_none, Bool.not_true,
    Bool.false_eq_true, if_false]

/-- The host to which an owner hands over accepts. -/
theorem accepts_target {host : Nat} (h : HostAsks host 0x14 s.window.epoch.toNat t.owner.host s.window.arg1.toNat s t)
    (ho : t.owner.state = .handing) (htarget : t.owner.target = host) :
    accepts s host t.owner.host = answerHost (changeOwner t host t.owner.priority) host 0x14 .ok [] := by
  obtain ⟨hadmits, ht⟩ := h
  simp only [accepts, admitRequest_admits _ _ _ _ _ _ hadmits, ← ht, ho, htarget, and_self, if_true]

/-- The election's window ends: the best claimant is the owner, and every claimant is answered. -/
theorem electionEnds_best {c : Claim} (he : s.owner.state = .electing) (ht : t = passToAc s s.owner.deadline)
    (hc : bestClaim t.owner.claims = some c) :
    electionEnds s = t.owner.claims.foldl
      (fun v x => answerHost v x.host 0x10 (if x.host = c.host then .ok else .notOwner) (ownerBody v))
      (changeOwner t c.host c.priority) := by
  subst ht
  simp only [electionEnds, he, ne_eq, not_true_eq_false, if_false, hc]

/-- The lease ends: there is no owner, and the next epoch begins. -/
theorem leaseEnds_owned {u : State} (ho : s.owner.state = .owned) (hr : s.restarting = none)
    (ht : t = passToAc s s.owner.deadline)
    (hu : u = onOwner t fun o => { o with state := .unowned, host := 0, priority := 0, epoch := (o.epoch + 1) % 2 ^ 32 }) :
    leaseEnds s = raise u 0x02 (generic t.owner.host u.owner.epoch 0 0 0) := by
  subst hu ht
  simp only [leaseEnds, ho, hr, ne_eq, not_true_eq_false, Option.isSome_none, Bool.false_eq_true, or_self, if_false]

/-- A handover that is not accepted in time ends: the owner stays. -/
theorem handoverEnds_handing (ho : s.owner.state = .handing) (ht : t = passToAc s s.owner.deadline) :
    handoverEnds s = startLease (onOwner t fun o => { o with state := .owned }) := by
  subst ht
  simp only [handoverEnds, ho, ne_eq, not_true_eq_false, if_false]

end Owner

/-! ## Subscriptions (R509) -/

section Subscriptions

variable {s t : State} {host k : Nat} {x : Sub} {mask : BitVec 128} (h : Admits host s) (ht : t = asked s host 0x20 id)
include h ht

/-- A subscriber's new mask replaces its mask. -/
theorem subscribes_again (hslot : slotOf t host = some (k, x)) (hm : mask ≠ 0) :
    subscribes s host mask = answerHost (setSub t k { x with mask := mask }) host 0x20 .ok (bytesLE 1 k) := by
  subst ht
  simp only [subscribes, admitRequest_admits _ _ _ _ _ _ h, hslot, hm, if_false]

/-- An empty mask ends its subscription. -/
theorem subscribes_ends (hslot : slotOf t host = some (k, x)) :
    subscribes s host 0 = answerHost { t with subs := tdel t.subs k } host 0x20 .ok (bytesLE 1 k) := by
  subst ht
  simp only [subscribes, admitRequest_admits _ _ _ _ _ _ h, hslot, if_true]

/-- A new subscriber takes the least free slot. -/
theorem subscribes_new (hslot : slotOf t host = none) (hm : mask ≠ 0)
    (hk : k = leastFrom (fun j => (tget t.subs j).isNone) 8 0) (hroom : k < 8) :
    subscribes s host mask =
      answerHost (setSub t k ⟨host, mask, setting t 0x200601, none, 0, 0⟩) host 0x20 .ok (bytesLE 1 k) := by
  subst ht hk
  simp only [subscribes, admitRequest_admits _ _ _ _ _ _ h, hslot, hm, Nat.not_le.2 hroom, if_false]

end Subscriptions

/-! ## Delivery (R500, R511, R512) -/

section Delivery

variable {s t : State} {host k : Nat} {x : Sub} {e : Event}

/-- The window's host fetches its oldest event. -/
theorem fetches_oldest (h : Admits 0x200 s) (ht : t = asked s 0x200 0x21 id) (hslot : slotOf t 0x200 = some (k, x))
    (he : x.oldest t = some e) :
    fetches s = answerHost (setSub t k { x with outstanding := some e.seq }) 0x200 0x21 .ok e.bytes := by
  subst ht
  simp only [fetches, admitRequest_admits _ _ _ _ _ _ h, hslot, he]

/-- A subscriber acknowledges the event that it has outstanding. -/
theorem acknowledges_open {seq : Nat}
    (h : HostAsks host 0x22 s.window.epoch.toNat seq s.window.arg1.toNat s t) (hslot : slotOf t host = some (k, x))
    (ho : x.open_ t = some seq) :
    acknowledges s host seq =
      answerHost (setSub t k { x with next := seq + 1, outstanding := none, sends := 0 }) host 0x22 .ok [] := by
  obtain ⟨hadmits, rfl⟩ := h
  simp only [acknowledges, admitRequest_admits _ _ _ _ _ _ hadmits, hslot, ho, if_true]

variable (hhost : host ≠ 0x200) (hr : s.restarting = none) (hslot : slotOf s host = some (k, x))
include hhost hr hslot

/-- A subscriber with no event outstanding is sent its oldest. -/
theorem sendsEvent_oldest (ho : x.outstanding = none) (he : x.oldest s = some e) : sendsEvent s host = sendEvent s k x e 1 := by
  have hcurrent : x.current s = none := by simp only [Sub.current, ho]
  simp only [sendsEvent, hhost, hr, hslot, hcurrent, ho, he, Option.isSome_none, Bool.false_eq_true, or_self, if_false]

variable (he : x.current s = some e)
include he

/-- An event that is not acknowledged in time is sent again. -/
theorem retriesEvent_again (hmore : x.sends < setting (passToAc s x.due) 0x200502) :
    retriesEvent s host = sendEvent (passToAc s x.due) k x e (x.sends + 1) := by
  simp only [retriesEvent, hhost, hr, hslot, he, hmore, Option.isSome_none, Bool.false_eq_true, or_self, if_true, if_false]

/-- After its number of sends the subscriber is dropped. -/
theorem retriesEvent_drops (hmost : setting (passToAc s x.due) 0x200502 ≤ x.sends) :
    retriesEvent s host =
      raise { passToAc s x.due with subs := tdel (passToAc s x.due).subs k } 0x04 (generic host 0 0 0 0) := by
  simp only [retriesEvent, hhost, hr, hslot, he, Nat.not_lt.2 hmost, Option.isSome_none, Bool.false_eq_true, or_self, if_false]

end Delivery

/-- Settles O51, by the request and the state of ownership in which it is acted on, or the subscriber's slot. -/
theorem ownershipAndEvents : Obligations.OwnershipAndEvents := by
  unfold Obligations.OwnershipAndEvents
  refine ⟨?claim, ?elected, ?owner, ?accept, ?deadline, ?subscribe, ?fetch, ?acknowledge, ?send⟩
  case claim =>
    intro s t host priority nonce h
    rw [exec_claim priority nonce h.1]
    refine ⟨fun ho => ?unowned, fun ho hmine => ?again, fun ho hother => ?other⟩
    case unowned => rw [claims_unowned h ho]
    case again => rw [claims_again h ho hmine]
    case other => rw [claims_other h ho hother]
  case elected => exact fun s t c he ht hc => congrArg conclude (electionEnds_best he ht hc)
  case owner =>
    intro s t q
    refine ⟨fun h ho => ?renew, fun h ho => ?release, fun target h ho hother hdefined => ?handover⟩
    case renew => rw [exec_renew h.1, renews_owner h ho]
    case release => rw [exec_release h.1, releases_owner h ho]
    case handover => rw [exec_handover target h.1, hands_owner h ho hother hdefined]
  case accept =>
    intro s t host h ho htarget
    rw [exec_accept t.owner.host h.1, accepts_target h ho htarget]
  case deadline =>
    intro s t u ht
    exact ⟨fun ho hr hu => congrArg conclude (leaseEnds_owned ho hr ht hu),
      fun ho => congrArg conclude (handoverEnds_handing ho ht)⟩
  case subscribe =>
    intro s t host mask h ht
    rw [exec_subscribe mask h]
    refine ⟨fun k x hslot hm => ?again, fun k x hslot hm => ?ends, fun hslot hm hroom => ?new⟩
    case again => rw [subscribes_again h ht hslot hm]
    case ends => rw [hm, subscribes_ends h ht hslot]
    case new => rw [subscribes_new h ht hslot hm rfl hroom]
  case fetch => exact fun s t k x e h ht hslot he => congrArg conclude (fetches_oldest h ht hslot he)
  case acknowledge =>
    intro s t host k seq x h hslot ho
    rw [exec_eventAck seq h.1, acknowledges_open h hslot ho]
  case send =>
    intro s host k x e hhost hr hslot
    exact ⟨fun ho he => congrArg conclude (sendsEvent_oldest hhost hr hslot ho he),
      fun he hmore => congrArg conclude (retriesEvent_again hhost hr hslot he hmore),
      fun he hmost => congrArg conclude (retriesEvent_drops hhost hr hslot he hmost)⟩

end Sys2Proof.Machine
end

/-!
PROOFS of doze and of upkeep: a station's doze, wake and hold, what a scrub finds, replays, calibration, credits and samples.
-/

section
namespace Sys2Proof.Machine

/-! ## Doze (R570 to R572, R597) -/

section Doze

variable {s t u : State} {n : Nat}

/-- A station without work dozes after its time. -/
theorem dozes_idle (hstate : (station s n).state = .active) (hon : setting s 0x210401 ≠ 0) (hwork : hasWork s n = false)
    (htow : towpathActs s n = false) (ht : t = passFc (passToFc s ((station s n).idleSince + setting s 0x210402)) 8) :
    dozes s n = onStation t n fun x => { x with state := .dozing, idleSince := t.clock.fc } := by
  subst ht
  simp only [dozes, hstate, hon, hwork, htow, ne_eq, not_true_eq_false, Bool.false_eq_true, or_self, if_false]

variable (hstate : (station s n).state = .dozing)
include hstate

/-- One that dozes wakes for work. -/
theorem exec_stationWake (hwork : hasWork s n = true) :
    exec (.stationWake n) s = .next (settled (wakeStation (passFc s (setting s 0x210403)) n)) := by
  show execStationWake n s = _
  rw [execStationWake, if_pos ⟨hstate, hwork⟩, conclude]

variable (hrx : (station s n).rx ≠ [])
include hrx

/-- The first time that its hold passes, the towpath answers what waits. -/
theorem holdExpires_first (hpassed : (station s n).holdPassed = false) :
    holdExpires s n = onStation ((station s n).rx.foldl towpathTakes (passToFc s (station s n).holdUntil)) n
      fun x => { x with rx := [], holdPassed := true } := by
  simp only [holdExpires, hstate, hrx, hpassed, List.isEmpty_iff, ne_eq, not_true_eq_false, or_self, if_false, Bool.not_false,
    if_true]

/-- Every later time is a wake fault, and the station's drain is owed. -/
theorem holdExpires_again (hpassed : (station s n).holdPassed = true)
    (ht : t = bump (onStation ((station s n).rx.foldl towpathTakes (passToFc s (station s n).holdUntil)) n
      fun x => { x with rx := [], holdPassed := true }) 0x210404)
    (hu : u = raise t 0x6A (generic (setting t 0x210404) 0 0 0 n)) :
    holdExpires s n = { u with drainsOwed := if u.drainsOwed.contains n then u.drainsOwed else u.drainsOwed ++ [n] } := by
  subst hu ht
  simp only [holdExpires, hstate, hrx, hpassed, List.isEmpty_iff, ne_eq, not_true_eq_false, or_self, if_false, Bool.not_true,
    Bool.false_eq_true]

end Doze

section Owed

variable {s : State} (hnone : s.service = none) (hserving : s.drainsOwed.filter (fun n => serving (station s n)) = s.drainsOwed)
include hnone hserving

/-- A drain that is owed and fits starts. -/
theorem startOwed_starts {n : Nat} (hn : s.drainsOwed.find? (fun n => serviceFits s 1 n 1) = some n) :
    startOwed s = startService { s with drainsOwed := s.drainsOwed.filter (· != n) } 1 n 1 true := by
  simp only [startOwed, hnone, hserving, hn, Option.isSome_none, Bool.false_eq_true, if_false]

/-- Where none fits, they stay owed. -/
theorem startOwed_waits (hn : s.drainsOwed.find? (fun n => serviceFits s 1 n 1) = none) : startOwed s = s := by
  have hidle : ¬ s.service.isSome = true := by rw [hnone]; exact Bool.false_ne_true
  rw [startOwed, if_neg hidle]
  simp only [hserving, hn]

end Owed

/-! ## Findings (R584 to R588, Table 18.3) -/

section Findings

variable {s : State}

/-- A burst of a unit that is clocked heeds its own findings. -/
theorem scrubs_clocked {unit : Nat} (found : List RowFinding) (h : unitClocked s unit = true) :
    scrubs s unit found = (found.filter (heeded s unit)).foldl foundRow (burstWakes s unit) := if_pos h

variable {f : RowFinding} (hs : f.source = .scrub)
include hs

/-- A word that was corrected is counted. -/
theorem foundRow_corrected (hc : f.corrected = true) : foundRow s f = countCorrected s (if f.unit = 127 then 4 else 1) := by
  simp only [foundRow, hs, hc, if_true]

/-- A row that was not is handled under Table 18.3. -/
theorem foundRow_uncorrectable (hc : f.corrected = false) : foundRow s f = uncorrectable s f := by
  simp only [foundRow, hs, hc, Bool.false_eq_true, if_false]

end Findings

/-- A row whose attribution word is uncorrectable too resets the engine. -/
theorem uncorrectable_attribution {s : State} {f : RowFinding} (ha : f.attributionBad = true) :
    uncorrectable s f = engineResets (report s none 0 (unitStation s f.unit) 13 f.row 7) := by
  simp only [uncorrectable, ha, if_true, show (12 : Nat) ≤ 13 from by omega]

/-- A row of a station's object table fails its object. -/
theorem uncorrectable_object {s : State} {f : RowFinding} {i : Nat} {o : Obj} (ha : f.attributionBad = false) (hstore : f.store = 1)
    (ho : (station s f.unit).objects[f.row]? = some (i, o)) :
    uncorrectable s f = failHi (report s (some o.hi) 0 f.unit 1 f.row 1) f.unit o.hi := by
  have hrow : stationRow s f.unit 1 f.row = failHi (report s (some o.hi) 0 f.unit 1 f.row 1) f.unit o.hi := by
    simp only [stationRow, ho]
  simp only [uncorrectable, ha, hstore, hrow, Bool.false_eq_true, if_false, show ¬ (12 : Nat) ≤ 1 from by omega,
    show ¬ (1 : Nat) = 11 from by omega, show ¬ ((1 : Nat) = 9 ∨ (1 : Nat) = 10) from by omega]

/-- An event counts nothing but the events themselves and their losses. -/
theorem setting_raise (s : State) (code : Nat) (record : BitVec 256) {k : Nat}
    (hseq : k ≠ 0x200601) (hlost : k ≠ 0x200602) (hfixed : k ≠ 0x200603) : setting (raise s code record) k = setting s k := by
  unfold raise
  split
  next t ht =>
    rw [appendEvent, setting_setSetting_other _ _ _ _ hseq]
    exact (show _ = setting t k from rfl).trans (setting_logRoom ht hlost)
  next =>
    have hcounter : k ≠ if maskable code then 0x200602 else 0x200603 := by split <;> assumption
    exact setting_setSetting_other _ _ _ _ hcounter

/-- A corrected word is counted once, whether its event is raised or not. -/
theorem setting_countCorrected (s : State) {kind : Nat} (hlo : 1 ≤ kind) (hhi : kind ≤ 4) :
    setting (countCorrected s kind) (0x410200 + kind) = setting (bump s (0x410200 + kind)) (0x410200 + kind) := by
  unfold countCorrected
  dsimp only
  split
  next => exact setting_raise _ _ _ (by omega) (by omega) (by omega)
  next => rfl

/-! ## A failed object (R588) -/

/-- A table whose values are mapped reads the value's image. -/
theorem tget_mapValues {α β : Type} (f : α → β) (t : Table α) (k : Nat) :
    tget (t.map fun q => (q.1, f q.2)) k = (tget t k).map f := by
  induction t with
  | nil => rfl
  | cons q t ih =>
    obtain ⟨j, v⟩ := q
    by_cases h : j = k
    · simp only [List.map_cons, tget, h, if_true, Option.map_some]
    · simp only [List.map_cons, tget, h, if_false, ih]

/-- A change of every station in a list is made at each of its stations, and at no other. -/
theorem station_foldl_onStation {α : Type} (g : Station → Station) (n : Nat) (l : List (Nat × α)) (s : State) :
    (n ∈ l.map Prod.fst → ∃ st, station (l.foldl (fun t p => onStation t p.1 g) s) n = g st) ∧
    (n ∉ l.map Prod.fst → station (l.foldl (fun t p => onStation t p.1 g) s) n = station s n) := by
  induction l using List.reverseRecOn with
  | nil => exact ⟨fun h => absurd h List.not_mem_nil, fun _ => rfl⟩
  | append_singleton l p ih =>
    obtain ⟨hmem, hnot⟩ := ih
    simp only [List.foldl_append, List.foldl_cons, List.foldl_nil, List.map_append, List.map_cons, List.map_nil, List.mem_append,
      List.mem_singleton, not_or]
    by_cases hp : n = p.1
    · subst hp
      exact ⟨fun _ => ⟨_, station_onStation_same _ _ _⟩, fun h => absurd rfl h.2⟩
    · rw [station_onStation_other _ _ _ _ hp]
      exact ⟨fun h => hmem (h.resolve_right hp), fun h => hnot h.1⟩

/-- A station that the configuration does not have is absent and empty. -/
theorem station_absent {s : State} {n : Nat} (h : n ∉ s.stations.map Prod.fst) : station s n = Station.empty .absent := by
  have hnone : tget s.stations n = none := by
    cases hget : tget s.stations n with
    | none => rfl
    | some st => exact absurd (List.mem_map_of_mem (mem_of_tget _ _ _ hget)) h
  rw [station, tgetD, hnone, Option.getD_none]

/-- A node once an object has failed: the nodes of a weir refuse, and a keeper's weir loses its keeper. -/
def nodeFailed (hi : BitVec 40) (x : Node) : Node :=
  { x with failed := x.failed || x.hi == hi, keeperLost := x.keeperLost || x.ofKeeper hi }

/-- A station once an object has failed. -/
def nodesFailed (hi : BitVec 40) (st : Station) : Station :=
  { st with nodes := st.nodes.map fun q => (q.1, nodeFailed hi q.2) }

/-- A failed object stays as its home's, failed and without watches, over a state whose stations' nodes have failed with it. -/
theorem failObj_eq {s : State} {home index : Nat} {o : Obj} (ho : objAt s home index = some o) (hf : o.failed = false) :
    ∃ (t : State) (body : Body), failObj s home index = bumpFn (setObj (t.stations.foldl (fun u p => onStation u p.1 (nodesFailed o.hi)) t)
      home index { o with watches := [], failed := true, body := body }) (hiFn o.hi) 0x33 := by
  unfold failObj
  rw [ho]
  dsimp only
  rw [hf, if_neg Bool.false_ne_true]
  exact ⟨_, _, rfl⟩

/-- Every node of an object that fails has failed. -/
theorem nodesFailed_failed {hi : BitVec 40} {st : Station} {k : Nat} {x : Node} (h : tget (nodesFailed hi st).nodes k = some x)
    (hx : x.hi = hi) : x.failed = true := by
  rw [nodesFailed, tget_mapValues] at h
  obtain ⟨y, _, rfl⟩ := Option.map_eq_some_iff.1 h
  have hy : y.hi = hi := hx
  simp only [nodeFailed, hy, beq_self_eq_true, Bool.or_true]

/-- At every station that a state has or has not. -/
theorem foldl_nodesFailed (t : State) {hi : BitVec 40} {n k : Nat} {x : Node}
    (h : nodeAt (t.stations.foldl (fun u p => onStation u p.1 (nodesFailed hi)) t) n k = some x) (hx : x.hi = hi) :
    x.failed = true := by
  obtain ⟨hmem, hnot⟩ := station_foldl_onStation (nodesFailed hi) n t.stations t
  by_cases hn : n ∈ t.stations.map Prod.fst
  · obtain ⟨st, hst⟩ := hmem hn
    rw [nodeAt, hst] at h
    exact nodesFailed_failed h hx
  · rw [nodeAt, hnot hn, station_absent hn] at h
    exact absurd h (by simp only [Station.empty, tget, reduceCtorEq, not_false_eq_true])

/-- An object that is replaced leaves the nodes as they are. -/
theorem nodeAt_setObj (s : State) (home index n k : Nat) (o : Obj) : nodeAt (setObj s home index o) n k = nodeAt s n k := by
  by_cases hn : n = home
  · subst hn
    rw [nodeAt, setObj, station_onStation_same, nodeAt]
  · rw [nodeAt, setObj, station_onStation_other _ _ _ _ hn, nodeAt]

/-- What remains of an object that fails. -/
theorem failObj_leaves {s : State} {home index : Nat} {o : Obj} (ho : objAt s home index = some o) (hf : o.failed = false) :
    ∃ p, objAt (failObj s home index) home index = some p ∧ p.failed = true ∧ p.hi = o.hi ∧ p.watches = [] ∧
      ∀ n x, nodeAt (failObj s home index) n (hiIndex o.hi) = some x → x.hi = o.hi → x.failed = true := by
  obtain ⟨t, body, ht⟩ := failObj_eq ho hf
  rw [ht]
  refine ⟨_, objAt_setObj_same _ _ _ _, rfl, rfl, rfl, fun n x hx hhi => ?_⟩
  exact foldl_nodesFailed t ((nodeAt_setObj _ _ _ _ _ _).symm.trans hx) hhi

/-! ## Replays, calibration, credits and samples (R520, R590, R606, R607) -/

/-- A station has links 0 to 3. -/
theorem replay_known {s : State} {n link : Nat} (hn : (tget s.stations n).isSome = true) (hlink : link < 4) :
    ¬ ((tget s.stations n).isNone = true ∨ 4 ≤ link) := by
  rintro (hnone | hmany)
  · rw [Option.isNone_iff_eq_none.1 hnone] at hn
    exact Bool.false_ne_true hn
  · omega

section Replays

variable {s t : State} {n link m : Nat} (hn : (tget s.stations n).isSome = true) (hlink : link < 4)
  (hm : m = if s.clock.fc ≤ (tgetD s.replays (4 * n + link) (0, 0)).2 + 2 * (s.gelari.stages + 1) + 16
    then (tgetD s.replays (4 * n + link) (0, 0)).1 + 1 else 1)
  (ht : t = { s with replays := tput s.replays (4 * n + link) (m, s.clock.fc) })
include hn hlink hm ht

/-- A replay within the limit is counted. -/
theorem replays_counted (hfew : m ≤ setting t 0x410302) : replays s n link = bump t 0x410301 := by
  have hnone := replay_known hn hlink
  subst ht hm
  simp only [replays, hnone, if_false]
  exact if_neg (Nat.not_lt.2 hfew)

/-- One beyond it says that the link is faulty. -/
theorem replays_faulty (hmany : setting t 0x410302 < m) :
    replays s n link = engineResets (raise t 0x72 (generic link 0 0 0 n)) := by
  have hnone := replay_known hn hlink
  subst ht hm
  simp only [replays, hnone, if_false]
  exact if_pos hmany

end Replays

section Calibration

variable {s t : State} {khz : Nat} (ht : t = setSetting (passToAc (runsAt s khz) ((s.now / 25000 + 1) * 25000)) 0x413001 khz)
include ht

/-- A count within the limit. -/
theorem calibrates_within
    (hwithin : 1000 * (max khz t.gelari.fastKhz - min khz t.gelari.fastKhz) ≤ setting t 0x413002 * t.gelari.fastKhz) :
    calibrates s khz = { t with driftAge := t.driftAge - 1 } := by
  subst ht
  simp only [calibrates, Nat.not_lt.2 hwithin, decide_false, Bool.false_and, Bool.false_eq_true, if_false]

/-- One beyond it raises its event, where none was raised of late. -/
theorem calibrates_drifts
    (hoff : setting t 0x413002 * t.gelari.fastKhz < 1000 * (max khz t.gelari.fastKhz - min khz t.gelari.fastKhz))
    (hclock : t.power.fcAck = true) (hage : t.driftAge = 0) :
    calibrates s khz = raise { t with driftAge := 999 } 0x77 (generic khz 0 0 0 0) := by
  subst ht
  simp only [calibrates, hoff, hclock, hage, decide_true, Bool.true_and, beq_self_eq_true, if_true]

end Calibration

/-- The clock runs at a frequency of Table 17.1. -/
theorem runsAt_khz {s : State} {khz : Nat} (hclock : s.power.fcAck = true) (hlo : 400000 ≤ khz) (hhi : khz ≤ 2000000) :
    (runsAt s khz).clock.khz = khz := by
  rw [runsAt, if_pos ⟨hclock, hlo, hhi⟩]

section Credits

variable {s : State} (hlive : portsLive s = true)
include hlive

/-- A push channel gains credit. -/
theorem creditReturns_push {n : Nat} (lane : Nat) (hn : (station s n).state ≠ .absent) :
    creditReturns s (.xpPush n lane) = onStation s n fun st => { st with pushCredit := laneGain st.pushCredit lane } := by
  simp only [creditReturns, hlive, hn, Bool.not_true, Bool.false_eq_true, if_false]

/-- A response channel gains credit, and what waited for it leaves. -/
theorem creditReturns_response {n : Nat} (lane : Nat) (hn : (station s n).state ≠ .absent) :
    creditReturns s (.xpResponse n lane) =
      driveRsp (onStation s n fun st => { st with rspCredit := laneGain st.rspCredit lane }) n
        (station (onStation s n fun st => { st with rspCredit := laneGain st.rspCredit lane }) n).rspQueue.length := by
  simp only [creditReturns, hlive, hn, Bool.not_true, Bool.false_eq_true, if_false]

/-- An initiator's request channel gains credit. -/
theorem creditReturns_request (j : Nat) :
    creditReturns s (.xiRequest j) = initiatorGains s j fun x => { x with reqCredit := x.reqCredit + 1 } := by
  simp only [creditReturns, hlive, Bool.not_true, Bool.false_eq_true, if_false]

/-- So does its write channel. -/
theorem creditReturns_write (j : Nat) :
    creditReturns s (.xiWrite j) = initiatorGains s j fun x => { x with wrCredit := x.wrCredit + 1 } := by
  simp only [creditReturns, hlive, Bool.not_true, Bool.false_eq_true, if_false]

/-- And a link port's transmitter. -/
theorem creditReturns_link (p : Nat) : creditReturns s (.kpTransmit p) = flitCreditReturns s p := by
  simp only [creditReturns, hlive, Bool.not_true, Bool.false_eq_true, if_false]

end Credits

/-- Settles O54, by the command: what a dozing station's hold has done, what a finding names, whether a replay is one too many,
and a channel. -/
theorem upkeep : Obligations.Upkeep := by
  unfold Obligations.Upkeep
  refine ⟨?doze, ?wake, ?first, ?again, ?owed, ?scrub, ?found, ?corrected, ?fails, ?replay, ?calibrate, ?station, ?port, ?sample⟩
  case doze => exact fun s t n hstate hon hwork htow ht => congrArg conclude (dozes_idle hstate hon hwork htow ht)
  case wake => exact fun s n hstate hwork => exec_stationWake hstate hwork
  case first => exact fun s n hstate hrx hpassed => congrArg conclude (holdExpires_first hstate hrx hpassed)
  case again => exact fun s t u n hstate hrx hpassed ht hu => congrArg conclude (holdExpires_again hstate hrx hpassed ht hu)
  case owed =>
    exact fun s hnone hserving => ⟨fun n hn => startOwed_starts hnone hserving hn, fun hn => startOwed_waits hnone hserving hn⟩
  case scrub => exact fun s unit found h => congrArg conclude (scrubs_clocked found h)
  case found =>
    intro s f hs
    refine ⟨fun hc => foundRow_corrected hs hc, fun i o hc ha hstore _ ho => ?object, fun hc ha => ?attribution⟩
    case object => rw [foundRow_uncorrectable hs hc, uncorrectable_object ha hstore ho]
    case attribution => rw [foundRow_uncorrectable hs hc, uncorrectable_attribution ha]
  case corrected => exact fun s kind hlo hhi => setting_countCorrected s hlo hhi
  case fails => exact fun s home index o ho hf => failObj_leaves ho hf
  case replay =>
    intro s t n link m hn hlink hm ht
    exact ⟨fun hfew => congrArg conclude (replays_counted hn hlink hm ht hfew),
      fun hmany => congrArg conclude (replays_faulty hn hlink hm ht hmany)⟩
  case calibrate =>
    intro s t khz hp ht
    refine ⟨fun hwithin => ?within, fun hoff hclock hage => ?drifts, fun hclock hlo hhi => runsAt_khz hclock hlo hhi⟩
    case within => exact congrArg conclude ((powered_on hp).trans (calibrates_within ht hwithin))
    case drifts => exact congrArg conclude ((powered_on hp).trans (calibrates_drifts ht hoff hclock hage))
  case station =>
    intro s n lane hlive hn
    exact ⟨congrArg conclude (creditReturns_push hlive lane hn), congrArg conclude (creditReturns_response hlive lane hn)⟩
  case port =>
    intro s j hlive
    exact ⟨congrArg conclude (creditReturns_request hlive j), congrArg conclude (creditReturns_write hlive j),
      congrArg conclude (creditReturns_link hlive j)⟩
  case sample =>
    rintro s _ hlive rfl
    show execOccupancySample s = _
    rw [execOccupancySample, if_pos hlive, conclude, samples]

end Sys2Proof.Machine
end

/-!
PROOFS of what a clearing of the engine's stores leaves: of every station only its port's and its domain's state, and of the rest
of the engine what is no work of a function.
-/

section
namespace Sys2Proof.Machine

/-! ## What answers leave alone (R481 step 2, R532)

The towpath's answers, the answers to hosts and the credits that return change transfers, counters, events, the answers owed to
links, stations' response channels, links, the transport and the window. -/

/-- A state without what answers change. -/
def unanswered (s : State) : State :=
  { s with
    outputs := [], dict := [], log := [], lossOpen := false, linkWork := [], stations := [], links := []
    transport := State.reset.transport, window := Window.initial }

/-- A station without the responses that wait for their channel. -/
def unspoken (st : Station) : Station := { st with rspQueue := [], rspCredit := (0, 0) }

/-- A state after answers, each station as before but for its responses. -/
structure Noted (s t : State) : Prop where
  rest : unanswered t = unanswered s
  kept : ∀ n, unspoken (station t n) = unspoken (station s n)

/-- A state after answers that have raised no event. -/
structure Answered (s t : State) : Prop extends Noted s t where
  log : t.log = s.log

/-- One after answers that no station gave. -/
structure Told (s t : State) : Prop where
  rest : unanswered t = unanswered s
  stations : t.stations = s.stations
  log : t.log = s.log

section Relations

variable {s t u : State}

theorem Noted.refl (s : State) : Noted s s := ⟨rfl, fun _ => rfl⟩

theorem Answered.refl (s : State) : Answered s s := ⟨.refl s, rfl⟩

theorem Told.refl (s : State) : Told s s := ⟨rfl, rfl, rfl⟩

theorem Noted.trans (h : Noted s t) (k : Noted t u) : Noted s u :=
  ⟨k.rest.trans h.rest, fun n => (k.kept n).trans (h.kept n)⟩

/-- The requests that wait at a station are as before. -/
theorem Noted.rx (h : Noted s t) (n : Nat) : (station t n).rx = (station s n).rx := by
  have hkept := congrArg Station.rx (h.kept n)
  exact hkept

theorem Answered.trans (h : Answered s t) (k : Answered t u) : Answered s u :=
  ⟨h.toNoted.trans k.toNoted, k.log.trans h.log⟩

theorem Told.trans (h : Told s t) (k : Told t u) : Told s u :=
  ⟨k.rest.trans h.rest, k.stations.trans h.stations, k.log.trans h.log⟩

/-- An answer that no station gave leaves what waits at each. -/
theorem Told.answered (h : Told s t) : Answered s t := by
  refine ⟨⟨h.rest, fun n => ?_⟩, h.log⟩
  rw [station, station, h.stations]

variable {α : Type} {f : State → α → State}

theorem Noted.foldl (l : List α) (h : ∀ t x, Noted t (f t x)) (s : State) : Noted s (l.foldl f s) :=
  List.foldlRecOn l f (.refl s) fun t ht x _ => ht.trans (h t x)

theorem Answered.foldl (l : List α) (h : ∀ t x, Answered t (f t x)) (s : State) : Answered s (l.foldl f s) :=
  List.foldlRecOn l f (.refl s) fun t ht x _ => ht.trans (h t x)

theorem Told.foldl (l : List α) (h : ∀ t x, Told t (f t x)) (s : State) : Told s (l.foldl f s) :=
  List.foldlRecOn l f (.refl s) fun t ht x _ => ht.trans (h t x)

end Relations

/-! ## Each answer -/

theorem bumpBy_told (s : State) (k n : Nat) : Told s (bumpBy s k n) := ⟨rfl, rfl, rfl⟩

theorem bump_told (s : State) (k : Nat) : Told s (bump s k) := bumpBy_told s k 1

theorem drive_told (s : State) (l : List Output) : Told s (drive s l) := by
  obtain ⟨o, ho⟩ := drive_outputs s l
  exact ho ▸ ⟨rfl, rfl, rfl⟩

theorem onLink_told (s : State) (p : Nat) (f : Link → Link) : Told s (onLink s p f) := ⟨rfl, rfl, rfl⟩

theorem returnCredit_told (s : State) (p weir op seal_ : Nat) : Told s (returnCredit s p weir op seal_) := by
  unfold returnCredit
  split
  · exact onLink_told s p _
  · exact .refl s

theorem creditReport_told (s : State) (r : Report) : Told s (creditReport s r) := by
  unfold creditReport
  split
  next p _ =>
    unfold returnReportCredit
    split
    · exact drive_told s _
    · split
      · exact .refl s
      · exact onLink_told s _ _
  next => exact .refl s

theorem answerNow_told (s : State) (host command code : Nat) (body : List Byte) : Told s (answerNow s host command code body) := by
  unfold answerNow
  split
  · split <;> exact ⟨rfl, rfl, rfl⟩
  · split
    · exact ⟨rfl, rfl, rfl⟩
    · exact drive_told s _

theorem answerHost_told (s : State) (host command : Nat) (r : Result) (body : List Byte) :
    Told s (answerHost s host command r body) := by
  have hcount : Told s (if r = .ok then s else bump s 0x200702) := by
    split
    · exact .refl s
    · exact bump_told s _
  unfold answerHost
  generalize (if r = .ok then s else bump s 0x200702) = t at hcount ⊢
  dsimp only
  split
  · exact hcount.trans ⟨rfl, rfl, rfl⟩
  · exact hcount.trans (answerNow_told _ _ _ _ _)

/-- A station whose responses alone change. -/
theorem onStation_answered {s : State} {n : Nat} {f : Station → Station} (hf : unspoken (f (station s n)) = unspoken (station s n)) :
    Answered s (onStation s n f) := by
  refine ⟨⟨rfl, fun m => ?_⟩, rfl⟩
  by_cases hm : m = n
  · rw [hm, station_onStation_same, hf]
  · rw [station_onStation_other s n m f hm]

theorem driveRsp_answered (n fuel : Nat) : ∀ s : State, Answered s (driveRsp s n fuel) := by
  induction fuel with
  | zero => exact Answered.refl
  | succ fuel ih =>
    intro s
    rw [driveRsp]
    split
    next => exact .refl s
    next r rest _ =>
      split
      next => exact .refl s
      next l _ =>
        exact ((onStation_answered (f := fun st => { st with rspQueue := rest, rspCredit := laneUse st.rspCredit l r.beats })
          rfl).trans (drive_told _ _).answered).trans (ih _)

theorem putRsp_answered (s : State) (n : Nat) (r : RspOut) : Answered s (putRsp s n r) := by
  have hqueued : Answered s (onStation s n fun st => { st with rspQueue := st.rspQueue ++ [r] }) := onStation_answered rfl
  unfold putRsp
  dsimp only
  split
  · exact hqueued.trans (driveRsp_answered n _ _)
  · exact hqueued

/-- A response to a record goes to its port, and is counted where it refuses. -/
theorem respond_port (s : State) (n : Nat) (aux : Bool) (id xtag : BitVec 12) (r : Rsp) :
    respond s n (.port aux id xtag) r = if r.status.good || r.status == .parked then putRsp s n (.op aux id xtag r)
      else bump (putRsp s n (.op aux id xtag r)) 0x230502 := rfl

theorem respond_answered (s : State) (n : Nat) (via : ReplyTo) (r : Rsp) : Answered s (respond s n via r) := by
  cases via with
  | port aux id xtag =>
    rw [respond_port]
    split
    · exact putRsp_answered s n _
    · exact (putRsp_answered s n _).trans (bump_told _ _).answered
  | closed => exact .refl s
  | _ => exact ⟨⟨rfl, fun _ => rfl⟩, rfl⟩

theorem recordReceived_noted (s : State) (r : OpRec) : Noted s (recordReceived s r) := by
  obtain ⟨o, d, l, b, h⟩ := recordReceived_log s r
  exact h ▸ ⟨rfl, fun _ => rfl⟩

/-- The towpath's answer to a request. -/
theorem towpathTakes_noted (s : State) (x : RxItem) : Noted s (towpathTakes s x) := by
  cases x with
  | record op r =>
    exact (recordReceived_noted s r).trans
      ((putRsp_answered _ _ _).trans ((bump_told _ _).trans (bump_told _ _)).answered).toNoted
  | beacon a => exact ((drive_told s _).answered.trans ((putRsp_answered _ _ _).trans (bump_told _ _).answered)).toNoted
  | access a => exact ((drive_told s _).answered.trans ((putRsp_answered _ _ _).trans (bump_told _ _).answered)).toNoted

/-! ## A station that stops (R481 step 2) -/

/-- The towpath's answer to one open transaction of a station: UNAVAILABLE to one that came from its port, and no more. -/
def unavailable (n : Nat) (t : State) (via : ReplyTo) (acquire scope : Nat) (tag : BitVec 16) : State :=
  match via with
  | .port .. => bump (respond t n via (mkRsp acquire scope tag (plain .unavailable))) 0x2F0301
  | _ => t

theorem unavailable_answered (n : Nat) (t : State) (via : ReplyTo) (acquire scope : Nat) (tag : BitVec 16) :
    Answered t (unavailable n t via acquire scope tag) := by
  unfold unavailable
  split
  · exact (respond_answered _ _ _ _).trans (bump_told _ _).answered
  · exact .refl t

/-- The answers to a station's transactions come before those to the requests that wait in its receive buffer. -/
theorem stopStation_answers (s : State) (n : Nat) :
    ∃ t, Answered s t ∧ stopStation s n = (station s n).rx.foldl towpathTakes t := by
  refine ⟨_, ?_, rfl⟩
  refine (((Answered.foldl _ (fun (t : State) (o : OpenOp) => unavailable_answered n t o.reply o.acquire o.scope o.opTag) s).trans
    (.foldl _ (fun (t : State) (w : Waiter) => unavailable_answered n t w.reply w.acquire w.scope w.opTag) _)).trans
    (.foldl _ (fun (t : State) (x : Adm) => unavailable_answered n t x.via x.acquire x.scope x.opTag) _)).trans (.foldl _ (fun t w => ?_) _)
  dsimp only
  split
  · exact unavailable_answered n t _ _ _ _
  · exact .refl t

theorem stopStation_noted (s : State) (n : Nat) : Noted s (stopStation s n) := by
  obtain ⟨t, ht, heq⟩ := stopStation_answers s n
  rw [heq]
  exact ht.toNoted.trans (.foldl _ towpathTakes_noted t)

/-- One at which no request waits raises no event. -/
theorem stopStation_answered {s : State} {n : Nat} (hrx : (station s n).rx = []) : Answered s (stopStation s n) := by
  obtain ⟨t, ht, heq⟩ := stopStation_answers s n
  rw [heq, hrx]
  exact ht

/-- So do many. -/
theorem stopStations_noted (l : Table Station) (s : State) : Noted s (l.foldl (fun t p => stopStation t p.1) s) :=
  List.foldlRecOn (motive := Noted s) l _ (.refl s) fun t ht p _ => ht.trans (stopStation_noted t p.1)

/-- Without an event, where no request waits. -/
theorem stopStations_answered (l : Table Station) (s : State) (hrx : ∀ n, (station s n).rx = []) :
    Answered s (l.foldl (fun t p => stopStation t p.1) s) :=
  List.foldlRecOn (motive := Answered s) l _ (.refl s) fun _ ht p _ =>
    ht.trans (stopStation_answered ((ht.rx p.1).trans (hrx p.1)))

/-! ## Stations without work -/

/-- A station of which only its port's channels, its domain's isolation, its state and the time that it has idled are left. -/
def Bare (st : Station) : Prop :=
  ∃ x q c p i d, st = { Station.empty x with rspQueue := q, rspCredit := c, pushCredit := p, isolated := i, idleSince := d }

theorem bare_empty (x : StationState) : Bare (Station.empty x) := ⟨x, [], (0, 0), (0, 0), false, 0, rfl⟩

theorem bare_clearStation (st : Station) (x : StationState) : Bare (clearStation st x) :=
  ⟨x, st.rspQueue, st.rspCredit, st.pushCredit, st.isolated, 0, rfl⟩

/-- Such a station may change its state, its isolation and its time. -/
theorem Bare.moved {st : Station} (h : Bare st) (x : StationState) (i : Bool) (d : Nat) :
    Bare { st with state := x, isolated := i, idleSince := d } := by
  obtain ⟨_, q, c, p, _, _, rfl⟩ := h
  exact ⟨x, q, c, p, i, d, rfl⟩

/-- Every station is without work. -/
def AllBare (s : State) : Prop := ∀ n, Bare (station s n)

theorem AllBare.onStation {s : State} (h : AllBare s) (n : Nat) {f : Station → Station} (hf : ∀ st, Bare st → Bare (f st)) :
    AllBare (onStation s n f) := by
  intro m
  by_cases hm : m = n
  · rw [hm, station_onStation_same]
    exact hf _ (h n)
  · rw [station_onStation_other s n m f hm]
    exact h m

/-- A clearing of every station of a state leaves none with work. -/
theorem allBare_cleared (s : State) (left : Nat → StationState → StationState) :
    AllBare (s.stations.foldl (fun t p => setStation t p.1 (clearStation p.2 (left p.1 p.2.state))) s) := by
  have hall : ∀ (l : Table Station) (t : State) (n : Nat), (n ∈ l.map Prod.fst ∨ Bare (station t n)) →
      Bare (station (l.foldl (fun t p => setStation t p.1 (clearStation p.2 (left p.1 p.2.state))) t) n) := by
    intro l
    induction l with
    | nil => exact fun _ n h => h.resolve_left List.not_mem_nil
    | cons p l ih =>
      intro t n h
      refine ih _ n ?_
      by_cases hn : n = p.1
      · rw [hn, station_setStation_same]
        exact .inr (bare_clearStation _ _)
      · rw [station_setStation_other _ _ _ _ hn]
        exact h.imp_left fun hmem => (List.mem_cons.1 hmem).resolve_left hn
  intro n
  refine hall s.stations s n ?_
  by_cases hn : n ∈ s.stations.map Prod.fst
  · exact .inl hn
  · rw [station_absent hn]
    exact .inr (bare_empty _)

/-! ## The stores (steps 1 to 3 of R481, Z1 to Z3 of Table 15.14) -/

/-- What a clearing of the stores leaves before it empties the engine's own tables: answers have been given, and the stations are
without work. -/
structure Stopped (s t : State) : Prop where
  rest : unanswered t = unanswered s
  bare : AllBare t
  log : (∀ n, (station s n).rx = []) → t.log = s.log

theorem Stopped.told {s t u : State} (h : Stopped s t) (k : Told t u) : Stopped s u := by
  refine ⟨k.rest.trans h.rest, fun n => ?_, fun hrx => k.log.trans (h.log hrx)⟩
  rw [station, k.stations]
  exact h.bare n

/-- A state in which stations have been written is the same but for them. -/
theorem unanswered_setStations (f : Nat × Station → Station) (l : Table Station) (s : State) :
    unanswered (l.foldl (fun t p => setStation t p.1 (f p)) s) = unanswered s ∧
    (l.foldl (fun t p => setStation t p.1 (f p)) s).log = s.log := by
  induction l generalizing s with
  | nil => exact ⟨rfl, rfl⟩
  | cons p l ih => exact ih (setStation s p.1 (f p))

/-- The stations stop and are cleared. -/
theorem stopped_stations {s t : State} (left : Nat → StationState → StationState)
    (ht : t = s.stations.foldl (fun t p => stopStation t p.1) s) :
    Stopped s (t.stations.foldl (fun t p => setStation t p.1 (clearStation p.2 (left p.1 p.2.state))) t) := by
  obtain ⟨hrest, hlog⟩ := unanswered_setStations (fun p => clearStation p.2 (left p.1 p.2.state)) t.stations t
  have hnoted : Noted s t := by rw [ht]; exact stopStations_noted s.stations s
  refine ⟨hrest.trans hnoted.rest, allBare_cleared t left, fun hrx => hlog.trans ?_⟩
  rw [ht]
  exact (stopStations_answered s.stations s hrx).log

/-- A clearing of the stores, as the state in which they have stopped with the engine's own tables empty. -/
theorem clearStores_eq (s : State) (left : Nat → StationState → StationState) :
    ∃ (t : State) (d : Table Nat) (j : Table Slice) (x : Table XiPort) (e : Entropy), Stopped s t ∧ clearStores s left =
      { t with
        course := [], fnQueue := [], linkWork := [], shadowDue := [], keepers := [], indexGen := [], words := [], journal := []
        fns := [], tagKey := 0, dict := d, slices := j, xi := x, seals := [], entropy := e } := by
  generalize hclear : clearStores s left = v
  unfold clearStores at hclear
  extract_lets s1 s2 kept waits freed s3 s4 s5 keyNeed firstKept at hclear
  subst hclear
  refine ⟨s5, _, _, _, _, ?_, rfl⟩
  have h1 : s1 = s.stations.foldl (fun t p => stopStation t p.1) s := rfl
  have h2 : Stopped s s2 := stopped_stations left h1
  have h3 : Told s2 s3 := by
    refine .foldl _ (fun t q => ?_) s2
    split
    · exact .refl t
    · exact returnCredit_told t q 0 0 _
  have h4 : Told s3 s4 := by
    refine .foldl _ (fun t p => ?_) s3
    split
    · exact answerHost_told t _ _ _ _
    · exact .refl t
  have h5 : Told s4 s5 := (Told.foldl _ (fun t w => answerHost_told t _ _ _ _) s4).trans (.foldl _ creditReport_told _)
  exact ((h2.told h3).told h4).told h5

/-- A state whose stations are without work, and whose own tables are empty, is cleared. -/
theorem cleared_of_bare {t : State} (hbare : AllBare t) (hmessages : t.course = [] ∧ t.linkWork = [] ∧ t.shadowDue = [])
    (hfunctions : t.fns = [] ∧ t.fnQueue = [])
    (hnames : t.keepers = [] ∧ t.indexGen = [] ∧ t.words = [] ∧ t.journal = []) (hseals : t.seals = []) (hkey : t.tagKey = 0) :
    Cleared t := by
  refine ⟨fun n => ?_, hmessages, hfunctions, hnames, hseals, hkey⟩
  obtain ⟨x, q, c, p, i, d, hn⟩ := hbare n
  rw [hn]
  exact ⟨rfl, rfl, rfl, rfl, rfl, rfl, rfl, rfl, rfl, rfl, rfl, rfl, rfl, rfl, rfl, rfl, rfl⟩

section Stores

variable (s : State) (left : Nat → StationState → StationState)

/-- A clearing of the stores leaves nothing of the functions' work. -/
theorem clearStores_cleared : Cleared (clearStores s left) := by
  obtain ⟨t, d, j, x, e, hstopped, heq⟩ := clearStores_eq s left
  rw [heq]
  exact cleared_of_bare hstopped.bare ⟨rfl, rfl, rfl⟩ ⟨rfl, rfl⟩ ⟨rfl, rfl, rfl, rfl⟩ rfl rfl

/-- Its stations are without work. -/
theorem clearStores_bare : AllBare (clearStores s left) := by
  obtain ⟨t, d, j, x, e, hstopped, heq⟩ := clearStores_eq s left
  rw [heq]
  exact hstopped.bare

/-- It keeps what is not the functions'. -/
theorem clearStores_keeps :
    (clearStores s left).owner = s.owner ∧ (clearStores s left).gelari = s.gelari ∧ (clearStores s left).clock = s.clock ∧
    (clearStores s left).debug = s.debug ∧ (clearStores s left).fenced = s.fenced ∧
    (clearStores s left).partitions = s.partitions ∧ (clearStores s left).subs = s.subs := by
  obtain ⟨t, d, j, x, e, hstopped, heq⟩ := clearStores_eq s left
  have howner := congrArg State.owner hstopped.rest
  have hgelari := congrArg State.gelari hstopped.rest
  have hclock := congrArg State.clock hstopped.rest
  have hdebug := congrArg State.debug hstopped.rest
  have hfenced := congrArg State.fenced hstopped.rest
  have hparts := congrArg State.partitions hstopped.rest
  have hsubs := congrArg State.subs hstopped.rest
  rw [heq]
  exact ⟨howner, hgelari, hclock, hdebug, hfenced, hparts, hsubs⟩

/-- Where no request waits at a station, it raises no event. -/
theorem clearStores_log (hrx : ∀ n, (station s n).rx = []) : (clearStores s left).log = s.log := by
  obtain ⟨t, d, j, x, e, hstopped, heq⟩ := clearStores_eq s left
  rw [heq]
  exact hstopped.log hrx

end Stores

end Sys2Proof.Machine
end

/-!
PROOFS of engine resets, the management controller, power, the clock and entropy: what an engine reset and a loss of power clear and
keep, the power-up sequence, the fast clock, domains, and the words that the entropy source gives.
-/

section
namespace Sys2Proof.Machine

/-! ## Domains change power and stations alone (R565 to R567) -/

/-- A state without its power sequence and stations. -/
def unpowered (s : State) : State := { s with power := State.reset.power, stations := [] }

/-- A state after steps of power domains: the rest is as before, and no station has gained work. -/
structure Domained (s t : State) : Prop where
  rest : unpowered t = unpowered s
  bare : AllBare s → AllBare t

/-- So it is the state before, with its own power sequence and stations. -/
theorem Domained.eq {s t : State} (h : Domained s t) : ∃ p st, t = { s with power := p, stations := st } := by
  refine ⟨t.power, t.stations, ?_⟩
  calc t = { unpowered t with power := t.power, stations := t.stations } := rfl
    _ = { unpowered s with power := t.power, stations := t.stations } := by rw [h.rest]

section Domains

theorem Domained.refl (s : State) : Domained s s := ⟨rfl, id⟩

theorem Domained.trans {s t u : State} (h : Domained s t) (k : Domained t u) : Domained s u :=
  ⟨k.rest.trans h.rest, fun hs => k.bare (h.bare hs)⟩

/-- Steps of domains, one after another. -/
theorem Domained.foldl {α : Type} {f : State → α → State} (l : List α) (h : ∀ t x, Domained t (f t x)) (s : State) :
    Domained s (l.foldl f s) :=
  List.foldlRecOn l f (.refl s) fun t ht x _ => ht.trans (h t x)

/-- A station's state, isolation and time. -/
theorem onStation_domained (s : State) (n : Nat) {f : Station → Station} (hf : ∀ st, Bare st → Bare (f st)) :
    Domained s (onStation s n f) := ⟨rfl, fun hs => hs.onStation n hf⟩

/-- The power sequence's own state. -/
theorem power_domained {s t : State} (p : Power) (h : Domained s t) : Domained s { t with power := p } := ⟨h.rest, h.bare⟩

theorem wantDomain_domained (s : State) (n : Nat) : Domained s (wantDomain s n) := by
  unfold wantDomain
  split
  · exact .refl s
  · exact power_domained _ (onStation_domained s n fun st hst => hst.moved st.state true st.idleSince)

theorem dropDomain_domained (s : State) (n : Nat) : Domained s (dropDomain s n) :=
  power_domained _ (onStation_domained s n fun st hst => hst.moved st.state true st.idleSince)

theorem spareOff_domained (s : State) (n : Nat) : Domained s (spareOff s n) := by
  unfold spareOff
  split
  · exact .refl s
  · split
    · split
      · exact dropDomain_domained s n
      · exact .refl s
    · exact power_domained _ (onStation_domained s n fun st hst =>
        hst.moved (if st.state = .absent then .absent else .off) true st.idleSince)

theorem resetEnds_domained (s : State) : Domained s (resetEnds s) := by
  unfold resetEnds
  split
  · refine power_domained _ (.foldl _ (fun t n => ?_) s)
    split
    · exact onStation_domained t n fun st hst => hst.moved _ false _
    · exact .refl t
  · exact .refl s

end Domains

/-! ## The engine reset (R481, R482, R610, Table 14.2) -/

/-- A partition after a clearing of the engine: one that is frozen is READY, one that resets begins again. -/
def partitionCleared (x : Partition) : Partition :=
  match x.state with
  | .frozen => { x with state := .ready, step := 0, waiting := [], blocks := [] }
  | .resetting => { x with step := 6 }
  | _ => x

/-- A frozen partition is READY then. -/
theorem partitionCleared_ready {x : Partition} (h : x.state = .frozen) : (partitionCleared x).state = .ready := by
  simp only [partitionCleared, h]

/-- Every partition keeps its fault record. -/
theorem partitionCleared_fault (x : Partition) : (partitionCleared x).fault = x.fault := by
  unfold partitionCleared
  split <;> rfl

section Reset

variable (s : State) (left : Nat → StationState → StationState)

/-- A clearing of the engine changes every partition so. -/
theorem partAt_clearEngine (p : Nat) : partAt (clearEngine s left) p = partitionCleared (partAt s p) := by
  obtain ⟨_, _, _, _, _, hparts, _⟩ := clearStores_keeps s left
  have hmap : (clearEngine s left).partitions = (clearStores s left).partitions.map fun q => (q.1, partitionCleared q.2) := rfl
  rw [partAt, partAt, tgetD, tgetD, hmap, hparts, tget_mapValues]
  cases tget s.partitions p <;> rfl

/-- It leaves no entry that is not kept. -/
theorem dict_clearEngine {k : Nat} (hk : keptKey k = false) : tget (clearEngine s left).dict k = none := by
  have hdict : (clearEngine s left).dict = (clearStores s left).dict.filter fun p => keptKey p.1 := rfl
  rw [hdict]
  cases hget : tget ((clearStores s left).dict.filter fun p => keptKey p.1) k with
  | none => rfl
  | some v =>
    obtain ⟨_, hkept⟩ := List.mem_filter.1 (mem_of_tget _ _ _ hget)
    rw [hk] at hkept
    exact absurd hkept Bool.false_ne_true

/-- An engine reset is the clearing of the engine, then the domains' steps and a need of a tag key. -/
theorem engineResets_eq :
    ∃ (p : Power) (st : Table Station) (e : Entropy),
      engineResets s = { clearEngine s resetState with power := p, stations := st, entropy := e } ∧
      e.needs.contains .tagKey = true ∧ AllBare (engineResets s) := by
  unfold engineResets
  generalize hclear : clearEngine s resetState = t
  have hbare : AllBare t := hclear ▸ clearStores_bare s resetState
  dsimp only
  generalize hspare : ([64, 65] : List Nat).foldl spareOff { t with power := { t.power with resetting := true } } = u
  generalize hwant : (gridStations u).foldl wantDomain u = v
  have hoff : Domained t u := hspare ▸ (power_domained { t.power with resetting := true } (.refl t)).trans (.foldl _ spareOff_domained _)
  have hon : Domained t v := hoff.trans (hwant ▸ .foldl _ wantDomain_domained u)
  have hends := resetEnds_domained (wantEntropy v .tagKey)
  have hall := hends.bare (hon.bare hbare)
  obtain ⟨p, st, hv⟩ := hon.eq
  obtain ⟨p', st', hw⟩ := hends.eq
  refine ⟨p', st', (wantEntropy v .tagKey).entropy, ?_, ?_, hall⟩
  · rw [hw, hv]
    rfl
  · exact List.contains_iff_mem.2 (List.mem_append_right _ (List.mem_singleton_self _))

/-- What an engine reset clears and keeps of each kind of state. -/
theorem engineResets_leaves {t : State} (ht : t = engineResets s) :
    Cleared t ∧ t.fnDict = [] ∧ (∀ k, keptKey k = false → tget t.dict k = none) ∧ t.coreCmds = [] ∧ t.service = none ∧
    t.substitute = [] ∧ t.maps.partition = [] ∧ t.entropy.needs.contains .tagKey = true ∧
    (∀ p, (partAt s p).state = .frozen → (partAt t p).state = .ready) ∧
    (∀ p, (partAt t p).fault = (partAt s p).fault) ∧
    t.owner = s.owner ∧ t.gelari = s.gelari ∧ t.clock = s.clock ∧ t.debug = s.debug ∧ t.fenced = s.fenced ∧
    ((∀ n, (station s n).rx = []) → t.log = s.log ∧ t.subs = s.subs) := by
  obtain ⟨p, st, e, heq, htag, hbare⟩ := engineResets_eq s
  obtain ⟨howner, hgelari, hclock, hdebug, hfenced, _, hsubs⟩ := clearStores_keeps s resetState
  obtain ⟨_, hmessages, hfunctions, hnames, hseals, hkey⟩ := clearStores_cleared s resetState
  rw [← ht] at hbare heq
  have hpart : ∀ k, partAt t k = partitionCleared (partAt s k) := by
    intro k
    rw [heq]
    exact partAt_clearEngine s resetState k
  have hdict : ∀ k, keptKey k = false → tget t.dict k = none := by
    intro k hk
    rw [heq]
    exact dict_clearEngine s resetState hk
  refine ⟨?cleared, ?_, hdict, ?_, ?_, ?_, ?_, ?tag, fun k hk => ?ready, fun k => ?fault, ?_, ?_, ?_, ?_, ?_, fun hrx => ⟨?_, ?_⟩⟩
  case cleared => rw [heq] at hbare ⊢; exact cleared_of_bare hbare hmessages hfunctions hnames hseals hkey
  case tag => rw [heq]; exact htag
  case ready => rw [hpart]; exact partitionCleared_ready hk
  case fault => rw [hpart]; exact partitionCleared_fault _
  all_goals rw [heq]
  · rfl
  · rfl
  · rfl
  · rfl
  · rfl
  · exact howner
  · exact hgelari
  · exact hclock
  · exact hdebug
  · exact hfenced
  · exact clearStores_log s resetState hrx
  · exact hsubs

end Reset

/-- A loss of power leaves the stations of the configuration without work. -/
theorem allBare_powerLost (s : State) : AllBare (powerLost s) := by
  intro n
  cases hget : tget (powerLost s).stations n with
  | none =>
    rw [station, tgetD, hget]
    exact bare_empty _
  | some st =>
    rw [station, tgetD, hget]
    rcases List.mem_append.1 (mem_of_tget _ _ _ hget) with hmem | hmem
    · obtain ⟨_, _, h⟩ := List.mem_map.1 hmem
      cases h
      exact bare_empty _
    · obtain ⟨_, _, h⟩ := List.mem_map.1 hmem
      cases h
      exact (bare_empty .off).moved .off true 0

/-! ## The management controller (R454, R605) -/

section Controller

variable {s t u : State}

/-- An expiry of its watchdog begins the next window, and counts towards the engine's. -/
theorem watchdogExpires_eq (hu : u = bump { restarts t 1 with watchdogDue := t.now + setting t 0x2E0101 } 0x2E0102) :
    watchdogExpires t = advanceCount (raise u 0x08 (generic (setting u 0x2E0102) 0 0 0 0)) := by
  subst hu
  rfl

variable {why since : Nat} (hr : s.restarting = some (why, since))
include hr

/-- The controller resumes: the lease has been extended by the restart, and the answers that waited leave. -/
theorem controllerResumes_restarted :
    controllerResumes s = raise (releaseAnswers { extendLease s (s.now - since) with
      restarting := none, watchdogDue := s.now + setting s 0x2E0101 }) 0x76 (generic why 0 0 0 0) := by
  have hlength : restartLength s = s.now - since := by simp only [restartLength, hr]
  simp only [controllerResumes, hr, hlength]

/-- One that does not resume in time is an expiry. -/
theorem restartTimesOut_restarted :
    restartTimesOut s = watchdogExpires (passToAc s (since + setting s 0x412001)) := by
  simp only [restartTimesOut, hr]

end Controller

/-! ## The power-up sequence and the fast clock (R551 to R553, R560, R561) -/

section Power

variable {s t u v : State}

/-- The always-on reset is released. -/
theorem aonReleased_lost (hp : s.power.phase = 1) :
    aonReleased s = powerUp (wantEntropy { s with
      clock := ⟨0, 0, 0, s.clock.khz⟩
      power := { s.power with phase := 2, aonRstN := true, fcReq := true, pdReq := gridStations s } } .uuid) :=
  if_neg (not_not_intro hp)

/-- It falls. -/
theorem aonFalls_powered (hp : s.power.phase ≠ 1) : aonFalls s = powerLost s := if_neg hp

section Clock

variable (hack : s.power.fcAck = false)
include hack

/-- The fast clock comes back: an engine reset, and the responses that waited are driven where the ports answer. -/
theorem fcRises_again (hp : s.power.phase = 0) (hreq : s.power.fcReq = true)
    (hu : u = engineResets { s with power := { s.power with fcAck := true } }) :
    fcRises s = if portsLive u then driveWaiting u else u := by
  subst hu
  simp only [fcRises, hack, hp, hreq, Bool.false_eq_true, or_self, Bool.not_true, if_false, show ¬ (0 : Nat) = 1 from by omega,
    show ¬ (0 : Nat) = 2 from by omega]

/-- It comes in the power-up sequence. -/
theorem fcRises_first (hp : s.power.phase = 2) : fcRises s = powerUp { s with power := { s.power with fcAck := true } } := by
  simp only [fcRises, hack, hp, Bool.false_eq_true, or_self, if_true, if_false, show ¬ (2 : Nat) = 1 from by omega]

end Clock

variable (hack : s.power.fcAck = true)
include hack

/-- A clock that is not requested falls. -/
theorem fcFalls_released (hreq : s.power.fcReq = false) : fcFalls s = { s with power := { s.power with fcAck := false } } := by
  simp only [fcFalls, hack, hreq, Bool.not_true, Bool.not_false, Bool.false_eq_true, if_true, if_false]

/-- One that is requested is lost: every station that the configuration has is in reset. -/
theorem fcFalls_lost (hreq : s.power.fcReq = true) (ht : t = { s with power := { s.power with fcAck := false } })
    (hu : u = bump (bumpBy t 0x210406 (dozingFc t)) 0x400102) (hv : v = raise u 0x68 (generic (setting u 0x400102) 0 0 0 0)) :
    fcFalls s = { v with stations := v.stations.map fun p =>
      (p.1, if p.2.state = .absent then p.2 else { p.2 with state := .reset }) } := by
  subst hv hu ht
  simp only [fcFalls, hack, hreq, Bool.not_true, Bool.false_eq_true, if_false]

end Power

/-! ## Domains (R565 to R567) -/

section Acknowledge

variable {s t : State} {n : Nat}

section Rise

variable (hack : s.power.pdAck.contains n = false) (hreq : s.power.pdReq.contains n = true)
include hack hreq

/-- A domain that is wanted rises in the power-up sequence. -/
theorem domainRises_first (hp : s.power.phase ≠ 0) :
    domainRises s n = powerUp { s with power := { s.power with
      pdAck := s.power.pdAck ++ [n], pdDue := tdel s.power.pdDue n } } := by
  simp only [domainRises, hack, hreq, hp, Bool.not_true, Bool.false_eq_true, or_self, ne_eq, not_false_eq_true, if_true, if_false]

variable (hp : s.power.phase = 0)
  (ht : t = bump { s with power := { s.power with pdAck := s.power.pdAck ++ [n], pdDue := tdel s.power.pdDue n } } 0x400202)
include hp ht

/-- After it, the station waits in reset, or its stores are written. -/
theorem domainRises_counted :
    domainRises s n = if t.power.resetting || !t.power.fcAck
      then onStation t n fun st => { clearStation st .reset with isolated := !t.power.fcAck } else domainStores t n := by
  subst ht
  have hrises : ¬ (s.power.pdAck.contains n = true ∨ (!s.power.pdReq.contains n) = true) := by
    rw [hack, hreq]
    decide
  exact (if_neg hrises).trans (if_neg (not_not_intro hp))

/-- One that rises in an engine reset or without the fast clock leaves its station in reset. -/
theorem domainRises_held (hheld : s.power.resetting = true ∨ s.power.fcAck = false) :
    domainRises s n = onStation t n fun st => { clearStation st .reset with isolated := !s.power.fcAck } := by
  have hres : t.power.resetting = s.power.resetting := ht ▸ rfl
  have hfc : t.power.fcAck = s.power.fcAck := ht ▸ rfl
  have hwait : (s.power.resetting || !s.power.fcAck) = true := by
    rcases hheld with h | h <;> rw [h]
    · rfl
    · rw [Bool.not_false, Bool.or_true]
  rw [domainRises_counted hack hreq hp ht, hres, hfc, if_pos hwait]

/-- Otherwise its stores are written. -/
theorem domainRises_stores (hres : s.power.resetting = false) (hfc : s.power.fcAck = true) :
    domainRises s n = domainStores t n := by
  have hres' : t.power.resetting = false := ht ▸ hres
  have hfc' : t.power.fcAck = true := ht ▸ hfc
  rw [domainRises_counted hack hreq hp ht, hres', hfc', Bool.not_true, Bool.or_self, if_neg Bool.false_ne_true]

end Rise

section Fall

variable (hack : s.power.pdAck.contains n = true) (hreq : s.power.pdReq.contains n = false)
  (ht : t = { s with power := { s.power with pdAck := s.power.pdAck.filter (· != n), pdDue := tdel s.power.pdDue n } })
include hack hreq ht

/-- A domain that was to be off falls, and what its station hosts with it. -/
theorem domainFalls_off (hdue : (tget s.power.pdDue n).isSome = true) :
    domainFalls s n = onStation (hostedFalls t n) n fun st => { Station.empty .off with
      rspQueue := st.rspQueue, rspCredit := st.rspCredit, pushCredit := st.pushCredit, isolated := true } := by
  subst ht
  simp only [domainFalls, hack, hreq, hdue, Bool.not_true, Bool.false_eq_true, or_self, if_true, if_false, clearStation]

/-- One for which no handshake is open falls alone. -/
theorem domainFalls_quiet (hdue : tget s.power.pdDue n = none) : domainFalls s n = t := by
  subst ht
  simp only [domainFalls, hack, hreq, hdue, Bool.not_true, Option.isSome_none, Bool.false_eq_true, or_self, if_false]

end Fall

/-- A handshake that is not answered in time, with no service command that waits for it. -/
theorem domainFails_alone (hopen : handshakeOpen s n = true) (ht : t = domainTimesOut s n) (hnone : t.service = none) :
    domainFails s n = t := by
  simp only [domainFails, hopen, ← ht, hnone, Bool.not_true, Bool.false_eq_true, if_false]

end Acknowledge

/-! ## Entropy (R548) -/

section Entropy

variable {s t : State} {need : Need} {more : List Need} (hneeds : s.entropy.needs = need :: more) (hreq : s.entropy.req = true)
include hneeds hreq

/-- A word that is not the need's last is kept. -/
theorem entropyTaken_more (w : Word) (hfew : s.entropy.words.length + 1 < need.words) :
    entropyTaken s w = { s with entropy := { s.entropy with words := s.entropy.words ++ [w] } } := by
  have hlen : (s.entropy.words ++ [w]).length < need.words := by rw [List.length_append]; exact hfew
  simp only [entropyTaken, hneeds, hreq, hlen, Bool.not_true, Bool.false_eq_true, if_true, if_false]

section Last

variable (w : Word) (hall : need.words ≤ s.entropy.words.length + 1)
include hall

/-- The last word of the UUID's. -/
theorem entropyTaken_uuid (hneed : need = .uuid) :
    entropyTaken s w = setSetting (nextNeed s) 0x200301 (uuidOf (s.entropy.words ++ [w])) := by
  have hlen : ¬ (s.entropy.words ++ [w]).length < need.words := by rw [List.length_append]; exact Nat.not_lt.2 hall
  subst hneed
  simp only [entropyTaken, hneeds, hreq, hlen, Bool.not_true, Bool.false_eq_true, if_false]

/-- Of the tag key's. -/
theorem entropyTaken_tagKey (hneed : need = .tagKey) :
    entropyTaken s w = unlockEnds { nextNeed s with tagKey := BitVec.ofNat 128 (wordsNat (s.entropy.words ++ [w])) } := by
  have hlen : ¬ (s.entropy.words ++ [w]).length < need.words := by rw [List.length_append]; exact Nat.not_lt.2 hall
  subst hneed
  simp only [entropyTaken, hneeds, hreq, hlen, Bool.not_true, Bool.false_eq_true, if_false]

/-- And of a function's key: its enable ends, and the requests that waited for it go. -/
theorem entropyTaken_fnKey {f : Nat} (hneed : need = .fnKey f) :
    entropyTaken s w = fnRequestsGo ((nextNeed s).fnQueue.length + 1)
      (enableEnds (nextNeed s) f (BitVec.ofNat 256 (wordsNat (s.entropy.words ++ [w])))) := by
  have hlen : ¬ (s.entropy.words ++ [w]).length < need.words := by rw [List.length_append]; exact Nat.not_lt.2 hall
  subst hneed
  simp only [entropyTaken, hneeds, hreq, hlen, Bool.not_true, Bool.false_eq_true, if_false]

end Last

omit hneeds in
/-- An error discards the words taken, and raises its event at its number of failures. -/
theorem entropyFails_requested (ht : t = bump { s with entropy := { s.entropy with
      words := [], req := false, fails := s.entropy.fails + 1, retryAt := s.now + setting s 0x2F0501 } } 0x2F0503) :
    entropyFails s = if s.entropy.fails + 1 = setting t 0x2F0502 then raise t 0x61 (generic (s.entropy.fails + 1) 0 0 0 0) else t := by
  subst ht
  simp only [entropyFails, hreq, Bool.not_true, Bool.false_eq_true, if_false]

end Entropy

/-- The request rises again once its time has passed. -/
theorem entropyAgain_due {s t : State} (hreq : s.entropy.req = false) (hneeds : s.entropy.needs ≠ [])
    (ht : t = passToAc s s.entropy.retryAt) : entropyAgain s = { t with entropy := { t.entropy with req := true } } := by
  subst ht
  simp only [entropyAgain, hreq, hneeds, List.isEmpty_iff, Bool.false_eq_true, or_self, if_false]

/-- Settles O53, by the command: the owner's three, an engine reset and a loss of power by what each kind of state keeps, the
controller's restarts, the power-up sequence, the fast clock, a domain by its handshake, and a need of entropy. -/
theorem engineAndPower : Obligations.EngineAndPower := by
  unfold Obligations.EngineAndPower
  refine ⟨?owner, ?reset, ?cleared, ?lost, ?watchdog, ?controller, ?power, ?clock, ?domain, ?entropy, ?again⟩
  case owner =>
    intro s t q
    refine ⟨fun h => ?resets, fun h hoos => ?clears, fun h => ?restarts⟩
    case resets => exact ownerByte_ok (by decide) (by omega) h rfl
    case clears =>
      refine ownerByte_ok (by decide) (by omega) h ?_
      show clearsOos t = _
      rw [clearsOos, if_pos hoos]
    case restarts => exact ownerByte_ok (by decide) (by omega) h rfl
  case reset =>
    intro s hp
    show execEngineReset s = _
    rw [execEngineReset, if_pos hp, conclude]
  case cleared => exact fun s t ht => engineResets_leaves s ht
  case lost =>
    rintro s _ rfl
    exact ⟨cleared_of_bare (allBare_powerLost s) ⟨rfl, rfl, rfl⟩ ⟨rfl, rfl⟩ ⟨rfl, rfl, rfl, rfl⟩ rfl rfl, rfl, rfl, rfl, rfl, rfl,
      rfl, rfl, rfl, rfl, rfl, rfl, rfl, rfl, rfl, rfl, rfl⟩
  case watchdog =>
    intro s t u hp ht hu
    refine congrArg conclude ((powered_on hp).trans ?_)
    rw [heartbeatMissed, ← ht, watchdogExpires_eq hu]
  case controller =>
    intro s t u why since hr
    refine ⟨congrArg conclude (controllerResumes_restarted hr), fun ht hu => congrArg conclude ?_⟩
    rw [restartTimesOut_restarted hr, ← ht, watchdogExpires_eq hu]
  case power =>
    intro s
    refine ⟨fun hp => congrArg conclude (aonReleased_lost hp), fun hp => congrArg conclude (aonFalls_powered hp), rfl, rfl,
      fun u hp hack hreq hu => ⟨fun hlive => congrArg conclude ?live, fun hlive => congrArg conclude ?silent⟩,
      fun hp hack => congrArg conclude (fcRises_first hack hp), fun hack hreq => congrArg conclude (fcFalls_released hack hreq)⟩
    case live => rw [fcRises_again hack hp hreq hu, if_pos hlive]
    case silent => rw [fcRises_again hack hp hreq hu, hlive, if_neg Bool.false_ne_true]
  case clock => exact fun s t u v hack hreq ht hu hv => congrArg conclude (fcFalls_lost hack hreq ht hu hv)
  case domain =>
    intro s t n
    exact ⟨fun hack hreq hp hheld ht => congrArg conclude (domainRises_held hack hreq hp ht hheld),
      fun hack hreq hp => congrArg conclude (domainRises_first hack hreq hp),
      fun hack hreq hp hres hfc ht => congrArg conclude (domainRises_stores hack hreq hp ht hres hfc),
      fun hack hreq hdue ht => congrArg conclude (domainFalls_off hack hreq ht hdue),
      fun hack hreq hdue => congrArg conclude (domainFalls_quiet hack hreq rfl hdue),
      fun hopen ht hnone => congrArg conclude (domainFails_alone hopen ht hnone)⟩
  case entropy =>
    intro s t need more w hneeds hreq
    refine ⟨fun hfew => congrArg conclude (entropyTaken_more hneeds hreq w hfew),
      fun f hall hneed => congrArg conclude (entropyTaken_fnKey hneeds hreq w hall hneed),
      fun ht => ⟨fun hfew => congrArg conclude ?few, fun hmost => congrArg conclude ?most⟩,
      fun hall hneed => congrArg conclude (entropyTaken_uuid hneeds hreq w hall hneed),
      fun hall hneed => congrArg conclude (entropyTaken_tagKey hneeds hreq w hall hneed)⟩
    case few => rw [entropyFails_requested hreq ht, if_neg hfew]
    case most => rw [entropyFails_requested hreq ht, if_pos hmost]
  case again => exact fun s t hreq hneeds ht => congrArg conclude (entropyAgain_due hreq hneeds ht)

end Sys2Proof.Machine
end

/-!
PROOFS of debug access and of the service commands: an unlock and a lock, how each service command begins, the steps of a station's
drain, a test's result, and the drain of every other unit.
-/

section
namespace Sys2Proof.Machine

/-! ## Debug access (R513 to R516) -/

section Debug

variable {s u v : State}

/-- Steps Z1 to Z3 clear every store and keep the ownership. -/
theorem zeroised_leaves (hu : u = bump { clearStores (bumpBy s 0x210406 (dozingFc s)) unlockState with debug := .zeroising } 0x200802) :
    Cleared u ∧ u.owner = s.owner ∧ ((∀ n, (station s n).rx = []) → u.log = s.log ∧ u.subs = s.subs) := by
  obtain ⟨howner, _, _, _, _, _, hsubs⟩ := clearStores_keeps (bumpBy s 0x210406 (dozingFc s)) unlockState
  have hlog := clearStores_log (bumpBy s 0x210406 (dozingFc s)) unlockState
  obtain ⟨hstations, hmessages, hfunctions, hnames, hseals, hkey⟩ := clearStores_cleared (bumpBy s 0x210406 (dozingFc s)) unlockState
  subst hu
  exact ⟨⟨hstations, hmessages, hfunctions, hnames, hseals, hkey⟩, howner, fun hrx => ⟨hlog hrx, hsubs⟩⟩

variable {ok : Bool} (hp : s.power.phase = 0) (hd : s.debug ≠ .zeroising)
  (hu : u = bump { clearStores (bumpBy s 0x210406 (dozingFc s)) unlockState with debug := .zeroising } 0x200802)
  (hok : Config.clearedZero (setting u 0x200802) = ok)
  (hv : v = raise (setSetting u 0x200803 (debugRecord u 0xFFFF ok false)) 0x05
    (BitVec.ofNat 256 (debugRecord u 0xFFFF ok false)))
include hp hd hu hok hv

/-- The verification finds every store cleared: a tag key is asked for. -/
theorem unlocks_verified (htrue : ok = true) : unlocks s 0xFFFF = wantEntropy v .tagKey := by
  have hopen : ¬ (s.debug = .zeroising ∨ s.power.phase ≠ 0) := by rw [hp]; exact fun h => h.elim hd fun h0 => h0 rfl
  subst htrue hv hu
  exact (if_neg hopen).trans (if_pos hok)

/-- It does not: the port stays closed, and the engine goes out of service. -/
theorem unlocks_failed (hfalse : ok = false) :
    unlocks s 0xFFFF = outOfService { v with debug := .locked } (advancesNow v).length := by
  have hopen : ¬ (s.debug = .zeroising ∨ s.power.phase ≠ 0) := by rw [hp]; exact fun h => h.elim hd fun h0 => h0 rfl
  subst hfalse hv hu
  exact (if_neg hopen).trans (if_neg (ne_true_of_eq_false hok))

end Debug

/-- A lock closes the test port with an engine reset. -/
theorem locks_unlocked {s : State} {r : Nat} (hd : s.debug = .unlocked)
    (hr : r = if setting s 0x200803 / 2 ^ 174 % 2 = 1 then setting s 0x200803 else setting s 0x200803 + 2 ^ 174) :
    locks s =
      engineResets (raise (setSetting { s with debug := .locked, wrappers := [] } 0x200803 r) 0x06 (BitVec.ofNat 256 r)) := by
  subst hr
  exact if_neg (not_not_intro hd)

/-! ## The first step of a service command (R592, R594, R596, R600 to R602) -/

/-- A step's progress is kept with its time limit. -/
theorem putStep_progress (s : State) (v : Service) (step : Nat) :
    (putStep s v step).service = some { v with step := step, due := s.now + setting s 0x411002 } ∧
    setting (putStep s v step) 0x411001 = v.kind + 2 ^ 8 * v.number + 2 ^ 16 * v.action + 2 ^ 32 * step :=
  ⟨rfl, (setting_setSetting_same _ _ _).trans (by rw [Nat.mul_zero, Nat.add_zero])⟩

section Units

variable (s : State) (n : Nat)

/-- A unit reads the state that was written, where it is not IN_SERVICE. -/
theorem unitAt_setUnit (kind : Nat) {v : Nat} (hv : v ≠ 0) : unitAt (setUnit s kind n v) kind n = v := by
  rw [unitAt, setUnit, tgetD, nput, if_neg hv, tget_tput_same, Option.getD_some]

/-- A seal entry that moves leaves every unit's state. -/
theorem moveSeals_unitState (j : Nat) : (moveSeals s j).unitState = s.unitState := by
  refine List.foldlRecOn (motive := fun t : State => t.unitState = s.unitState) _ _ rfl fun t ht p _ => ?_
  rw [← ht]
  unfold moveSeal
  dsimp only
  split
  · rfl
  · split <;> rfl

/-- What an initiator holds passes to its deputy, where it has one. -/
theorem drainUnit_initiator :
    drainUnit s 2 n = if deputyOf (setUnit s 2 n 1) n = n then setUnit s 2 n 1
      else moveSeals (transferRest (transferSlice (setUnit s 2 n 1) n (deputyOf (setUnit s 2 n 1) n) fun _ => true) n
        (deputyOf (setUnit s 2 n 1) n)) n := rfl

/-- An initiator that is drained is DRAINING. -/
theorem unitAt_drainInitiator : unitAt (drainUnit s 2 n) 2 n = 1 := by
  have hunits : (drainUnit s 2 n).unitState = (setUnit s 2 n 1).unitState := by
    rw [drainUnit_initiator]
    split
    · rfl
    · exact moveSeals_unitState _ n
  rw [unitAt, hunits]
  exact unitAt_setUnit s n 2 Nat.one_ne_zero

/-- A landing port is OUT_OF_SERVICE, or DRAINING while a report of it is held. -/
theorem unitAt_drainLanding : unitAt (drainUnit s 3 n) 3 n = if reportsHeld s n then 1 else 2 := by
  refine unitAt_setUnit s n 3 ?_
  split
  · exact Nat.one_ne_zero
  · exact (by decide)

/-- A link port is OUT_OF_SERVICE, without credit to send. -/
theorem drainUnit_link :
    unitAt (drainUnit s 4 n) 4 n = 2 ∧ (linkAt (drainUnit s 4 n) n).flitCredit = 0 ∨ (linkAt s n).state = .absent := by
  have hcredit : (linkAt s n).state ≠ .absent → (linkAt (linkFalls s n) n).flitCredit = 0 := by
    intro hstate
    unfold linkFalls
    dsimp only
    split
    · contradiction
    · rw [linkAt_setLink_same]
    · rw [linkAt_setLink_same]
  by_cases hstate : (linkAt s n).state = .absent
  · exact .inr hstate
  · refine .inl ⟨unitAt_setUnit _ n 4 (by decide), ?_⟩
    have hlink : linkAt (drainUnit s 4 n) n = { linkAt (linkFalls s n) n with ready := (linkAt s n).ready } :=
      linkAt_setLink_same _ n _
    rw [hlink]
    exact hcredit hstate

end Units

/-! ## Steps that are done (R594, R596, R598, R603) -/

/-- Roles that are on their way are not sent again. -/
theorem sendRoles_sent {s : State} {v : Service} (hroles : v.roles ≠ 0) : sendRoles s v = s := if_pos hroles

section Steps

variable {s t : State} {v : Service} (hs : s.service = some v) (hfc : s.power.fcAck = true)
include hs hfc

section Drain

variable {n : Nat} (hkind : v.kind = 1) (haction : v.action = 1) (hn : n = v.number)
include hkind haction hn

/-- V1: the drains of what attaches to the station go on, until all of it is OUT_OF_SERVICE. -/
theorem stepDone_units (failing : Nat) (hstep : v.step = 1) (ht : t = (attached s n).foldl (fun u k => drainGoes u k.1 k.2) s) :
    stepDone s failing = if (attached t n).all (fun k => unitAt t k.1 k.2 == 2) then beginStep t v 2 else t := by
  subst hn ht
  simp only [stepDone, hs, hfc, hkind, haction, hstep, Bool.not_true, Bool.false_eq_true, if_false]

omit hn in
/-- V2: once the roles have been taken the next step begins. -/
theorem stepDone_roles (failing : Nat) (hstep : v.step = 2) :
    stepDone s failing = if v.roles = 2 then beginStep s v 3 else sendRoles s v := by
  simp only [stepDone, hs, hfc, hkind, haction, hstep, Bool.not_true, Bool.false_eq_true, if_false]

/-- V3: the entry role passes, where the agents are quiet and the substitute has room; it does not where they are not. -/
theorem stepDone_entry (failing : Nat) (hstep : v.step = 3) {b : Nat} (hb : tget s.substitute n = some b)
    (ht : t = withdrawAgents s n (entrySlots s n)) :
    stepDone s failing =
      if agentsQuiet t n (entrySlots s n) = true ∧ nodesFit (moveEntry t n b (entrySlots s n)) b = true then
        servicePump (beginStep (moveEntry t n b (entrySlots s n)) v 4) else t := by
  subst hn ht
  by_cases hpass : agentsQuiet (withdrawAgents s v.number (entrySlots s v.number)) v.number (entrySlots s v.number) = true ∧
      nodesFit (moveEntry (withdrawAgents s v.number (entrySlots s v.number)) v.number b (entrySlots s v.number)) b = true
  · simp only [stepDone, hs, hfc, hkind, haction, hstep, hb, Bool.not_true, Bool.false_eq_true, if_false, entryPasses,
      if_pos hpass]
  · simp only [stepDone, hs, hfc, hkind, haction, hstep, hb, Bool.not_true, Bool.false_eq_true, if_false, entryPasses,
      if_neg hpass]

/-- V4: the objects leave one by one. -/
theorem stepDone_objects (failing : Nat) (hstep : v.step = 4) :
    stepDone s failing = if stationEmpty (station s n) then beginStep s v 5 else servicePump s := by
  subst hn
  simp only [stepDone, hs, hfc, hkind, haction, hstep, Bool.not_true, Bool.false_eq_true, if_false]

/-- V5: the station is FENCED, and the command ends. -/
theorem stepDone_fenced (failing : Nat) (hstep : v.step = 5) :
    stepDone s failing = serviceEnds (onStation (wakeStation s n) n fun st => { st with state := .fenced }) v := by
  subst hn
  simp only [stepDone, hs, hfc, hkind, haction, hstep, Bool.not_true, Bool.false_eq_true, if_false, fenceStation]

end Drain

section Test

variable (haction : v.action = 2) {failing r : Nat}
  (hr : r = v.kind + 2 ^ 8 * v.number + 2 ^ 16 * (if failing = 0 then 1 else 2) + 2 ^ 24 * failing)
include haction hr

/-- A station's test ends with its result, and the station is FENCED. -/
theorem stepDone_testStation (hkind : v.kind = 1) :
    stepDone s failing = serviceEnds (setSetting (onStation s v.number fun st => { st with state := .fenced }) 0x411400 r) v := by
  subst hr
  simp only [stepDone, hs, hfc, hkind, haction, Bool.not_true, Bool.false_eq_true, if_false]

/-- Any other unit's does, and the unit is OUT_OF_SERVICE. -/
theorem stepDone_testUnit (hkind : v.kind ≠ 1) :
    stepDone s failing = serviceEnds (setSetting (setUnit s v.kind v.number 2) 0x411400 r) v := by
  subst hr
  simp only [stepDone, hs, hfc, haction, Bool.not_true, Bool.false_eq_true, if_false]

end Test

variable (hkind : v.kind ≠ 1)
include hkind

/-- A unit's drain goes on, and ends once it is OUT_OF_SERVICE. -/
theorem stepDone_drainUnit (failing : Nat) (haction : v.action = 1) (ht : t = drainGoes s v.kind v.number) :
    stepDone s failing = if unitAt t v.kind v.number = 2 then serviceEnds t v else t := by
  subst ht
  obtain ⟨_ | _ | kind, n, action, step, auto, due, roles⟩ := v
  · subst haction
    simp only [stepDone, hs, hfc, Bool.not_true, Bool.false_eq_true, if_false]
  · exact absurd rfl hkind
  · subst haction
    simp only [stepDone, hs, hfc, Bool.not_true, Bool.false_eq_true, if_false]

/-- A unit's return ends at once. -/
theorem stepDone_returnUnit (failing : Nat) (haction : v.action = 3) : stepDone s failing = serviceEnds s v := by
  obtain ⟨_ | _ | kind, n, action, step, auto, due, roles⟩ := v
  · subst haction
    simp only [stepDone, hs, hfc, Bool.not_true, Bool.false_eq_true, if_false]
  · exact absurd rfl hkind
  · subst haction
    simp only [stepDone, hs, hfc, Bool.not_true, Bool.false_eq_true, if_false]

end Steps

/-- A step that is not done in time fails the command. -/
theorem stepTimesOut_running {s : State} {v : Service} (hs : s.service = some v) :
    stepTimesOut s = serviceFails (passToAc s v.due) v := by
  simp only [stepTimesOut, hs]

/-- Settles O52, by the command: an unlock by what its verification finds, a service command by its unit's kind and its action, a
step that is done by its number. -/
theorem debugAndService : Obligations.DebugAndService := by
  unfold Obligations.DebugAndService
  refine ⟨?owner, ?unlock, ?lock, ?begin, ?station, ?unit, ?progress, ?drained, ?drain, ?test, ?others, ?timeout⟩
  case owner =>
    intro s t q
    exact ⟨fun h => ownerByte_ok (by decide) (by omega) h rfl, fun h => ownerByte_ok (by decide) (by omega) h rfl,
      fun h => ownerByte_ok (by decide) (by omega) h rfl⟩
  case unlock =>
    intro s u v ok hp hd hu
    obtain ⟨hcleared, howner, hkept⟩ := zeroised_leaves hu
    exact ⟨hcleared, howner, hkept, fun hok hv => ⟨fun htrue => congrArg conclude (unlocks_verified hp hd hu hok hv htrue),
      fun hfalse => congrArg conclude (unlocks_failed hp hd hu hok hv hfalse)⟩⟩
  case lock => exact fun s r hd hr => congrArg conclude (locks_unlocked hd hr)
  case begin =>
    intro s t q kind n hnone
    exact ⟨exec_serviceRequest (by omega) hnone, exec_serviceRequest (by omega) hnone, exec_serviceRequest (by omega) hnone,
      exec_serviceRequest (by omega) hnone, exec_serviceRequest (by omega) hnone⟩
  case station =>
    rintro s _ n action auto rfl
    refine ⟨?_, ?_, ?_, ?_, ?_⟩
    all_goals rintro rfl; rfl
  case unit =>
    rintro s _ kind n action auto (rfl | rfl | rfl) rfl
    all_goals
      refine ⟨?_, ?_, ?_⟩
      all_goals rintro rfl; rfl
  case progress =>
    rintro s _ v step rfl
    exact putStep_progress s v step
  case drained => exact fun s n => ⟨unitAt_drainInitiator s n, unitAt_drainLanding s n, drainUnit_link s n⟩
  case drain =>
    intro s t v n failing hs hfc hkind haction hn
    refine ⟨fun hstep ht => ⟨fun hall => congrArg conclude ?all, fun hsome => congrArg conclude ?some⟩,
      fun hstep => ⟨fun hroles => congrArg conclude ?taken, fun hroles => congrArg conclude ?onWay,
        fun hroles => congrArg conclude ?sent⟩,
      fun b hstep hb ht => ⟨fun hquiet hfit => congrArg conclude ?passes, fun hbusy => congrArg conclude ?stays⟩,
      fun hstep hempty => congrArg conclude ?empty, fun hstep hholds => congrArg conclude ?holds,
      fun hstep => congrArg conclude (stepDone_fenced hs hfc hkind haction hn _ hstep)⟩
    case all => rw [stepDone_units hs hfc hkind haction hn _ hstep ht, if_pos hall]
    case some => rw [stepDone_units hs hfc hkind haction hn _ hstep ht, hsome, if_neg Bool.false_ne_true]
    case taken => rw [stepDone_roles hs hfc hkind haction _ hstep, if_pos hroles]
    case onWay =>
      rw [stepDone_roles hs hfc hkind haction _ hstep, if_neg (by omega)]
      exact sendRoles_sent (by omega)
    case sent => rw [stepDone_roles hs hfc hkind haction _ hstep, if_neg (by omega)]
    case passes => rw [stepDone_entry hs hfc hkind haction hn _ hstep hb ht, if_pos ⟨hquiet, hfit⟩]
    case stays =>
      rw [stepDone_entry hs hfc hkind haction hn _ hstep hb ht, if_neg]
      rintro ⟨hquiet, hfit⟩
      rcases hbusy with h | h
      · exact Bool.false_ne_true (h.symm.trans hquiet)
      · exact Bool.false_ne_true (h.symm.trans hfit)
    case empty => rw [stepDone_objects hs hfc hkind haction hn _ hstep, if_pos hempty]
    case holds => rw [stepDone_objects hs hfc hkind haction hn _ hstep, hholds, if_neg Bool.false_ne_true]
  case test =>
    intro s v failing r hs hfc haction hr
    exact ⟨fun hkind => congrArg conclude (stepDone_testStation hs hfc haction hr hkind),
      fun hkind => congrArg conclude (stepDone_testUnit hs hfc haction hr hkind)⟩
  case others =>
    intro s t v failing hs hfc hkind
    exact ⟨fun haction ht => congrArg conclude (stepDone_drainUnit hs hfc hkind _ haction ht),
      fun haction => congrArg conclude (stepDone_returnUnit hs hfc hkind _ haction)⟩
  case timeout => exact fun s v hs => congrArg conclude (stepTimesOut_running hs)

end Sys2Proof.Machine
end

/-!
PROOFS of the end of a core's waits (R473 step 3): what a fence leaves of the waits, messages and operations of the core's engines, at
every station.
-/

section
namespace Sys2Proof.Machine

/-! ## Steps that leave no more work at any station -/

/-- The operations that wait at a station to be taken. -/
def queuedOps (st : Station) : List Adm := st.budget.map (·.2) ++ st.excess

/-- A station with no more waits, messages to push and operations to take than another. -/
structure FewerAt (st st' : Station) : Prop where
  waiters : ∀ w ∈ st'.waiters, w ∈ st.waiters
  ready : ∀ m ∈ st'.ready, m ∈ st.ready
  queued : ∀ x ∈ queuedOps st', x ∈ queuedOps st

/-- No station has more of them. -/
def Fewer (s t : State) : Prop := ∀ n, FewerAt (station s n) (station t n)

section Fewer

theorem FewerAt.refl (st : Station) : FewerAt st st := ⟨fun _ => id, fun _ => id, fun _ => id⟩

theorem Fewer.refl (s : State) : Fewer s s := fun _ => .refl _

theorem Fewer.trans {s t u : State} (h : Fewer s t) (k : Fewer t u) : Fewer s u := fun n =>
  ⟨fun w hw => (h n).waiters w ((k n).waiters w hw), fun m hm => (h n).ready m ((k n).ready m hm),
    fun x hx => (h n).queued x ((k n).queued x hx)⟩

theorem Fewer.foldl {α : Type} {f : State → α → State} (l : List α) (h : ∀ t, ∀ x ∈ l, Fewer t (f t x)) (s : State) :
    Fewer s (l.foldl f s) :=
  List.foldlRecOn (motive := Fewer s) l f (.refl s) fun t ht x hx => ht.trans (h t x hx)

/-- A step that changes no station. -/
theorem Fewer.of_stations {s t : State} (h : t.stations = s.stations) : Fewer s t := by
  intro n
  have hn : station t n = station s n := by rw [station, station, h]
  exact hn ▸ .refl _

/-- A change of one station. -/
theorem Fewer.onStation {s : State} {n : Nat} {f : Station → Station} (h : FewerAt (station s n) (f (station s n))) :
    Fewer s (onStation s n f) := by
  intro m
  by_cases hm : m = n
  · rw [hm, station_onStation_same]
    exact h
  · rw [station_onStation_other s n m f hm]
    exact .refl _

/-- An answer changes a station's responses alone. -/
theorem Answered.fewer {s t : State} (h : Answered s t) : Fewer s t := by
  intro n
  have hwaiters := congrArg Station.waiters (h.kept n)
  have hready := congrArg Station.ready (h.kept n)
  have hqueued := congrArg queuedOps (h.kept n)
  have hw : (station t n).waiters = (station s n).waiters := hwaiters
  have hr : (station t n).ready = (station s n).ready := hready
  have hq : queuedOps (station t n) = queuedOps (station s n) := hqueued
  exact ⟨fun _ hm => hw ▸ hm, fun _ hm => hr ▸ hm, fun _ hm => hq ▸ hm⟩

theorem send_fewer (s : State) (a b : Nat) (m : MsgBody) : Fewer s (send s a b m) := .of_stations rfl

theorem dropWaiter_fewer (s : State) (n id : Nat) : Fewer s (dropWaiter s n id) :=
  .onStation ⟨fun _ hw => List.mem_of_mem_filter hw, fun _ hm => hm, fun _ hx => hx⟩

theorem closeWaitOp_fewer (s : State) (n : Nat) (w : Waiter) : Fewer s (closeWaitOp s n w) :=
  .onStation ⟨fun _ => id, fun _ => id, fun _ => id⟩

theorem cancelStale_fewer (s : State) (n : Nat) (w : Waiter) : Fewer s (cancelStale s n w) := by
  unfold cancelStale
  split
  · exact (respond_answered _ _ _ _).fewer
  · exact .refl s

/-- What was granted to a wait goes back as a message. -/
theorem returnTaken_fewer (s : State) (n : Nat) (w : Waiter) : Fewer s (returnTaken s n w) := by
  unfold returnTaken
  split
  · exact send_fewer s n _ _
  · split
    · exact send_fewer s n _ _
    · exact .refl s
  · exact .refl s

/-- An operation that its core's fence turns away is answered. -/
theorem turnAway_fenced_fewer (s : State) {x : Adm} (hx : x.op.waits = true) : Fewer s (turnAway s x .fenced) := by
  have hrefuse : Fewer s (refuseAdm s x .fenced) := (respond_answered s x.n x.via (mkRsp x.acquire x.scope x.opTag (plain .fenced))).fewer
  unfold turnAway
  split
  next hop _ =>
    rw [hop] at hx
    exact absurd hx Bool.false_ne_true
  next => exact hrefuse

end Fewer

/-! ## A wait of a fenced core (R117, R473) -/

/-- The wait's record goes, and nothing comes of it. -/
theorem fenceWait_drops (s : State) (n : Nat) (w : Waiter) :
    ∃ t, Fewer s t ∧ Fewer (dropWaiter t n w.id) (fenceWait s n w) := by
  unfold fenceWait
  extract_lets s1 s2 fenced
  have hfenced : ∀ t, Fewer t (fenced t) := fun t => (respond_answered t n w.reply _).fewer
  have h1 : Fewer s s1 := by
    unfold s1
    split
    · exact .refl s
    · exact send_fewer s n _ _
    · exact .refl s
  refine ⟨cancelStale s1 n w, h1.trans (cancelStale_fewer s1 n w), ?_⟩
  split
  next =>
    split
    next => exact (returnTaken_fewer s2 n w).trans ((closeWaitOp_fewer _ n w).trans (hfenced _))
    next => exact .refl _
  next => exact (closeWaitOp_fewer _ n w).trans (hfenced _)
  next =>
    split
    · exact hfenced _
    · exact .refl _

/-- Once the waits of a list have ended, the station keeps none of their records. -/
theorem foldl_fenceWait (n : Nat) (l : List Waiter) (s : State) :
    Fewer s (l.foldl (fun u w => fenceWait u n w) s) ∧
    ∀ x ∈ (station (l.foldl (fun u w => fenceWait u n w) s) n).waiters, x.id ∉ l.map (·.id) := by
  induction l using List.reverseRecOn with
  | nil => exact ⟨.refl s, fun x _ => List.not_mem_nil⟩
  | append_singleton l w ih =>
    obtain ⟨hfewer, hgone⟩ := ih
    rw [List.foldl_append, List.foldl_cons, List.foldl_nil]
    obtain ⟨t, ht, hdrop⟩ := fenceWait_drops (l.foldl (fun u w => fenceWait u n w) s) n w
    refine ⟨(hfewer.trans ht).trans ((dropWaiter_fewer t n w.id).trans hdrop), fun x hx => ?_⟩
    have hleft := (hdrop n).waiters x hx
    rw [dropWaiter, onWaiters, station_onStation_same] at hleft
    obtain ⟨hmem, hid⟩ := List.mem_filter.1 hleft
    rw [List.map_append, List.mem_append, not_or]
    exact ⟨hgone x ((ht n).waiters x hmem), fun h => (bne_iff_ne.1 hid) (List.mem_singleton.1 h)⟩

/-! ## The waits of a core (R473 step 3) -/

/-- A station has no wait and no message of a core's engines, and none of their waiting operations to take. -/
structure CoreFree (core : Nat) (st : Station) : Prop where
  waiters : ∀ w ∈ st.waiters, ofCore core w.agent = false
  ready : ∀ m ∈ st.ready, ofCore core m.agent = false
  queued : ∀ x ∈ queuedOps st, ofCore core x.agent = true → x.op.waits = false

theorem CoreFree.fewer {core : Nat} {st st' : Station} (h : CoreFree core st) (k : FewerAt st st') : CoreFree core st' :=
  ⟨fun w hw => h.waiters w (k.waiters w hw), fun m hm => h.ready m (k.ready m hm), fun x hx => h.queued x (k.queued x hx)⟩

theorem coreFree_empty (core : Nat) (x : StationState) : CoreFree core (Station.empty x) :=
  ⟨fun _ h => absurd h List.not_mem_nil, fun _ h => absurd h List.not_mem_nil, fun _ h => absurd h List.not_mem_nil⟩

/-- Whether a queued operation of a core's engines would wait. -/
def dueOf (core : Nat) (x : Adm) : Bool := ofCore core x.agent && x.op.waits

/-- The operations that are left in a station's queues without some of them. -/
theorem queuedOps_dropQueued (st : Station) (p : Adm → Bool) : queuedOps (dropQueued st p) = (queuedOps st).filter (!p ·) := by
  rw [queuedOps, queuedOps, List.filter_append, List.filter_map]
  simp only [dropQueued, List.map_map]
  rfl

/-- A station's queues without them. -/
def dueGone (core : Nat) (t : State) (n : Nat) : State :=
  if (queuedOps (station t n)).any (dueOf core) then setStation t n (dropQueued (station t n) (dueOf core)) else t

/-- What a fence of a core does at a station. -/
def endWaitsAt (core : Nat) (t : State) (n : Nat) : State :=
  let st := station t n
  let t0 := ((queuedOps st).filter (dueOf core)).foldl (fun u x => turnAway u x .fenced) (dueGone core t n)
  let t1 := (st.waiters.filter fun w => ofCore core w.agent).foldl (fun u w => fenceWait u n w) t0
  let gone := st.ready.filter fun m => ofCore core m.agent
  let t2 := if gone.isEmpty then t1 else onStation t1 n fun x => { x with ready := x.ready.filter fun m => !ofCore core m.agent }
  gone.foldl (fun u m => match m.launch with
    | some (_, hi, _) => send u n (homeOf u n (hiIndex hi)) (.launchAnswer (nameOf hi) .fenced m.agent)
    | none => u) t2

/-- It is done at every station. -/
theorem endCoreWaits_eq (s : State) (core : Nat) :
    endCoreWaits s core = s.stations.foldl (fun t p => endWaitsAt core t p.1) s := rfl

section At

variable (core : Nat) (t : State) (n : Nat)

/-- The operations that would wait leave the queues first. -/
theorem dueGone_drops :
    Fewer t (dueGone core t n) ∧ ∀ x ∈ queuedOps (station (dueGone core t n) n), dueOf core x = false := by
  unfold dueGone
  split
  next =>
    refine ⟨Fewer.onStation (f := fun st => dropQueued st (dueOf core)) ⟨fun _ h => h, fun _ h => h, fun x hx => ?_⟩, fun x hx => ?_⟩
    · rw [queuedOps_dropQueued] at hx
      exact List.mem_of_mem_filter hx
    · rw [station_setStation_same, queuedOps_dropQueued] at hx
      exact Bool.eq_false_of_not_eq_true' (List.mem_filter.1 hx).2
  next hnone =>
    refine ⟨.refl t, fun x hx => ?_⟩
    exact eq_false_of_ne_true fun hdue => hnone (List.any_eq_true.2 ⟨x, hx, hdue⟩)

/-- Then the rest goes: no station has more work, and the station has none of the core's. -/
theorem endWaitsAt_ends : Fewer t (endWaitsAt core t n) ∧ CoreFree core (station (endWaitsAt core t n) n) := by
  unfold endWaitsAt
  extract_lets st t0 t1 gone t2
  obtain ⟨hbase, hqueue⟩ := dueGone_drops core t n
  have h0 : Fewer (dueGone core t n) t0 := by
    refine Fewer.foldl (f := fun u x => turnAway u x .fenced) _ (fun u x hx => turnAway_fenced_fewer u ?_) _
    exact (Bool.and_eq_true_iff.1 (List.mem_filter.1 hx).2).2
  obtain ⟨h1, hended⟩ := foldl_fenceWait n (st.waiters.filter fun w => ofCore core w.agent) t0
  have h01 : Fewer t t1 := (hbase.trans h0).trans h1
  have h2 : Fewer t1 t2 ∧ ∀ m ∈ (station t2 n).ready, ofCore core m.agent = false := by
    unfold t2
    split
    next hempty =>
      refine ⟨.refl t1, fun m hm => eq_false_of_ne_true fun hours => ?_⟩
      have hgone : m ∈ gone := List.mem_filter.2 ⟨(h01 n).ready m hm, hours⟩
      rw [List.isEmpty_iff.1 hempty] at hgone
      exact List.not_mem_nil hgone
    next =>
      refine ⟨.onStation ⟨fun _ h => h, fun _ h => List.mem_of_mem_filter h, fun _ h => h⟩, fun m hm => ?_⟩
      rw [station_onStation_same] at hm
      exact Bool.eq_false_of_not_eq_true' (List.mem_filter.1 hm).2
  obtain ⟨h12, hready⟩ := h2
  have h3 : Fewer t2 (gone.foldl (fun u m => match m.launch with
      | some (_, hi, _) => send u n (homeOf u n (hiIndex hi)) (.launchAnswer (nameOf hi) .fenced m.agent)
      | none => u) t2) := by
    refine .foldl _ (fun u m _ => ?_) t2
    split
    · exact send_fewer u n _ _
    · exact .refl u
  refine ⟨(h01.trans h12).trans h3, CoreFree.fewer ⟨fun w hw => ?_, hready, fun x hx hours => ?_⟩ (h3 n)⟩
  · have hlive := (h12 n).waiters w hw
    refine eq_false_of_ne_true fun hours => hended w hlive (List.mem_map_of_mem (List.mem_filter.2 ⟨(h01 n).waiters w hlive, hours⟩))
  · have hdue := hqueue x (((h0.trans h1).trans h12 n).queued x hx)
    rw [dueOf, hours, Bool.true_and] at hdue
    exact hdue

end At

/-- At every station then, a core whose waits have ended has no work left. -/
theorem endCoreWaits_free (s : State) (core n : Nat) : CoreFree core (station (endCoreWaits s core) n) := by
  have hall : ∀ (l : Table Station) (t : State), (n ∈ l.map Prod.fst ∨ CoreFree core (station t n)) →
      CoreFree core (station (l.foldl (fun t p => endWaitsAt core t p.1) t) n) := by
    intro l
    induction l with
    | nil => exact fun _ h => h.resolve_left List.not_mem_nil
    | cons p l ih =>
      intro t h
      obtain ⟨hfewer, hfree⟩ := endWaitsAt_ends core t p.1
      refine ih _ ?_
      rcases h with hmem | hbefore
      · rcases List.mem_cons.1 hmem with rfl | hlater
        · exact .inr hfree
        · exact .inl hlater
      · exact .inr (hbefore.fewer (hfewer n))
  rw [endCoreWaits_eq]
  refine hall s.stations s ?_
  by_cases hn : n ∈ s.stations.map Prod.fst
  · exact .inl hn
  · rw [station_absent hn]
    exact .inr (coreFree_empty core _)

end Sys2Proof.Machine
end

/-!
PROOFS of recovery: the owner's writes to a partition, a declaration and what it leaves, captures, the partition reset, core commands
and their ends.
-/

section
namespace Sys2Proof.Machine

/-! ## What a partition's freeze leaves of it (R456, R461) -/

/-- A message that was held back leaves every partition alone. -/
theorem releaseHolds_partitions (s : State) (n : Nat) : (releaseHolds s n).partitions = s.partitions := rfl

/-- A function that leaves ENABLED does too. -/
theorem beginDrain_partitions (s : State) (f : Nat) (forReset : Bool) : (beginDrain s f forReset).partitions = s.partitions := by
  unfold beginDrain
  refine List.foldlRecOn (motive := fun t : State => t.partitions = s.partitions) _ _ ?_ fun t ht p _ => ?_
  · exact List.foldlRecOn (motive := fun t : State => t.partitions = s.partitions) _ _ rfl fun t ht p _ => ht
  · split <;> exact ht

section Freeze

variable (s : State) (p : Nat)

/-- The partition once its reset has begun. -/
def frozenNow (x : Partition) : Partition :=
  { x with state := .frozen, step := 1, waiting := [], blocks := [], entries := x.entries ++ [s.now] }

/-- Its functions' drains leave it so. -/
theorem partAt_freezePartition : partAt (freezePartition s p) p = frozenNow s (partAt s p) := by
  have hparts : (freezePartition s p).partitions = (onPart s p (frozenNow s)).partitions := by
    obtain ⟨d, l, b, hraise⟩ := raise_log (bump (onPart s p (frozenNow s)) 0x2E0B01) 0x20 (partAt (onPart s p (frozenNow s)) p).fault
    unfold freezePartition
    refine List.foldlRecOn (motive := fun t : State => t.partitions = (onPart s p (frozenNow s)).partitions) _ _ ?_ fun t ht f _ => ?_
    · have hkept := congrArg State.partitions hraise
      exact hkept
    · split
      · exact ht
      · split
        · exact (beginDrain_partitions t f true).trans ht
        · split <;> exact ht
  rw [partAt, hparts]
  exact partAt_onPart_same s p (frozenNow s)

end Freeze

/-! ## Declarations (R456, Tables 14.4 and 14.6) -/

section Declare

variable {s t : State} {p cause fn agent phys tier : Nat} {h : Word}

/-- A cause 4 raises the tier of the reset that runs. -/
theorem declare_tier (hstate : (partAt s p).state ≠ .ready) (hcause : cause = 4) (hruns : resetRuns s p = true) :
    declare s p cause h fn agent phys tier = bump (raiseTier s p tier) 0x2E0B04 := by
  simp only [declare, hstate, hcause, hruns, ne_eq, not_false_eq_true, and_self, if_true]

variable (ht : t = onPart s p fun x => { x with fault := faultRecord s cause p h fn agent phys tier })
include ht

/-- Any other replaces the record; outside READY it is counted as ignored. -/
theorem declare_ignored (hstate : (partAt s p).state ≠ .ready) (hother : cause ≠ 4 ∨ resetRuns s p = false) :
    declare s p cause h fn agent phys tier = bump t 0x2E0B04 := by
  have hrecord : ¬ (cause = 4 ∧ resetRuns s p = true) := by
    rintro ⟨hcause, hruns⟩
    rcases hother with h4 | hidle
    · exact h4 hcause
    · exact Bool.false_ne_true (hidle.symm.trans hruns)
  subst ht
  simp only [declare, hstate, hrecord, ne_eq, not_false_eq_true, if_true, if_false]

section Ready

variable (hstate : (partAt s p).state = .ready)
include hstate

omit ht in
/-- A READY partition has no reset running. -/
theorem resetRuns_ready : resetRuns s p = false := by
  rw [resetRuns, hstate]
  rfl

/-- A cause 4 of a READY partition is recorded alone. -/
theorem declare_recorded (hcause : cause = 4) : declare s p cause h fn agent phys tier = t := by
  subst ht
  simp only [declare, hstate, hcause, resetRuns_ready hstate, ne_eq, not_true_eq_false, Bool.false_eq_true, and_false, if_true, if_false]

/-- Any other freezes it. -/
theorem declare_freezes (hcause : cause ≠ 4) : declare s p cause h fn agent phys tier = freezePartition t p := by
  subst ht
  simp only [declare, hstate, hcause, ne_eq, not_true_eq_false, false_and, if_false]

end Ready

/-- A partition that is frozen then holds the record and the time of its entry. -/
theorem declare_leaves :
    (partAt (freezePartition t p) p).state = .frozen ∧ (partAt (freezePartition t p) p).step = 1 ∧
    (partAt (freezePartition t p) p).fault = faultRecord s cause p h fn agent phys tier ∧
    (partAt (freezePartition t p) p).entries = (partAt s p).entries ++ [s.now] := by
  rw [partAt_freezePartition, ht, partAt_onPart_same]
  exact ⟨rfl, rfl, rfl, rfl⟩

end Declare

/-! ## The owner's writes, heartbeats and captures (R455, R466 to R470, R612) -/

/-- Every partition's state takes a byte 0 or 1 of the owner. -/
theorem entryTakes_partition (v : Nat) (hv : v ≤ 1) (p : BitVec 6) : entryTakes 0x2E07 p.toNat 1 (byteRow v) = true := by
  have hall : ∀ w : Fin 2, ∀ p : Fin 64, entryTakes 0x2E07 p.val 1 (byteRow w.val) = true := by decide +kernel
  exact hall ⟨v, by omega⟩ ⟨p.toNat, p.isLt⟩

/-- It is a write of that partition's state. -/
theorem scalarWrites_partition (s : State) (p : BitVec 6) (v : Nat) :
    scalarWrites s (keyOf 0x2E07 p.toNat) v = partitionWrites s p.toNat v := by
  have hkey : keyOf 0x2E07 p.toNat = 0x2E0700 + p.toNat := rfl
  have hp : p.toNat < 64 := p.isLt
  have hin : 0x2E0700 ≤ 0x2E0700 + p.toNat ∧ 0x2E0700 + p.toNat ≤ 0x2E073F := by omega
  rw [hkey, scalarWrites, if_neg (by omega), if_neg (by omega), if_neg (by omega), if_neg (by omega), if_pos hin, Nat.add_sub_cancel_left]

section Commands

variable {s t u : State} {p : Nat}

/-- A partition that is out of service, its reset done, may be READY again. -/
theorem partitionWrites_ready (hstate : (partAt s p).state = .outOfService) (hreq : (partAt s p).req = false) :
    partitionWrites s p 0 = (onPart s p fun y => { y with state := .ready, step := 0, entries := [] }, some .ok) := by
  simp only [partitionWrites, hstate, hreq, Bool.false_eq_true, if_false]

/-- A watch window ends with the counter's value, and a value that has not changed is a cause 1. -/
theorem heartbeatReads_counter {h : Word} {c : Counter} (hh : h = BitVec.ofNat 64 (setting s (0x2E0200 + p)))
    (hc : counterOf s h = some c) (hnull : h ≠ 0) (hfn : fnPartition s (Handle.fn h) = p) (ht : t = passToAc s (partAt s p).beatDue)
    (hu : u = onPart t p fun y => { y with lastBeat := some c.value, beatDue := t.now + setting t 0x2E0400 }) :
    heartbeatReads s p = if (partAt s p).lastBeat = some c.value then
      declare u p 1 h (Handle.fn h) (setting u (0x2E0300 + p)) 0 0 else u := by
  subst hu ht
  simp only [heartbeatReads, ← hh, hc, hnull, hfn, ne_eq, not_true_eq_false, or_self, if_false]

/-- An entry that reaches its capture's slice is taken. -/
theorem exec_captureEntry {src dst j : Nat} {e : CaptureEntry} {rest : List Msg} {l : Slice} {c : Capture}
    (hm : TakesMsg s src dst (.captureEntry e) rest) (ht : t = taken s dst rest)
    (hslice : t.slices.find? (capturing t dst e.partition) = some (j, l)) (hc : l.capture = some c) :
    exec (.captureEntry src dst) s = .next (settled (captureRun t j { c.add e.entry with left := c.left - 1 })) := by
  subst ht
  have htake : takeEntry (taken s dst rest) dst e = captureRun (taken s dst rest) j { c.add e.entry with left := c.left - 1 } := by
    simp only [takeEntry, hslice, hc]
  show execCaptureEntry src dst s = _
  exact arrives_takes s src dst _ rest _ _ 0 rfl hm (congrArg some htake)

/-- A capture that lasts too long is closed. -/
theorem captureLimited_open {j : Nat} {c : Capture} (hc : captureSlice s p = some (j, c)) (hstep : c.step < 2)
    (hopen : c.closed = false) (ht : t = passAc s (c.start + setting s 0x2E0601 - s.now)) :
    captureLimited s p = captureRun t j { c with closed := true, truncated := c.truncated || c.left != 0 } := by
  subst ht
  simp only [captureLimited, hc, hstep, hopen, Bool.not_false, and_self, if_true]

end Commands

/-! ## The partition reset (R461, R475 to R477, R547) -/

section PartitionReset

variable {s t : State} {p n : Nat} {x : Partition} (hx : x = partAt s p) (hreq : x.req = true)
include hx hreq

section Acknowledge

variable (ht : t = onPart s p fun y => { y with req := false, ack := true })
include ht

/-- An acknowledgement outside a reset. -/
theorem resetAcknowledged_idle (hstate : x.state ≠ .resetting) : resetAcknowledged s p = t := by
  subst hx ht
  simp only [resetAcknowledged, hreq, hstate, Bool.not_true, Bool.false_eq_true, ne_eq, not_false_eq_true, if_true, if_false]

variable (hn : n = (x.entries.filter fun a => decide (x.entries.foldl max 0 < a + setting s 0x2E0802)).length)
  (hstate : x.state = .resetting)
include hn hstate

/-- One of a reset that follows others too closely takes the partition out of service; any other makes it READY. -/
theorem resetAcknowledged_resetting :
    resetAcknowledged s p = if x.step = 5 ∧ setting s 0x2E0801 ≤ n then partitionOos t p
      else raise (onPart t p fun y => { y with state := .ready, step := 0 }) 0x21
        (partAt (onPart t p fun y => { y with state := .ready, step := 0 }) p).fault := by
  subst hx ht hn
  simp only [resetAcknowledged, hreq, hstate, Bool.not_true, Bool.false_eq_true, ne_eq, not_true_eq_false, if_false]

end Acknowledge

/-- A reset that is not acknowledged in time is a tier 3. -/
theorem partitionTimesOut_resetting (hstate : x.state = .resetting) :
    partitionTimesOut s p = partitionOos (raiseTier (passToAc s x.due) p 3) p := by
  subst hx
  simp only [partitionTimesOut, hreq, hstate, and_self, if_true]

end PartitionReset

/-! ## Core commands and their ends (R463, R472 to R475, R546) -/

section Core

variable {s u v : State} {c : CoreCmd} {phys : Nat}

/-- A core of a partition's sequence has reset: its state is in the partition's record. -/
theorem resetAcked_partition {p n : Nat} (block : BitVec 256) (hc : cmdOf s 1 phys = some c) (hp : c.partition = some p)
    (hn : c.logical = some n) :
    resetAcked s phys block = onPart (dropCmd s 1 phys) p fun x => { x with
      waiting := x.waiting.filter (· != n), blocks := tput x.blocks n block } := by
  simp only [resetAcked, hc, hp, hn]

/-- One that the owner has asked for has. -/
theorem resetAcked_owner (block : BitVec 256) (hc : cmdOf s 1 phys = some c) (hp : c.partition = none) :
    resetAcked s phys block = dropCmd s 1 phys := by
  simp only [resetAcked, hc, hp]

section Timeout

variable {n : Nat} (hc : cmdOf s 1 phys = some c) (hn : c.logical = some n) (hu : u = dropCmd (passToAc s c.due) 1 phys)
  (hv : v = if corePartition u n = 255 then u else declare u (corePartition u n) 4 0 0 (4 * n) phys 1)
include hc hn hu hv

/-- A core that does not reset in time is fenced. -/
theorem resetTimesOut_fences (hfree : v.fenced.contains phys = false) (hnone : cmdOf v 2 phys = none) :
    resetTimesOut s phys = requestFence v phys (some n) c.partition := by
  subst hu
  simp only [resetTimesOut, hc, hn, ← hv, hfree, hnone, Bool.false_eq_true, if_false]

/-- One that is fenced already is waited for no more. -/
theorem resetTimesOut_fenced (hfenced : v.fenced.contains phys = true) : resetTimesOut s phys = coreWaited v c := by
  subst hu
  simp only [resetTimesOut, hc, hn, ← hv, hfenced, if_true]

end Timeout

/-- A fence is acknowledged. -/
theorem fenceAcked_command (hc : cmdOf s 2 phys = some c) : fenceAcked s phys = fenceEnds s c true := by
  simp only [fenceAcked, hc]

/-- It is not in time. -/
theorem fenceTimesOut_command (hc : cmdOf s 2 phys = some c) : fenceTimesOut s phys = fenceEnds (passToAc s c.due) c false := by
  simp only [fenceTimesOut, hc]

/-- The partition of a core, where it has one. -/
def partOf (s : State) (n : Nat) : Option Nat := if corePartition s n = 255 then none else some (corePartition s n)

/-- The end of a fence once its core's waits have ended and a spare has taken the core's place or its weirs are broken. -/
def fenceDone (c : CoreCmd) (n : Nat) (part : Option Nat) (cause : Nat) (v : State) : State :=
  coreWaited (raise (bump v 0x2E0B02) 0x23 (fencedRecord v part cause (4 * n) c.phys)) c

/-- A spare takes the place of a core whose waits have ended, or the core's weirs break. -/
def fencePlaced (u : State) (n phys : Nat) (spare : Option Nat) : State :=
  match spare with
  | some sp => remapCore (endCoreWaits u n) n phys sp
  | none => breakCore (endCoreWaits u n) n

section Ends

variable {n : Nat} (hn : c.logical = some n) (hu : u = fencedNow s c.phys) (hphys : physOf u n = c.phys)
include hn hu hphys

/-- A fence ends with the core's waits, then with what an acknowledgement or its lack means. -/
theorem fenceEnds_core (acked : Bool) :
    fenceEnds s c acked = fenceDone c n (partOf u n) (if acked then 4 else 6)
      (if acked = true ∨ corePartition u n = 255 then fencePlaced u n c.phys (if acked then c.spare else none)
        else declare (fencePlaced u n c.phys (if acked then c.spare else none)) (corePartition u n) 6 0 0 (4 * n) c.phys 2) := by
  subst hu
  unfold fenceEnds
  extract_lets s1 s2 part agent s3 s4 record s5
  have hpart : part = corePartition (fencedNow s c.phys) n := by unfold part; rw [hn]; rfl
  have hagent : agent = 4 * n := by unfold agent; rw [hn]
  have hplaced : s3 = fencePlaced (fencedNow s c.phys) n c.phys (if acked then c.spare else none) := by
    unfold s3
    rw [hn]
    exact if_neg (not_not_intro hphys)
  have hdeclared : s4 = if acked = true ∨ part = 255 then s3 else declare s3 part 6 0 0 agent c.phys 2 := rfl
  rw [fenceDone, partOf, ← hplaced, ← hpart, ← hagent, ← hdeclared]

/-- An acknowledged fence gives the core's place to the spare that its command names, if any. -/
theorem fenceEnds_acked :
    fenceEnds s c true = fenceDone c n (partOf u n) 4 (fencePlaced u n c.phys c.spare) := by
  rw [fenceEnds_core hn hu hphys]
  simp only [if_true, true_or]

/-- A fence without an answer, of a core in no partition, only breaks the core. -/
theorem fenceEnds_lost_alone (hpart : corePartition u n = 255) :
    fenceEnds s c false = fenceDone c n (partOf u n) 6 (breakCore (endCoreWaits u n) n) := by
  rw [fenceEnds_core hn hu hphys]
  simp only [Bool.false_eq_true, if_false, hpart, or_true, if_true, fencePlaced]

/-- A fence without an answer declares a fault of the core's partition. -/
theorem fenceEnds_lost (hpart : corePartition u n ≠ 255) :
    fenceEnds s c false = fenceDone c n (partOf u n) 6
      (declare (breakCore (endCoreWaits u n) n) (corePartition u n) 6 0 0 (4 * n) c.phys 2) := by
  rw [fenceEnds_core hn hu hphys]
  simp only [Bool.false_eq_true, if_false, hpart, or_false, fencePlaced]

end Ends

/-- A fence of a core without a logical number. -/
theorem fenceEnds_unplaced (hn : c.logical = none) (hu : u = fencedNow s c.phys) :
    fenceEnds s c true = raise (bump u 0x2E0B02) 0x23 (fencedRecord u none 4 0 c.phys) := by
  have hwait : ∀ v, coreWaited v c = v := by
    intro v
    unfold coreWaited
    rw [hn]
    split
    next h => exact absurd h (by simp only [reduceCtorEq, not_false_eq_true])
    next => rfl
  subst hu
  unfold fenceEnds
  extract_lets s1 s2 part agent s3 s4 record s5
  have hpart : part = 255 := by unfold part; rw [hn]
  have hagent : agent = 0 := by unfold agent; rw [hn]
  have hplaced : s3 = fencedNow s c.phys := by unfold s3; rw [hn]; rfl
  have hdeclared : s4 = s3 := if_pos (.inl rfl)
  have hrecord : record = fencedRecord s4 none 4 agent c.phys := by unfold record; rw [if_pos hpart]; rfl
  rw [hwait, ← hplaced, ← hdeclared, ← hagent, ← hrecord]

/-- The core is waited for no more. -/
theorem coreWaited_partition (s : State) {p n : Nat} (hp : c.partition = some p) (hn : c.logical = some n) :
    coreWaited s c = onPart s p fun x => { x with waiting := x.waiting.filter (· != n) } := by
  simp only [coreWaited, hp, hn]

/-- An acknowledged unfence places its core. -/
theorem unfenceAcked_core {n : Nat} (hc : cmdOf s 3 phys = some c)
    (hu : u = dropCmd { s with fenced := s.fenced.filter (· != phys) } 3 phys) (hn : logicalOf u phys = some n) :
    unfenceAcked s phys = coreUnfenced u n := by
  subst hu
  simp only [unfenceAcked, hc, hn]

end Core

section Waits

variable {s : State} {n index ref : Nat} {w : Waiter} (hphase : w.phase = .joined) (hplace : w.place = .eddy index ref)
  (hcancel : w.cancel = none)
include hphase hplace hcancel

/-- A registered wait that ends with its core is withdrawn; a held read is answered. -/
theorem fenceWait_joined :
    fenceWait s n w = if w.hold then respond (dropWaiter (sendWithdrawal s n w) n w.id) n w.reply
      (mkRsp w.acquire w.scope w.opTag (plain .fenced)) else dropWaiter (sendWithdrawal s n w) n w.id := by
  simp only [fenceWait, hphase, hplace, cancelStale, hcancel]

end Waits

/-- Settles O49, by the command: a partition by its state, a declaration by its cause, a core command by what is outstanding, and the
end of a fence by its answer and its spare. -/
theorem recovery : Obligations.Recovery := by
  unfold Obligations.Recovery
  refine ⟨?beat, ?partition, ?declare, ?entry, ?limit, ?reset, fun s p => rfl, ?command, ?ends, ?waits, ?joined⟩
  case beat =>
    intro s t u p h c hh hc hnull hfn ht hu
    refine ⟨fun hnew => congrArg conclude ?_, fun hold => congrArg conclude ?_⟩
    · rw [heartbeatReads_counter hh hc hnull hfn ht hu, if_neg hnew]
    · rw [heartbeatReads_counter hh hc hnull hfn ht hu, if_pos hold]
  case partition =>
    intro s t q p
    refine ⟨fun h => ?freeze, fun h hstate hreq => ?ready, fun hp hstate => congrArg conclude ?fault⟩
    case freeze => exact ownerByte_ok (entryTakes_partition 1 (by omega) p) (by omega) h (scalarWrites_partition t p 1)
    case ready =>
      exact ownerByte_ok (entryTakes_partition 0 (by omega) p) (by omega) h
        ((scalarWrites_partition t p 0).trans (partitionWrites_ready hstate hreq))
    case fault => exact (powered_on hp).trans (declare_freezes rfl hstate (by omega))
  case declare =>
    intro s t p cause fn agent phys tier h ht
    exact ⟨fun hstate hcause => ⟨declare_freezes ht hstate hcause, declare_leaves ht⟩,
      fun hstate hcause => declare_recorded ht hstate hcause,
      fun hstate hcause hruns => declare_tier hstate hcause hruns, fun hstate hother => declare_ignored ht hstate hother⟩
  case entry => exact fun s t src dst j e rest l c hm ht hslice hc => exec_captureEntry hm ht hslice hc
  case limit => exact fun s t p j c hc hstep hopen ht => congrArg conclude (captureLimited_open hc hstep hopen ht)
  case reset =>
    intro s t p x n hx hreq ht hn
    refine ⟨fun hstate => congrArg conclude (resetAcknowledged_idle hx hreq ht hstate),
      fun hstate hfew => congrArg conclude ?ready, fun hstate hstep hmany => congrArg conclude ?oos,
      fun hstate => congrArg conclude (partitionTimesOut_resetting hx hreq hstate)⟩
    case ready => rw [resetAcknowledged_resetting hx hreq ht hn hstate, if_neg (by omega)]
    case oos => rw [resetAcknowledged_resetting hx hreq ht hn hstate, if_pos ⟨hstep, hmany⟩]
  case command =>
    intro s t q phys hphys
    exact ⟨fun h hfits => exec_coreRequest (by omega) (by omega) hphys h hfits,
      fun h hfits => exec_coreRequest (by omega) (by omega) hphys h hfits,
      fun h hfits => exec_coreRequest (by omega) (by omega) hphys h hfits⟩
  case ends =>
    intro s phys c
    refine ⟨fun block p n hc hp hn => congrArg conclude (resetAcked_partition block hc hp hn),
      fun hc hp block => congrArg conclude (resetAcked_owner block hc hp),
      fun n u v hc hn hu hv => ⟨fun hfree hnone => congrArg conclude (resetTimesOut_fences hc hn hu hv hfree hnone),
        fun hfenced => congrArg conclude (resetTimesOut_fenced hc hn hu hv hfenced)⟩,
      fun hc => congrArg conclude (fenceAcked_command hc), fun hc => congrArg conclude (fenceTimesOut_command hc), ?fence,
      fun u hn hu => fenceEnds_unplaced hn hu, fun p n hp hn => coreWaited_partition s hp hn,
      fun n hc hn => congrArg conclude (unfenceAcked_core hc rfl hn)⟩
    rintro n u v _ hn hu hphys rfl
    refine ⟨fun sp hsp hv => ?spare, fun hnone hv => ?breaks, fun p hp hv => ?lost, fun hnone hv => ?quiet⟩
    case spare => rw [hv, fenceEnds_acked hn hu hphys, hsp]; rfl
    case breaks => rw [hv, fenceEnds_acked hn hu hphys, hnone]; rfl
    case lost =>
      have hpart : corePartition u n ≠ 255 := fun h => by rw [if_pos h] at hp; cases hp
      rw [if_neg hpart] at hp
      cases hp
      rw [hv, fenceEnds_lost hn hu hphys hpart]
      rfl
    case quiet =>
      have hpart : corePartition u n = 255 := by
        by_contra h
        rw [if_neg h] at hnone
        cases hnone
      rw [hv, fenceEnds_lost_alone hn hu hphys hpart]
      rfl
  case waits =>
    intro s core n
    have hfree := endCoreWaits_free s core n
    exact ⟨hfree.waiters, hfree.ready, hfree.queued⟩
  case joined =>
    intro s n index ref w hphase hplace hcancel
    exact ⟨fun hhold => by rw [fenceWait_joined hphase hplace hcancel, if_pos hhold],
      fun hhold => by rw [fenceWait_joined hphase hplace hcancel, hhold, if_neg Bool.false_ne_true]⟩

end Sys2Proof.Machine
end
